-- ==== Sys2Proof/Word.lean ====
section
/-! DEFINITION. The word types of the machine (spec/ 09 R136, 07 R106) and their plainest arithmetic. -/

namespace Sys2Proof

/-- A byte of memory (R9). -/
abbrev Byte := BitVec 8
/-- A halfword, the unit of instruction fetch (R139). -/
abbrev Half := BitVec 16
/-- A 32-bit instruction word or 32-bit operand. -/
abbrev Word32 := BitVec 32
/-- A general register's value (R136). -/
abbrev Word := BitVec 64
/-- Bits [55:0] of an address operand (R106). -/
abbrev Addr := BitVec 56
/-- A vector register's value (R136). -/
abbrev VReg := BitVec 512
/-- The number of a general or vector register (R136). -/
abbrev Reg := BitVec 4
/-- The number of a predicate register (R136). -/
abbrev KReg := BitVec 3

/-- `sext(x, n)` of R13 for a value already n bits wide. -/
abbrev sext64 {n : Nat} (x : BitVec n) : Word := x.signExtend 64
/-- `zext(x, n)` of R13 for a value already n bits wide. -/
abbrev zext64 {n : Nat} (x : BitVec n) : Word := x.setWidth 64

end Sys2Proof
end

