-- ==== Sys2Proof/Kinds.lean ====
section
/-! DEFINITION. The closed sets of names that instruction fields and requests are made of: element types, rounding
choices, scopes, orders, state registers (spec/ 09), with their codes. -/

namespace Sys2Proof

/-- The element TYPE codes of R207. -/
inductive ElemType where
  | s8 | n8 | s16 | n16 | s32 | n32 | s64 | n64 | f16 | bf16 | f32 | f64 | e4m3 | e5m2
deriving DecidableEq, Repr

/-- The code of R207, from 0 to 13. -/
def ElemType.code : ElemType → BitVec 4
  | .s8 => 0 | .n8 => 1 | .s16 => 2 | .n16 => 3 | .s32 => 4 | .n32 => 5 | .s64 => 6 | .n64 => 7
  | .f16 => 8 | .bf16 => 9 | .f32 => 10 | .f64 => 11 | .e4m3 => 12 | .e5m2 => 13

/-- The type a code names; codes 14 and 15 name none (R209). -/
def ElemType.ofCode (c : BitVec 4) : Option ElemType :=
  match c.toNat with
  | 0 => some .s8 | 1 => some .n8 | 2 => some .s16 | 3 => some .n16 | 4 => some .s32 | 5 => some .n32
  | 6 => some .s64 | 7 => some .n64 | 8 => some .f16 | 9 => some .bf16 | 10 => some .f32 | 11 => some .f64
  | 12 => some .e4m3 | 13 => some .e5m2 | _ => none

/-- The lane width w of R207. -/
def ElemType.width : ElemType → Nat
  | .s8 | .n8 | .e4m3 | .e5m2 => 8
  | .s16 | .n16 | .f16 | .bf16 => 16
  | .s32 | .n32 | .f32 => 32
  | .s64 | .n64 | .f64 => 64

/-- The number of lanes n of R207. -/
def ElemType.lanes (t : ElemType) : Nat := 512 / t.width

/-- Whether the type is one of the integer types s8 to n64. -/
def ElemType.isInt : ElemType → Bool
  | .s8 | .n8 | .s16 | .n16 | .s32 | .n32 | .s64 | .n64 => true
  | _ => false

/-- Whether the type is a signed integer type. -/
def ElemType.isSigned : ElemType → Bool
  | .s8 | .s16 | .s32 | .s64 => true
  | _ => false

/-- FOP precision P (R182). -/
inductive Prec where
  | d | s
deriving DecidableEq, Repr

/-- FOP rounding field RND (R182): FPM, RNE or RTZ. -/
inductive Rnd where
  | fpm | rne | rtz
deriving DecidableEq, Repr

/-- VCVT rounding field FN4[1:0] (R216). -/
inductive VRnd where
  | rne | rtz | sr
deriving DecidableEq, Repr

/-- AMO ORDER (R193). -/
inductive Order where
  | rlx | acq | rel | ar
deriving DecidableEq, Repr

/-- AMO SIZE (R192): 8 bytes or 4. -/
inductive AmoSize where
  | d | w
deriving DecidableEq, Repr

/-- The five scopes of R24. -/
inductive Scope where
  | context | tile | die | package | system
deriving DecidableEq, Repr

def Prec.bit : Prec → BitVec 1 | .d => 0 | .s => 1
def Prec.ofBit (x : BitVec 1) : Prec := if x = 0 then .d else .s
def Rnd.code : Rnd → BitVec 2 | .fpm => 0 | .rne => 1 | .rtz => 2
def Rnd.ofCode (x : BitVec 2) : Option Rnd :=
  match x.toNat with | 0 => some .fpm | 1 => some .rne | 2 => some .rtz | _ => none
def VRnd.code : VRnd → BitVec 2 | .rne => 0 | .rtz => 1 | .sr => 2
def VRnd.ofCode (x : BitVec 2) : Option VRnd :=
  match x.toNat with | 0 => some .rne | 1 => some .rtz | 2 => some .sr | _ => none
def Order.code : Order → BitVec 2 | .rlx => 0 | .acq => 1 | .rel => 2 | .ar => 3
def Order.ofCode (x : BitVec 2) : Order :=
  match x.toNat with | 0 => .rlx | 1 => .acq | 2 => .rel | _ => .ar
/-- Whether the order includes an acquire (R193): the context then always waits for the reply. -/
def Order.acquires : Order → Bool | .acq | .ar => true | _ => false
/-- Whether the order includes a release (R193). -/
def Order.releases : Order → Bool | .rel | .ar => true | _ => false
def AmoSize.bit : AmoSize → BitVec 1 | .d => 0 | .w => 1
def AmoSize.ofBit (x : BitVec 1) : AmoSize := if x = 0 then .d else .w
/-- Bytes of an AMO of this size. -/
def AmoSize.bytes : AmoSize → Nat | .d => 8 | .w => 4
def Scope.code : Scope → BitVec 4 | .context => 0 | .tile => 1 | .die => 2 | .package => 3 | .system => 4
/-- Codes 5 to 15 name no scope (R26). -/
def Scope.ofCode (x : BitVec 4) : Option Scope :=
  match x.toNat with
  | 0 => some .context | 1 => some .tile | 2 => some .die | 3 => some .package | 4 => some .system | _ => none

/-- The state registers of R137. -/
inductive StateReg where
  | pc | lc0 | lb0 | le0 | lc1 | lb1 | le1 | fpm | fpf | utvec | utpc | utcause | utaddr | txh | srng | ctxid
  | tileid | tilephys | jobid | qstat | qdepth | agelim | promo | hlimit | spillst | snapst | partw | ctxres | engst
  | asid | xbase | errinj | sysctl
deriving DecidableEq, Repr

/-- The 8-bit index of R137. -/
def StateReg.index : StateReg → BitVec 8
  | .pc => 0x00 | .lc0 => 0x01 | .lb0 => 0x02 | .le0 => 0x03 | .lc1 => 0x04 | .lb1 => 0x05 | .le1 => 0x06
  | .fpm => 0x08 | .fpf => 0x09 | .utvec => 0x0A | .utpc => 0x0B | .utcause => 0x0C | .utaddr => 0x0D
  | .txh => 0x0E | .srng => 0x0F | .ctxid => 0x10
  | .tileid => 0x20 | .tilephys => 0x21 | .jobid => 0x22 | .qstat => 0x23 | .qdepth => 0x24 | .agelim => 0x25
  | .promo => 0x26 | .hlimit => 0x27 | .spillst => 0x28 | .snapst => 0x29 | .partw => 0x2A | .ctxres => 0x2B
  | .engst => 0x2C | .asid => 0x60 | .xbase => 0x61 | .errinj => 0x62 | .sysctl => 0x63

/-- Any index not listed is unassigned (R137). -/
def StateReg.ofIndex (x : BitVec 8) : Option StateReg :=
  match x.toNat with
  | 0x00 => some .pc | 0x01 => some .lc0 | 0x02 => some .lb0 | 0x03 => some .le0 | 0x04 => some .lc1
  | 0x05 => some .lb1 | 0x06 => some .le1 | 0x08 => some .fpm | 0x09 => some .fpf | 0x0A => some .utvec
  | 0x0B => some .utpc | 0x0C => some .utcause | 0x0D => some .utaddr | 0x0E => some .txh | 0x0F => some .srng
  | 0x10 => some .ctxid | 0x20 => some .tileid | 0x21 => some .tilephys | 0x22 => some .jobid
  | 0x23 => some .qstat | 0x24 => some .qdepth | 0x25 => some .agelim | 0x26 => some .promo
  | 0x27 => some .hlimit | 0x28 => some .spillst | 0x29 => some .snapst | 0x2A => some .partw
  | 0x2B => some .ctxres | 0x2C => some .engst | 0x60 => some .asid | 0x61 => some .xbase
  | 0x62 => some .errinj | 0x63 => some .sysctl | _ => none

/-- The full/empty operations of R190 and R180 at a granule's home. -/
inductive FeOp where
  | lddW | lddWc | lddT | lddTc | fetest | stdF | stdWf | feset | feclr | waitf
deriving DecidableEq, Repr

/-- The AMO operations of R192. -/
inductive AmoOp where
  | add | and | or | xor | min | max | minn | maxn | swap | cas | fadd
deriving DecidableEq, Repr

/-- The RING operations of R204. -/
inductive RingOp where
  | rresv | rpubl | rhead | rcons
deriving DecidableEq, Repr

/-- The condition of a BC branch (R170). -/
inductive Cond where
  | eq | ne | lt | ge | ltn | gen | any | none
deriving DecidableEq, Repr

/-- The condition of an FBC branch (R171). -/
inductive FCond where
  | eq | ne | lt | le | un | ord
deriving DecidableEq, Repr

/-- The condition of a VCMP (R214). -/
inductive VCond where
  | eq | ne | lt | le | gt | ge | un
deriving DecidableEq, Repr

end Sys2Proof
end

