-- ==== Sys2Proof/Flit.lean ====
section
/-! DEFINITION. Message headers, flits and the bodies they carry (spec/ 05 R65 to R69), and the requests and replies of
the memory, counter, lock and snapshot units. The spec gives the 64-byte payload of handler messages; the bodies of other
kinds are the model's own plain data (log entry 6). -/

namespace Sys2Proof

/-- The fields of H0 and H1 (R66), without FIDX and AGE, which differ from flit to flit. -/
structure Header where
  origKind : BitVec 4 := 0
  kind     : BitVec 4 := 0
  ftag     : BitVec 12 := 0
  nflit    : BitVec 2 := 0
  colour   : BitVec 1 := 0
  prio     : BitVec 2 := 0
  cls      : BitVec 8 := 0
  dtile    : BitVec 12 := 0
  dpkg     : BitVec 15 := 0
  mseq     : BitVec 16 := 0
  stile    : BitVec 12 := 0
  spkg     : BitVec 15 := 0
  /-- the reserved bits H0[63:60] and H1[63:57]: zero in what this machine sends (R69) -/
  rsv0     : BitVec 4 := 0
  rsv1     : BitVec 7 := 0
deriving DecidableEq, Repr, Inhabited

/-- H0 of R66. -/
def Header.h0 (h : Header) : Word :=
  h.rsv0 ++ h.origKind ++ h.kind ++ h.ftag ++ h.nflit ++ h.colour ++ h.prio ++ h.cls ++ h.dtile ++ h.dpkg

/-- H1 of R66 for the flit FIDX with deflection age AGE. -/
def Header.h1 (h : Header) (fidx : BitVec 2) (age : BitVec 12) : Word :=
  h.rsv1 ++ fidx ++ age ++ h.mseq ++ h.stile ++ h.spkg

/-- The identifier MSGID returns (R202): SPKG in [42:28], STILE in [27:16], MSEQ in [15:0]. -/
def Header.msgid (h : Header) : Word :=
  (0 : BitVec 21) ++ h.spkg ++ h.stile ++ h.mseq

/-- One byte range of a read, tagged with the place of its data in the requester's result. -/
structure Part where
  key : Nat
  len : Nat
  pos : Nat
deriving DecidableEq, Repr

/-- What a memory request does at its home (R189 to R193, R200, R204, R219 to R224). Addresses are memory keys. -/
inductive MemOp where
  /-- plain read of byte ranges -/
  | read (parts : List Part)
  /-- a full/empty form on the 8 bytes at `a` (R190, R180) -/
  | fe (op : FeOp) (a : Nat) (w : Word)
  /-- VLD.W on the 64 bytes at `a` (R219) -/
  | vldW (a : Nat)
  /-- plain write of byte ranges; `full` sets FULL of every granule covered (PUT.F, VST.F); `cnt` is the counter of PUT.N -/
  | write (parts : List (Nat × List Byte)) (full : Bool) (cnt : Option Word)
  /-- an atomic (R192) -/
  | amo (op : AmoOp) (size : AmoSize) (a : Nat) (b c : Word)
  /-- the lanes of a VSCATA that fall on one home, in lane order (R221, R222) -/
  | addLanes (t : ElemType) (lanes : List (Nat × Word))
  /-- a RING instruction on the descriptor at `a` (R204) -/
  | ring (op : RingOp) (a : Nat) (x y : Word)
deriving DecidableEq, Repr, Inhabited

/-- What a reply of kind 8 or 9 carries (R68, R205). -/
inductive RepVal where
  /-- data of a read, by position -/
  | data (parts : List (Nat × List Byte))
  /-- a value and the floating flags raised at the home -/
  | val (w : Word) (flags : BitVec 6)
  /-- done, no value -/
  | done
  /-- LDD.T or LDD.TC found the granule empty (R191) -/
  | empty
  /-- the home refuses the operands of a RING instruction (R203, R204) -/
  | illop
  /-- uncorrectable data was met at the home (R285) -/
  | bad (a : Nat)
  /-- the wait ended because the window was unmapped (R35) -/
  | unmapped
  /-- the tile belongs to no partition: as an access outside the partition (R28) -/
  | outside
deriving DecidableEq, Repr

/-- A lock request's operation at the home (R261, R262, R266, R269, R270, R271). -/
inductive LockOp where
  | acquire (try_ : Bool) (mode : BitVec 3)
  | convert (mode : BitVec 3)
  | release
  | cancel
  /-- everything the transaction holds or waits for at the home (R265, R270) -/
  | endTx
  | matrix (m : Word)
  | lease (mode : BitVec 3)
  | leaser
deriving DecidableEq, Repr

/-- A kind-5 lock request (R67, R253). `ts` and `handle` form the age key of R259; `cls` and `prio` are what the grant of an LKACQM
carries, zero for other forms (R67). -/
structure LockReq where
  tag    : Nat
  asid   : BitVec 16
  name   : Word
  ts     : Word
  handle : Word
  op     : LockOp
  cls    : BitVec 8 := 0
  prio   : BitVec 2 := 0
deriving DecidableEq, Repr

/-- A kind-10 flit to a lock client (R68, R261, R263, R121). -/
inductive LockRep where
  /-- the reply to request `tag`: a status of R268, and the mode granted -/
  | answer (tag : Nat) (name handle : Word) (status : Nat) (mode : BitVec 3)
  /-- a wound of R263 -/
  | wound (name ts handle : Word)
  /-- a recall of R121 of the lease on a region as a grant of this number gave it -/
  | recall (region serial : Nat)
  /-- the home tells a holder of X on a region to hold it as S while a snapshot runs, or no longer (R306) -/
  | hold (region : Nat) (shared : Bool)
deriving DecidableEq, Repr

/-- What a flit carries beside its header. -/
inductive Body where
  /-- eight payload words of a handler message, or a marker's identifier -/
  | words (ws : List Word)
  | request (tag : Nat) (op : MemOp)
  | incr (cid amount : Word)
  | trig
  | lock (r : LockReq)
  | reply (tag : Nat) (v : RepVal)
  | lockReply (r : LockRep)
deriving DecidableEq, Repr, Inhabited

/-- One flit (R65). `crcBad` marks a flit whose CRC check will fail (R287, R344). -/
structure Flit where
  hdr    : Header
  fidx   : BitVec 2 := 0
  age    : BitVec 12 := 0
  crcBad : Bool := false
  body   : Body
deriving DecidableEq, Repr, Inhabited

/-- A message of which not every flit has arrived: its header and the flits that have (R65). -/
structure Partly where
  hdr : Header
  got : List (BitVec 2)
deriving DecidableEq, Repr, Inhabited

/-- A whole message: a header and its payload. Handler messages carry 8 × (NFLIT + 1) words; others one body. -/
structure Msg where
  hdr  : Header
  body : Body
deriving DecidableEq, Repr, Inhabited

/-- A link frame of R346: up to four flits, a sequence number, and whether its CRC-32 is good. -/
structure Frame where
  seq   : Nat
  good  : Bool
  flits : List Flit
deriving DecidableEq, Repr

/-- An acknowledgement of R346: the number up to which frames have been accepted, and the flits of each plane that have left the far end's
buffers. -/
structure Ack where
  seq   : Nat
  back0 : Nat
  back1 : Nat
deriving DecidableEq, Repr, Inhabited

/-- What a device reset finds (R337, R356): the firmware image with its public key and signature, and what training finds on the cabling:
port, peer, and the lanes of the outgoing and incoming direction. -/
structure Boot where
  image     : List Byte
  key       : List Byte
  signature : List Byte
  links     : List (Nat × Nat × Nat × Nat)
deriving DecidableEq, Repr, Inhabited

/-- The plane a KIND travels on (R68): VN0 is 0, VN1 is 1. -/
def Header.plane (h : Header) : Nat :=
  if h.kind.toNat ≤ 6 then 0 else 1

/-- The cases of R69. -/
def Flit.malformed (f : Flit) : Bool :=
  f.hdr.kind.toNat ≥ 12 || f.hdr.rsv0 != 0 || f.hdr.rsv1 != 0 || f.fidx.toNat > f.hdr.nflit.toNat || (f.hdr.origKind != 0 && f.hdr.kind != 11)

/-- The bytes of data a request or reply carries. -/
def Body.dataBytes : Body → Nat
  | .request _ (.write ps _ _) => (ps.map fun p => p.2.length).sum
  | .request _ (.addLanes t ls) => ls.length * (t.width / 8)
  | .reply _ (.data ps) => (ps.map fun p => p.2.length).sum
  | _ => 0

/-- The header of a request or reply with NFLIT for the data it carries (R65): 64 bytes in each flit. -/
def Header.sized (h : Header) (b : Body) : Header := { h with nflit := BitVec.ofNat 2 ((b.dataBytes + 63) / 64 - 1) }

/-- The flits of a message, in FIDX order, with AGE 0 (R65, R67). Each flit of a request or reply holds its message's body, of which
the unit makes use once every flit is there (log entry 6). -/
def Msg.flits (m : Msg) : List Flit :=
  match m.body with
  | .words ws =>
    (List.range (m.hdr.nflit.toNat + 1)).map fun i =>
      { hdr := m.hdr, fidx := BitVec.ofNat 2 i, body := .words ((ws.drop (8 * i)).take 8) }
  | b => (List.range (m.hdr.nflit.toNat + 1)).map fun i => { hdr := m.hdr, fidx := BitVec.ofNat 2 i, body := b }

end Sys2Proof
end

