-- ==== Sys2Proof/Config.lean ====
section
/-! DEFINITION. What the package fixes (spec/ 00 R1 to R7, 01 R14 to R36), the model's own placements (log entries 2 and 7)
and the values the spec leaves open (log entry 9), which are opaque: nothing can be proved of them but that they are values. -/

namespace Sys2Proof.Config

/-- Logical tiles of a package (R2). -/
def tiles : Nat := 1152
/-- Logical tiles of a die (R2). -/
def tilesPerDie : Nat := 288
/-- Physical cores of a die (R14). -/
def coresPerDie : Nat := 304
/-- Columns and rows of the router torus (R2). -/
def cols : Nat := 32
def rows : Nat := 38
/-- The SRAM pool of a tile, in bytes (R5). -/
def poolBytes : Nat := 0x200000
/-- The end of a package's HBM (R108). -/
def hbmBytes : Nat := 0x9000000000
/-- One die's share of HBM (R108). -/
def hbmPerDie : Nat := 0x2400000000
/-- Messages the outbound queue holds (R198). -/
def outboundRoom : Nat := 32
/-- Ordinary slots of a Landing (R72). -/
def landingSlots : Nat := 63
/-- Entries of a context's send buffer (R84). -/
def sendRoom : Nat := 16
/-- Requests a context may have outstanding (R188). -/
def requestRoom : Nat := 16
/-- Remote waiters a memory unit holds (R112). -/
def remoteWaiters : Nat := 32
/-- Pending counter actions of a tile (R90). -/
def actionRoom : Nat := 16
/-- The matrix chain and the copy engine (R5). -/
def chainRoom : Nat := 64
def copyRoom : Nat := 48
/-- Status words an engine keeps (R248). -/
def statusKept : Nat := 64
/-- Reports a tile's report buffer holds (R279). -/
def reportRoom : Nat := 8
/-- Newel and lock client capacities (R254). -/
def lockEntries : Nat := 65536
def requestEntries : Nat := 262144
def txSlots : Nat := 64
def heldRecords : Nat := 1024
/-- Micro-translation entries of a tile and entries of a DTU (R118). -/
def microTlb : Nat := 64
def dtuTlb : Nat := 8192
/-- Active frame tags of a partition (R91). -/
def activeTags : Nat := 16
/-- Tokens the matching store holds (R334). -/
def tokenRoom : Nat := 512
/-- The leave budget of a die in milliwatts, and the package power limit (R353, R7). -/
def leaveBudgetMw : Nat := 420000
def packageLimitMw : Nat := 2800000
/-- The node numbers of a die's Newel instance (R67), of its memory node (R313) and of the Vestibule (R327). -/
def newelNode (die : Nat) : Nat := 0xF00 + die
def memoryNode (die : Nat) : Nat := 0xF80 + die
def vestibuleNode : Nat := 0xFE0
/-- Package numbers with a meaning of their own (R22). -/
def thisPackage : Nat := 0x7FFE
def hostPackage : Nat := 0x7FFF
/-- The virtual address of the system text (R335). -/
def systemTextVa : Nat := 0x007FFF0000000000

/-- DESIGN CHOICE (log entry 7): where the Vestibule keeps its own HBM region, the control block and ring of queue 0 in it, the
system text page, and where the pages it hands out begin. -/
def queue0Ctl : Nat := 0x1000
def queue0Ring : Nat := 0x2000
def queue0Units : Nat := 256
def systemTextPa : Nat := 0x10000
def pagePool : Nat := 0x1000000

/-- Flits a port's buffer holds on each plane. DESIGN CHOICE (log entry 2): the spec gives no size. -/
def portRoom : Nat := 64
/-- Records of each host egress ring. DESIGN CHOICE (log entry 17): the host registers the rings, and the spec gives no size. -/
def egressRecords : Nat := 256

/-- A word of another package's HBM, and a halfword of it or of its scratchpad, as this package's page walks and fetches find it in a
cycle: the other package holds it (log entry 11). -/
opaque remoteWord : Nat → Nat → Nat → Word
opaque remoteHalf : Nat → Nat → Nat → Half

/-- The bytes of a tile, Newel or queue image in a snapshot's manifest, by identifier and node: Fjarwin's own format (R313, log entry
60). -/
opaque imageLength : Nat → Nat → Nat
opaque imageByte : Nat → Nat → Nat → Byte

/-- The modulus and exponent that a public key's bytes hold, and a byte of the fused digest of the key that firmware is signed with (R337):
the key and its form are not in the spec. -/
opaque keyModulus : List Byte → Nat
opaque keyExponent : List Byte → Nat
opaque fusedKeyByte : Nat → Byte
/-- The security version a firmware image holds, and the fused minimum (R337). -/
opaque securityVersion : List Byte → Nat
opaque fusedMinimum : Nat
/-- The device identity key: its modulus and private exponent; and a byte of the salt of a signature over a message in a cycle (R8,
R339). -/
opaque identityModulus : Nat
opaque identityExponent : Nat
opaque saltByte : List Byte → Nat → Nat → Byte
/-- What the sensors read in a cycle: a die's power in milliwatts and its temperature, and the package's power (R353, R354). -/
opaque diePower : Nat → Nat → Nat
opaque dieHeat : Nat → Nat → Nat
opaque packagePower : Nat → Nat
/-- Whether the lane of a port's direction that is back from recalibration in a cycle passes (R348, R354). -/
opaque lanePasses : Nat → Nat → Bool → Bool
/-- A byte of the device serial number (R339). -/
opaque serialByte : Nat → Byte
/-- The security version, and a byte of the digest, of the firmware that State.reset's package has booted (R337, R339). -/
opaque firmwareVersion : BitVec 32
opaque firmwareDigestByte : Nat → Byte

end Sys2Proof.Config
end

