-- ==== Sys2Proof/Syntax.lean ====
section
/-! DEFINITION. The instructions and events of the machine: one constructor per row of the opcode table. The encoded
instructions come first, in the table's order; then the events, whose operands name the tile, context, node, queue or port
the event is about, and carry what only the outside world can supply. -/

namespace Sys2Proof

/-- The steps of the machine (spec/ 09, 95 and the opcode table). Register operands are named as in the assembly forms. -/
inductive Instr where
  /-- R142: Copies gA into gD; the halfword 0x0000 is ILLEGAL. -/
  | cMov (d : Reg) (a : Reg)
  /-- R142: Adds gA into gD. -/
  | cAdd (d : Reg) (a : Reg)
  /-- R142: Subtracts gA from gD. -/
  | cSub (d : Reg) (a : Reg)
  /-- R142: ANDs gA into gD. -/
  | cAnd (d : Reg) (a : Reg)
  /-- R142: ORs gA into gD. -/
  | cOr (d : Reg) (a : Reg)
  /-- R142: Adds a sign-extended 8-bit immediate to gD. -/
  | cAddi (d : Reg) (i : BitVec 8)
  /-- R142: Loads a sign-extended 8-bit immediate into gD. -/
  | cMovi (d : Reg) (i : BitVec 8)
  /-- R142: Loads 8 bytes at gA plus 8 times IMM4 into gD. -/
  | cLdd (d : Reg) (a : Reg) (i : BitVec 4)
  /-- R142: Stores gD as 8 bytes at gA plus 8 times IMM4. -/
  | cStd (d : Reg) (a : Reg) (i : BitVec 4)
  /-- R142: Branches by 2 times sext(IMM8) when gD is zero. -/
  | cBz (d : Reg) (off : BitVec 8)
  /-- R142: Branches by 2 times sext(IMM8) when gD is nonzero. -/
  | cBnz (d : Reg) (off : BitVec 8)
  /-- R142: Compressed DONE. -/
  | cDone
  /-- R142: Compressed YIELD. -/
  | cYield
  /-- R142: Compressed NOP. -/
  | cNop
  /-- R142: Compressed JR g15. -/
  | cRet
  /-- R142: Compressed COMMIT. -/
  | cCommit
  /-- R166: gD := gA + gB modulo 2^64. -/
  | add (d : Reg) (a : Reg) (b : Reg)
  /-- R166: gD := gA - gB modulo 2^64. -/
  | sub (d : Reg) (a : Reg) (b : Reg)
  /-- R166: gD := low 64 bits of gA times gB. -/
  | mul (d : Reg) (a : Reg) (b : Reg)
  /-- R166: gD := high 64 bits of the signed 128-bit product. -/
  | mulh (d : Reg) (a : Reg) (b : Reg)
  /-- R166: gD := high 64 bits of the unsigned 128-bit product. -/
  | mulhn (d : Reg) (a : Reg) (b : Reg)
  /-- R166: Signed quotient under R39. -/
  | div (d : Reg) (a : Reg) (b : Reg)
  /-- R166: Unsigned quotient under R39. -/
  | divn (d : Reg) (a : Reg) (b : Reg)
  /-- R166: Signed remainder under R39. -/
  | rem (d : Reg) (a : Reg) (b : Reg)
  /-- R166: Unsigned remainder under R39. -/
  | remn (d : Reg) (a : Reg) (b : Reg)
  /-- R166: Bitwise AND. -/
  | and (d : Reg) (a : Reg) (b : Reg)
  /-- R166: Bitwise OR. -/
  | or (d : Reg) (a : Reg) (b : Reg)
  /-- R166: Bitwise XOR. -/
  | xor (d : Reg) (a : Reg) (b : Reg)
  /-- R166: gA AND NOT gB. -/
  | andn (d : Reg) (a : Reg) (b : Reg)
  /-- R166: gA OR NOT gB. -/
  | orn (d : Reg) (a : Reg) (b : Reg)
  /-- R166: Shift left by gB[5:0]. -/
  | shl (d : Reg) (a : Reg) (b : Reg)
  /-- R166: Logical shift right by gB[5:0]. -/
  | shr (d : Reg) (a : Reg) (b : Reg)
  /-- R166: Arithmetic shift right by gB[5:0]. -/
  | sar (d : Reg) (a : Reg) (b : Reg)
  /-- R166: Rotate left by gB[5:0]. -/
  | rol (d : Reg) (a : Reg) (b : Reg)
  /-- R166: Signed minimum. -/
  | min (d : Reg) (a : Reg) (b : Reg)
  /-- R166: Signed maximum. -/
  | max (d : Reg) (a : Reg) (b : Reg)
  /-- R166: Unsigned minimum. -/
  | minn (d : Reg) (a : Reg) (b : Reg)
  /-- R166: Unsigned maximum. -/
  | maxn (d : Reg) (a : Reg) (b : Reg)
  /-- R166: gD := 1 if gA = gB else 0. -/
  | seq (d : Reg) (a : Reg) (b : Reg)
  /-- R166: gD := 1 if gA differs from gB. -/
  | sne (d : Reg) (a : Reg) (b : Reg)
  /-- R166: Signed less-than set. -/
  | slt (d : Reg) (a : Reg) (b : Reg)
  /-- R166: Signed less-or-equal set. -/
  | sle (d : Reg) (a : Reg) (b : Reg)
  /-- R166: Unsigned less-than set. -/
  | sltn (d : Reg) (a : Reg) (b : Reg)
  /-- R166: Unsigned less-or-equal set. -/
  | slen (d : Reg) (a : Reg) (b : Reg)
  /-- R166: gD := gC nonzero ? gA : gB. -/
  | sel (d : Reg) (a : Reg) (b : Reg) (c : Reg)
  /-- R166: Counts leading zero bits. -/
  | clz (d : Reg) (a : Reg)
  /-- R166: Counts trailing zero bits. -/
  | ctz (d : Reg) (a : Reg)
  /-- R166: Counts one bits. -/
  | popc (d : Reg) (a : Reg)
  /-- R166: Reverses the bit order. -/
  | brev (d : Reg) (a : Reg)
  /-- R166: gD := gA times gB plus gC. -/
  | muladd (d : Reg) (a : Reg) (b : Reg) (c : Reg)
  /-- R167: Adds gB to a fat pointer's ADDR modulo 2^56, keeping the tag. -/
  | padd (d : Reg) (a : Reg) (b : Reg)
  /-- R167: Subtracts gB from a fat pointer's ADDR. -/
  | psub (d : Reg) (a : Reg) (b : Reg)
  /-- R167: Replaces a pointer's tag byte with gB[7:0]. -/
  | ptag (d : Reg) (a : Reg) (b : Reg)
  /-- R167: Extracts a pointer's tag byte. -/
  | pfmt (d : Reg) (a : Reg)
  /-- R168: Extracts an unsigned bit field described by gC. -/
  | bfx (d : Reg) (a : Reg) (c : Reg)
  /-- R168: Extracts a signed bit field described by gC. -/
  | bfxs (d : Reg) (a : Reg) (c : Reg)
  /-- R168: Inserts gB's low bits into gA at the field of gC. -/
  | bfi (d : Reg) (a : Reg) (b : Reg) (c : Reg)
  /-- R166: 32-bit add, sign-extended. -/
  | addw (d : Reg) (a : Reg) (b : Reg)
  /-- R166: 32-bit subtract, sign-extended. -/
  | subw (d : Reg) (a : Reg) (b : Reg)
  /-- R166: 32-bit multiply, sign-extended. -/
  | mulw (d : Reg) (a : Reg) (b : Reg)
  /-- R166: 32-bit shift left, sign-extended. -/
  | shlw (d : Reg) (a : Reg) (b : Reg)
  /-- R166: 32-bit logical shift right, sign-extended. -/
  | shrw (d : Reg) (a : Reg) (b : Reg)
  /-- R166: 32-bit arithmetic shift right, sign-extended. -/
  | sarw (d : Reg) (a : Reg) (b : Reg)
  /-- R169: Adds a sign-extended 16-bit immediate. -/
  | addi (d : Reg) (a : Reg) (i : BitVec 16)
  /-- R169: ANDs a zero-extended immediate. -/
  | andi (d : Reg) (a : Reg) (i : BitVec 16)
  /-- R169: ORs a zero-extended immediate. -/
  | ori (d : Reg) (a : Reg) (i : BitVec 16)
  /-- R169: XORs a zero-extended immediate. -/
  | xori (d : Reg) (a : Reg) (i : BitVec 16)
  /-- R169: Signed compare with an immediate. -/
  | slti (d : Reg) (a : Reg) (i : BitVec 16)
  /-- R169: Unsigned compare with a sign-extended immediate. -/
  | sltni (d : Reg) (a : Reg) (i : BitVec 16)
  /-- R169: Shift left by an immediate count. -/
  | shli (d : Reg) (a : Reg) (n : BitVec 6)
  /-- R169: Logical shift right by an immediate count. -/
  | shri (d : Reg) (a : Reg) (n : BitVec 6)
  /-- R169: Arithmetic shift right by an immediate count. -/
  | sari (d : Reg) (a : Reg) (n : BitVec 6)
  /-- R169: Rotate left by an immediate count. -/
  | roli (d : Reg) (a : Reg) (n : BitVec 6)
  /-- R169: 32-bit shift left by an immediate, sign-extended. -/
  | shliW (d : Reg) (a : Reg) (n : BitVec 5)
  /-- R169: 32-bit logical shift right by an immediate, sign-extended. -/
  | shriW (d : Reg) (a : Reg) (n : BitVec 5)
  /-- R169: 32-bit arithmetic shift right by an immediate. -/
  | sariW (d : Reg) (a : Reg) (n : BitVec 5)
  /-- R169: 32-bit rotate left by an immediate, sign-extended. -/
  | roliW (d : Reg) (a : Reg) (n : BitVec 5)
  /-- R169: gD := IMM16 shifted to 16-bit lane pos, other bits zero. -/
  | movw (d : Reg) (i : BitVec 16) (p : BitVec 2)
  /-- R169: Replaces 16-bit lane pos of gD with IMM16. -/
  | movk (d : Reg) (i : BitVec 16) (p : BitVec 2)
  /-- R169: gD := NOT of IMM16 shifted to lane pos. -/
  | movn (d : Reg) (i : BitVec 16) (p : BitVec 2)
  /-- R169: Adds a signed immediate to a fat pointer's ADDR. -/
  | paddi (d : Reg) (a : Reg) (i : BitVec 16)
  /-- R169: gD := PC plus 2 times sext(OFF20). -/
  | adr (d : Reg) (off : BitVec 20)
  /-- R155: Converts a binary16 immediate exactly to f64. -/
  | fmoviF64H (d : Reg) (i : BitVec 16)
  /-- R155: Converts a binary16 immediate exactly to f32. -/
  | fmoviF32H (d : Reg) (i : BitVec 16)
  /-- R155: Converts a bf16 immediate exactly to f64. -/
  | fmoviF64Bf (d : Reg) (i : BitVec 16)
  /-- R155: Converts a bf16 immediate exactly to f32. -/
  | fmoviF32Bf (d : Reg) (i : BitVec 16)
  /-- R170: Unconditional PC-relative branch. -/
  | b (off : BitVec 24)
  /-- R170: Branch that writes PC+4 to g15. -/
  | bl (off : BitVec 24)
  /-- R170: Branch if gX equals gY. -/
  | bcEq (x : Reg) (y : Reg) (off : BitVec 12)
  /-- R170: Branch if gX differs from gY. -/
  | bcNe (x : Reg) (y : Reg) (off : BitVec 12)
  /-- R170: Branch if gX < gY signed. -/
  | bcLt (x : Reg) (y : Reg) (off : BitVec 12)
  /-- R170: Branch if gX >= gY signed. -/
  | bcGe (x : Reg) (y : Reg) (off : BitVec 12)
  /-- R170: Branch if gX < gY unsigned. -/
  | bcLtn (x : Reg) (y : Reg) (off : BitVec 12)
  /-- R170: Branch if gX >= gY unsigned. -/
  | bcGen (x : Reg) (y : Reg) (off : BitVec 12)
  /-- R170: Branch if gX AND gY is nonzero. -/
  | bcAny (x : Reg) (y : Reg) (off : BitVec 12)
  /-- R170: Branch if gX AND gY is zero. -/
  | bcNone (x : Reg) (y : Reg) (off : BitVec 12)
  /-- R171: Floating branch if ordered and equal. -/
  | fbcEq (p : Prec) (x : Reg) (y : Reg) (off : BitVec 12)
  /-- R171: Floating branch if ordered and not equal. -/
  | fbcNe (p : Prec) (x : Reg) (y : Reg) (off : BitVec 12)
  /-- R171: Floating branch if ordered and less. -/
  | fbcLt (p : Prec) (x : Reg) (y : Reg) (off : BitVec 12)
  /-- R171: Floating branch if ordered and less or equal. -/
  | fbcLe (p : Prec) (x : Reg) (y : Reg) (off : BitVec 12)
  /-- R171: Floating branch if either operand is a NaN. -/
  | fbcUn (p : Prec) (x : Reg) (y : Reg) (off : BitVec 12)
  /-- R171: Floating branch if neither operand is a NaN. -/
  | fbcOrd (p : Prec) (x : Reg) (y : Reg) (off : BitVec 12)
  /-- R170: Jumps to gA; bit 0 set raises ALIGN. -/
  | jr (a : Reg)
  /-- R170: Jumps to gA and writes PC+4 to gD. -/
  | jlr (d : Reg) (a : Reg)
  /-- R173: Enters hardware loop level 0 with the count in the count register. -/
  | loop0 (c : Reg) (len : BitVec 16)
  /-- R173: Enters hardware loop level 1. -/
  | loop1 (c : Reg) (len : BitVec 16)
  /-- R177: Ends the handler, committing buffered sends and freeing the slot. -/
  | done
  /-- R177: Injects buffered sends and continues. -/
  | commit
  /-- R178: Moves the context behind every other ready context. -/
  | yield
  /-- R177: Ends the handler, discarding buffered sends and consuming the message. -/
  | abort
  /-- R83: Ends the handler and makes its message re-arrive locally at the tail. -/
  | requeue
  /-- R179: Enters the user trap routine with cause USER and the given code. -/
  | trap (e : BitVec 8)
  /-- R179: Returns from the user trap to UTPC. -/
  | tret
  /-- R177: No effect. -/
  | nop
  /-- R180: Waits until the granule at gA is full, then acquires. -/
  | waitf (a : Reg)
  /-- R199: Commits buffered sends and sends the context as a kind-6 message to gA, ending the handler. -/
  | migrate (cls : BitVec 8) (a : Reg)
  /-- R181: Reads a state register into gD. -/
  | mfs (d : Reg) (e : StateReg)
  /-- R181: Writes gA to a state register under its field checks. -/
  | mts (e : StateReg) (a : Reg)
  /-- R189: Loads a sign-extended byte. -/
  | ldbs (d : Reg) (a : Reg) (i : BitVec 12)
  /-- R189: Loads a zero-extended byte. -/
  | ldbz (d : Reg) (a : Reg) (i : BitVec 12)
  /-- R189: Loads a sign-extended halfword. -/
  | ldhs (d : Reg) (a : Reg) (i : BitVec 12)
  /-- R189: Loads a zero-extended halfword. -/
  | ldhz (d : Reg) (a : Reg) (i : BitVec 12)
  /-- R189: Loads a sign-extended word. -/
  | ldws (d : Reg) (a : Reg) (i : BitVec 12)
  /-- R189: Loads a zero-extended word. -/
  | ldwz (d : Reg) (a : Reg) (i : BitVec 12)
  /-- R189: Loads 8 bytes. -/
  | ldd (d : Reg) (a : Reg) (i : BitVec 12)
  /-- R189: Stores a byte. -/
  | stb (d : Reg) (a : Reg) (i : BitVec 12)
  /-- R189: Stores a halfword. -/
  | sth (d : Reg) (a : Reg) (i : BitVec 12)
  /-- R189: Stores a word. -/
  | stw (d : Reg) (a : Reg) (i : BitVec 12)
  /-- R189: Stores 8 bytes. -/
  | std (d : Reg) (a : Reg) (i : BitVec 12)
  /-- R190: Waits for the granule full, then loads and acquires. -/
  | lddW (d : Reg) (a : Reg) (i : BitVec 12)
  /-- R190: Waits for full, loads, clears FULL and acquires. -/
  | lddWc (d : Reg) (a : Reg) (i : BitVec 12)
  /-- R190: Loads if full, otherwise takes the EMPTY user trap. -/
  | lddT (d : Reg) (a : Reg) (i : BitVec 12)
  /-- R190: Loads and clears if full, otherwise takes EMPTY. -/
  | lddTc (d : Reg) (a : Reg) (i : BitVec 12)
  /-- R190: Returns the granule's FULL bit. -/
  | fetest (d : Reg) (a : Reg) (i : BitVec 12)
  /-- R190: Stores 8 bytes and sets FULL, a release. -/
  | stdF (d : Reg) (a : Reg) (i : BitVec 12)
  /-- R190: Waits for empty, stores and sets FULL. -/
  | stdWf (d : Reg) (a : Reg) (i : BitVec 12)
  /-- R190: Sets FULL, a release. -/
  | feset (a : Reg) (i : BitVec 12)
  /-- R190: Clears FULL. -/
  | feclr (a : Reg) (i : BitVec 12)
  /-- R192: Atomic add at the home. -/
  | amoAdd (o : Order) (sz : AmoSize) (d : Reg) (a : Reg) (b : Reg)
  /-- R192: Atomic AND. -/
  | amoAnd (o : Order) (sz : AmoSize) (d : Reg) (a : Reg) (b : Reg)
  /-- R192: Atomic OR. -/
  | amoOr (o : Order) (sz : AmoSize) (d : Reg) (a : Reg) (b : Reg)
  /-- R192: Atomic XOR. -/
  | amoXor (o : Order) (sz : AmoSize) (d : Reg) (a : Reg) (b : Reg)
  /-- R192: Atomic signed minimum. -/
  | amoMin (o : Order) (sz : AmoSize) (d : Reg) (a : Reg) (b : Reg)
  /-- R192: Atomic signed maximum. -/
  | amoMax (o : Order) (sz : AmoSize) (d : Reg) (a : Reg) (b : Reg)
  /-- R192: Atomic unsigned minimum. -/
  | amoMinn (o : Order) (sz : AmoSize) (d : Reg) (a : Reg) (b : Reg)
  /-- R192: Atomic unsigned maximum. -/
  | amoMaxn (o : Order) (sz : AmoSize) (d : Reg) (a : Reg) (b : Reg)
  /-- R192: Atomic swap. -/
  | amoSwap (o : Order) (sz : AmoSize) (d : Reg) (a : Reg) (b : Reg)
  /-- R192: Atomic compare-and-swap against gC. -/
  | amoCas (o : Order) (sz : AmoSize) (d : Reg) (a : Reg) (b : Reg) (c : Reg)
  /-- R192: Atomic floating add rounded RNE. -/
  | amoFadd (o : Order) (sz : AmoSize) (d : Reg) (a : Reg) (b : Reg)
  /-- R194: Release and acquire at scope B, in the scope's fence order. -/
  | fence (sc : Scope)
  /-- R194: Acquire at scope B. -/
  | fenceAcq (sc : Scope)
  /-- R194: Release at scope B. -/
  | fenceRel (sc : Scope)
  /-- R194: Waits for the context's own engine posts and acquires their completions. -/
  | fenceEng
  /-- R195: Buffers a kind-0 message with N register payload words. -/
  | send (cls : BitVec 8) (a : Reg) (p : Reg) (n : BitVec 4)
  /-- R196: Buffers a message whose payload is copied from local scratchpad. -/
  | sendx (cls : BitVec 8) (a : Reg) (b : Reg) (c : Reg)
  /-- R197: Buffers one message yielding a copy per valid multicast descriptor entry. -/
  | sendg (cls : BitVec 8) (a : Reg) (p : Reg) (n : BitVec 4)
  /-- R200: Requests 16-256 bytes from a remote source into local scratchpad, clearing and setting FULL. -/
  | get (a : Reg) (b : Reg) (c : Reg)
  /-- R200: GET that adds 1 to a local counter when all granules land. -/
  | getN (d : Reg) (a : Reg) (b : Reg) (c : Reg)
  /-- R200: Writes 16-256 local bytes to a remote destination. -/
  | put (a : Reg) (b : Reg) (c : Reg)
  /-- R200: PUT that sets FULL of each destination granule. -/
  | putF (a : Reg) (b : Reg) (c : Reg)
  /-- R200: PUT that adds 1 to a destination-tile counter. -/
  | putN (d : Reg) (a : Reg) (b : Reg) (c : Reg)
  /-- R200: PUT that sets FULL and adds 1 to a destination counter. -/
  | putFn (d : Reg) (a : Reg) (b : Reg) (c : Reg)
  /-- R201: Sets a counter's TARGET and ACTION and arms it, firing at once if VALUE equals TARGET. -/
  | carm (a : Reg) (b : Reg) (c : Reg)
  /-- R201: Adds to a local counter and returns VALUE after the addition. -/
  | cadd (d : Reg) (a : Reg) (b : Reg)
  /-- R201: Reads a counter's VALUE. -/
  | crd (d : Reg) (a : Reg)
  /-- R201: Disarms a counter. -/
  | cdis (a : Reg)
  /-- R201: Sends a kind-4 counter increment to a tile. -/
  | cinc (a : Reg) (b : Reg) (c : Reg)
  /-- R202: Reads a payload word of the triggering message. -/
  | msgld (d : Reg) (w : BitVec 5)
  /-- R202: Reads header word H0 or H1 of the triggering message. -/
  | msghd (d : Reg) (h : BitVec 1)
  /-- R202: Reads SPKG, STILE and MSEQ of the triggering message. -/
  | msgid (d : Reg)
  /-- R202: Reads the payload length in bytes. -/
  | msglen (d : Reg)
  /-- R204: Reserves n ring slots, waiting for room, and returns the ticket. -/
  | rresv (d : Reg) (a : Reg) (b : Reg)
  /-- R204: Publishes ring slots by setting their FULL bits. -/
  | rpubl (a : Reg) (b : Reg) (c : Reg)
  /-- R204: Returns the count of consecutive full slots from HEAD. -/
  | rhead (d : Reg) (a : Reg)
  /-- R204: Consumes n slots: clears FULL and advances HEAD. -/
  | rcons (a : Reg) (b : Reg)
  /-- R183: Floating add rounded once. -/
  | fadd (p : Prec) (r : Rnd) (d : Reg) (a : Reg) (b : Reg)
  /-- R183: Floating subtract. -/
  | fsub (p : Prec) (r : Rnd) (d : Reg) (a : Reg) (b : Reg)
  /-- R183: Floating multiply. -/
  | fmul (p : Prec) (r : Rnd) (d : Reg) (a : Reg) (b : Reg)
  /-- R183: Floating divide. -/
  | fdiv (p : Prec) (r : Rnd) (d : Reg) (a : Reg) (b : Reg)
  /-- R183: Floating square root. -/
  | fsqrt (p : Prec) (r : Rnd) (d : Reg) (a : Reg)
  /-- R183: IEEE minimumNumber. -/
  | fmin (p : Prec) (d : Reg) (a : Reg) (b : Reg)
  /-- R183: IEEE maximumNumber. -/
  | fmax (p : Prec) (d : Reg) (a : Reg) (b : Reg)
  /-- R183: Clears the sign bit. -/
  | fabs (p : Prec) (d : Reg) (a : Reg)
  /-- R183: Inverts the sign bit. -/
  | fneg (p : Prec) (d : Reg) (a : Reg)
  /-- R183: Copies gB's sign bit onto gA. -/
  | fcpys (p : Prec) (d : Reg) (a : Reg) (b : Reg)
  /-- R183: Fused a times b plus c. -/
  | ffma (p : Prec) (r : Rnd) (d : Reg) (a : Reg) (b : Reg) (c : Reg)
  /-- R183: Fused a times b minus c. -/
  | ffms (p : Prec) (r : Rnd) (d : Reg) (a : Reg) (b : Reg) (c : Reg)
  /-- R183: Fused -(a times b) minus c. -/
  | fnfma (p : Prec) (r : Rnd) (d : Reg) (a : Reg) (b : Reg) (c : Reg)
  /-- R183: Fused -(a times b) plus c. -/
  | fnfms (p : Prec) (r : Rnd) (d : Reg) (a : Reg) (b : Reg) (c : Reg)
  /-- R184: Quiet equality compare to an integer. -/
  | feq (p : Prec) (d : Reg) (a : Reg) (b : Reg)
  /-- R184: Ordered less-than compare. -/
  | flt (p : Prec) (d : Reg) (a : Reg) (b : Reg)
  /-- R184: Ordered less-or-equal compare. -/
  | fle (p : Prec) (d : Reg) (a : Reg) (b : Reg)
  /-- R184: Unordered test. -/
  | fun (p : Prec) (d : Reg) (a : Reg) (b : Reg)
  /-- R184: Classifies the operand into one-hot bits. -/
  | fclass (p : Prec) (d : Reg) (a : Reg)
  /-- R185: Converts between f32 and f64. -/
  | fcvtp (p : Prec) (r : Rnd) (d : Reg) (a : Reg)
  /-- R185: Converts a float to s64 with saturation. -/
  | ftos (p : Prec) (r : Rnd) (d : Reg) (a : Reg)
  /-- R185: Converts a float to n64 with saturation. -/
  | fton (p : Prec) (r : Rnd) (d : Reg) (a : Reg)
  /-- R185: Converts s64 to a float. -/
  | stof (p : Prec) (r : Rnd) (d : Reg) (a : Reg)
  /-- R185: Converts n64 to a float. -/
  | ntof (p : Prec) (r : Rnd) (d : Reg) (a : Reg)
  /-- R183: Rounds to an integral value in format P. -/
  | frint (p : Prec) (r : Rnd) (d : Reg) (a : Reg)
  /-- R210: Lane-wise add. -/
  | vadd (t : ElemType) (z : Bool) (d : Reg) (a : Reg) (b : Reg) (k : KReg)
  /-- R210: Lane-wise subtract. -/
  | vsub (t : ElemType) (z : Bool) (d : Reg) (a : Reg) (b : Reg) (k : KReg)
  /-- R210: Lane-wise multiply. -/
  | vmul (t : ElemType) (z : Bool) (d : Reg) (a : Reg) (b : Reg) (k : KReg)
  /-- R210: Lane-wise minimum. -/
  | vmin (t : ElemType) (z : Bool) (d : Reg) (a : Reg) (b : Reg) (k : KReg)
  /-- R210: Lane-wise maximum. -/
  | vmax (t : ElemType) (z : Bool) (d : Reg) (a : Reg) (b : Reg) (k : KReg)
  /-- R210: Lane-wise absolute value. -/
  | vabs (t : ElemType) (z : Bool) (d : Reg) (a : Reg) (k : KReg)
  /-- R210: Lane-wise negation. -/
  | vneg (t : ElemType) (z : Bool) (d : Reg) (a : Reg) (k : KReg)
  /-- R210: Lane-wise saturating integer add. -/
  | vadds (t : ElemType) (z : Bool) (d : Reg) (a : Reg) (b : Reg) (k : KReg)
  /-- R210: Lane-wise saturating integer subtract. -/
  | vsubs (t : ElemType) (z : Bool) (d : Reg) (a : Reg) (b : Reg) (k : KReg)
  /-- R210: Lane-wise high half of the product. -/
  | vmulh (t : ElemType) (z : Bool) (d : Reg) (a : Reg) (b : Reg) (k : KReg)
  /-- R210: Lane-wise divide. -/
  | vdiv (t : ElemType) (z : Bool) (d : Reg) (a : Reg) (b : Reg) (k : KReg)
  /-- R210: Lane-wise square root. -/
  | vsqrt (t : ElemType) (z : Bool) (d : Reg) (a : Reg) (k : KReg)
  /-- R210: Lane-wise rounded integer average. -/
  | vavg (t : ElemType) (z : Bool) (d : Reg) (a : Reg) (b : Reg) (k : KReg)
  /-- R211: Lane-wise fused a times b plus d. -/
  | vfma (t : ElemType) (z : Bool) (d : Reg) (a : Reg) (b : Reg) (k : KReg)
  /-- R211: Lane-wise fused a times b minus d. -/
  | vfms (t : ElemType) (z : Bool) (d : Reg) (a : Reg) (b : Reg) (k : KReg)
  /-- R211: Lane-wise fused -(a times b) minus d. -/
  | vnfma (t : ElemType) (z : Bool) (d : Reg) (a : Reg) (b : Reg) (k : KReg)
  /-- R211: Lane-wise integer multiply-accumulate. -/
  | vmac (t : ElemType) (z : Bool) (d : Reg) (a : Reg) (b : Reg) (k : KReg)
  /-- R212: Two-product dot into f32 lanes. -/
  | vdot2 (t : ElemType) (z : Bool) (d : Reg) (a : Reg) (b : Reg) (k : KReg)
  /-- R212: Four-product FP8 dot into f32 lanes. -/
  | vdot4 (t : ElemType) (z : Bool) (d : Reg) (a : Reg) (b : Reg) (k : KReg)
  /-- R212: Four-product 8-bit integer dot into 32-bit lanes. -/
  | vdot4i (t : ElemType) (z : Bool) (d : Reg) (a : Reg) (b : Reg) (k : KReg)
  /-- R213: Lane-wise AND. -/
  | vand (t : ElemType) (z : Bool) (d : Reg) (a : Reg) (b : Reg) (k : KReg)
  /-- R213: Lane-wise OR. -/
  | vor (t : ElemType) (z : Bool) (d : Reg) (a : Reg) (b : Reg) (k : KReg)
  /-- R213: Lane-wise XOR. -/
  | vxor (t : ElemType) (z : Bool) (d : Reg) (a : Reg) (b : Reg) (k : KReg)
  /-- R213: Lane-wise a AND NOT b. -/
  | vandn (t : ElemType) (z : Bool) (d : Reg) (a : Reg) (b : Reg) (k : KReg)
  /-- R213: Lane-wise shift left. -/
  | vshl (t : ElemType) (z : Bool) (d : Reg) (a : Reg) (b : Reg) (k : KReg)
  /-- R213: Lane-wise logical shift right. -/
  | vshr (t : ElemType) (z : Bool) (d : Reg) (a : Reg) (b : Reg) (k : KReg)
  /-- R213: Lane-wise arithmetic shift right. -/
  | vsar (t : ElemType) (z : Bool) (d : Reg) (a : Reg) (b : Reg) (k : KReg)
  /-- R213: Lane-wise rotate left. -/
  | vrol (t : ElemType) (z : Bool) (d : Reg) (a : Reg) (b : Reg) (k : KReg)
  /-- R213: Lane-wise NOT. -/
  | vnot (t : ElemType) (z : Bool) (d : Reg) (a : Reg) (k : KReg)
  /-- R214: Lane compare equal into a predicate. -/
  | vcmpEq (t : ElemType) (d : KReg) (a : Reg) (b : Reg) (k : KReg)
  /-- R214: Lane compare not equal. -/
  | vcmpNe (t : ElemType) (d : KReg) (a : Reg) (b : Reg) (k : KReg)
  /-- R214: Lane compare less-than. -/
  | vcmpLt (t : ElemType) (d : KReg) (a : Reg) (b : Reg) (k : KReg)
  /-- R214: Lane compare less-or-equal. -/
  | vcmpLe (t : ElemType) (d : KReg) (a : Reg) (b : Reg) (k : KReg)
  /-- R214: Lane compare greater-than. -/
  | vcmpGt (t : ElemType) (d : KReg) (a : Reg) (b : Reg) (k : KReg)
  /-- R214: Lane compare greater-or-equal. -/
  | vcmpGe (t : ElemType) (d : KReg) (a : Reg) (b : Reg) (k : KReg)
  /-- R214: Lane unordered test. -/
  | vcmpUn (t : ElemType) (d : KReg) (a : Reg) (b : Reg) (k : KReg)
  /-- R215: Broadcasts gA's low bits to every active lane. -/
  | vbcast (t : ElemType) (z : Bool) (d : Reg) (a : Reg) (k : KReg)
  /-- R215: Permutes vA by indices in vB. -/
  | vperm (t : ElemType) (z : Bool) (d : Reg) (a : Reg) (b : Reg) (k : KReg)
  /-- R215: Selects lanes of vA or vB by predicate. -/
  | vsel (t : ElemType) (d : Reg) (a : Reg) (b : Reg) (k : KReg)
  /-- R215: Extracts lane gB of vA into gD. -/
  | vext (t : ElemType) (d : Reg) (a : Reg) (b : Reg)
  /-- R215: Inserts gA into lane gB of vD. -/
  | vins (t : ElemType) (d : Reg) (a : Reg) (b : Reg)
  /-- R215: Interleaves the low halves of vA and vB. -/
  | vzipl (t : ElemType) (z : Bool) (d : Reg) (a : Reg) (b : Reg) (k : KReg)
  /-- R215: Interleaves the high halves. -/
  | vziph (t : ElemType) (z : Bool) (d : Reg) (a : Reg) (b : Reg) (k : KReg)
  /-- R215: De-interleaves even lanes. -/
  | vuzpe (t : ElemType) (z : Bool) (d : Reg) (a : Reg) (b : Reg) (k : KReg)
  /-- R215: De-interleaves odd lanes. -/
  | vuzpo (t : ElemType) (z : Bool) (d : Reg) (a : Reg) (b : Reg) (k : KReg)
  /-- R215: Writes the count of earlier active predicate bits to each lane. -/
  | viota (t : ElemType) (z : Bool) (d : Reg) (k : KReg)
  /-- R215: Compresses active lanes of vA to the low lanes. -/
  | vcmprs (t : ElemType) (z : Bool) (d : Reg) (a : Reg) (k : KReg)
  /-- R215: Slides vA down by gB lanes. -/
  | vsldn (t : ElemType) (z : Bool) (d : Reg) (a : Reg) (b : Reg) (k : KReg)
  /-- R216: Converts lanes between types with rounding, saturation and half selection. -/
  | vcvt (hi : Bool) (sat : Bool) (r : VRnd) (t : ElemType) (s : ElemType) (z : Bool) (k : KReg) (d : Reg) (a : Reg)
  /-- R218: Lane-order sum of active lanes into gD. -/
  | vrsum (t : ElemType) (d : Reg) (a : Reg) (k : KReg)
  /-- R218: Pairwise-tree sum into gD. -/
  | vrsumt (t : ElemType) (d : Reg) (a : Reg) (k : KReg)
  /-- R218: Minimum of active lanes. -/
  | vrmin (t : ElemType) (d : Reg) (a : Reg) (k : KReg)
  /-- R218: Maximum of active lanes. -/
  | vrmax (t : ElemType) (d : Reg) (a : Reg) (k : KReg)
  /-- R218: AND fold of active lanes. -/
  | vrand (t : ElemType) (d : Reg) (a : Reg) (k : KReg)
  /-- R218: OR fold of active lanes. -/
  | vror (t : ElemType) (d : Reg) (a : Reg) (k : KReg)
  /-- R218: XOR fold of active lanes. -/
  | vrxor (t : ElemType) (d : Reg) (a : Reg) (k : KReg)
  /-- R219: Loads 64 bytes into vD. -/
  | vld (d : Reg) (a : Reg) (i : BitVec 12)
  /-- R220: Waits until all four granules are full, then loads and acquires. -/
  | vldW (d : Reg) (a : Reg) (i : BitVec 12)
  /-- R219: Loads 64 bytes with a no-reuse hint. -/
  | vldb (d : Reg) (a : Reg) (i : BitVec 12)
  /-- R219: Stores 64 bytes from vD. -/
  | vst (d : Reg) (a : Reg) (i : BitVec 12)
  /-- R220: Stores 64 bytes and sets all four FULL bits, a release. -/
  | vstF (d : Reg) (a : Reg) (i : BitVec 12)
  /-- R221: Gathers lanes from gA plus scaled s32 indices. -/
  | vgath (t : ElemType) (z : Bool) (d : Reg) (a : Reg) (b : Reg) (k : KReg)
  /-- R221: Scatters lanes to indexed addresses. -/
  | vscat (t : ElemType) (d : Reg) (a : Reg) (b : Reg) (k : KReg)
  /-- R221: Scatter-adds lanes indivisibly at each home. -/
  | vscata (t : ElemType) (d : Reg) (a : Reg) (b : Reg) (k : KReg)
  /-- R223: Decodes 64 narrow or block-scaled elements into a register group. -/
  | vldt (t : ElemType) (z : Bool) (d : Reg) (a : Reg) (b : Reg) (k : KReg)
  /-- R224: Quantises a register group to FP8, MXF4 or Q4O in memory. -/
  | vstq (t : ElemType) (sr : Bool) (d : Reg) (a : Reg) (b : Reg)
  /-- R225: Predicate AND. -/
  | kand (d : KReg) (a : KReg) (b : KReg)
  /-- R225: Predicate OR. -/
  | kor (d : KReg) (a : KReg) (b : KReg)
  /-- R225: Predicate XOR. -/
  | kxor (d : KReg) (a : KReg) (b : KReg)
  /-- R225: Predicate AND NOT. -/
  | kandn (d : KReg) (a : KReg) (b : KReg)
  /-- R225: Predicate NOT. -/
  | knot (d : KReg) (a : KReg)
  /-- R225: Copies a general register to a predicate. -/
  | kfromg (d : KReg) (a : Reg)
  /-- R225: Copies a predicate to a general register. -/
  | ktog (d : Reg) (a : KReg)
  /-- R225: Counts one bits of a predicate. -/
  | kpopc (d : Reg) (a : KReg)
  /-- R225: Index of the lowest set predicate bit, or 64. -/
  | kfirst (d : Reg) (a : KReg)
  /-- R247: Checks and appends a matrix command record to the chain, returning its number. -/
  | mpost (d : Reg) (a : Reg)
  /-- R247: Returns the matrix completed number, acquiring those completions. -/
  | mseq (d : Reg)
  /-- R247: Waits until the matrix completed number reaches gA. -/
  | mwait (a : Reg)
  /-- R247: Reads a matrix command's status word. -/
  | mstat (d : Reg) (a : Reg)
  /-- R247: Checks and posts a copy command record. -/
  | cpost (d : Reg) (a : Reg)
  /-- R247: Returns the copy completed number. -/
  | cseq (d : Reg)
  /-- R247: Waits until the copy completed number reaches gA. -/
  | cwait (a : Reg)
  /-- R247: Reads a copy command's status word. -/
  | cstat (d : Reg) (a : Reg)
  /-- R270: Begins a transaction in a free slot with a given or fresh timestamp. -/
  | txbeg (d : Reg) (a : Reg)
  /-- R270: Moves an ACTIVE transaction with nothing waiting to COMMITTING. -/
  | txcommit (d : Reg)
  /-- R270: Cancels waits, releases every lock and frees the slot. -/
  | txend (d : Reg)
  /-- R269: Requests a lock mode and waits for the grant or a status. -/
  | lkacq (d : Reg) (a : Reg) (b : Reg)
  /-- R269: Requests a lock mode without waiting; a message of class gC reports the outcome. -/
  | lkacqm (d : Reg) (a : Reg) (b : Reg) (c : Reg)
  /-- R269: Requests a lock only if grantable at once. -/
  | lktry (d : Reg) (a : Reg) (b : Reg)
  /-- R262: Weakens or escalates a held lock mode. -/
  | lkcvt (d : Reg) (a : Reg) (b : Reg)
  /-- R270: Releases a held lock and cancels its pending conversion. -/
  | lkrel (d : Reg) (a : Reg)
  /-- R271: Loads the job's compatibility matrix into every Newel instance. -/
  | lkmat (d : Reg) (a : Reg)
  /-- R266: Requests a die region lease in S or X. -/
  | lease (d : Reg) (a : Reg) (b : Reg)
  /-- R270: Writes back, invalidates and releases a region lease. -/
  | leaser (d : Reg) (a : Reg)
  /-- R272: Answers a lock-state query chosen by selector. -/
  | lkqry (d : Reg) (a : Reg) (b : Reg)
  /-- R298: Starts a group snapshot with this tile as coordinator. -/
  | snap (d : Reg)
  /-- R298: Queries the Vestibule for a snapshot's state. -/
  | snapq (d : Reg) (a : Reg)
  /-- R298: Returns the rollback count and last restored id. -/
  | resumeq (d : Reg)
  /-- R331: Sends a trigger count to the Vestibule for the handler's launch. -/
  | trig
  /-- R331: Returns system time in nanoseconds. -/
  | time (d : Reg)
  /-- R331: Returns core cycles since reset. -/
  | cycle (d : Reg)
  /-- R119: Invalidates cached translations of an ASID system-wide. -/
  | xinv (a : Reg) (b : Reg)
  /-- R287: Marks a granule or line uncorrectable, or arms a flit CRC failure. -/
  | inject (a : Reg) (b : Reg)
  /-- Event, R119: Every cache has removed its entries and prior accesses are performed; the XINV context becomes ready. -/
  | xinvComplete (t : Nat) (c : Nat)
  /-- Event, R342: Each fabric cycle a router arbitrates, ejects, routes, deflects and injects flits on each plane. -/
  | routerCycle
  /-- Event, R74: A kind-0 or kind-6 message's first flit is accepted and placed in a slot, spill ring or reserved slot, or refused. -/
  | handlerMessageArrival (t : Nat)
  /-- Event, R74: A refused local arrival (counter launch, REQUEUE, lock delivery, self-send) retries in the next cycle. -/
  | localArrivalRetry (t : Nat)
  /-- Event, R75: A refilled record's bytes arrive from the Gallery and it becomes eligible. -/
  | galleryRecordRead (t : Nat)
  /-- Event, R79: With a context idle, the tile dispatches at most one eligible message and initialises the context. -/
  | dispatch (t : Nat)
  /-- Event, R86: A handler running HLIMIT cycles raises HLIMIT. -/
  | hlimitExpiry (t : Nat) (c : Nat)
  /-- Event, R103: A queue head reaching age AGELIM+1 sends an advisory AGE trap report. -/
  | ageReport (t : Nat) (p : Nat)
  /-- Event, R117: The Vestibule backs or declines a faulting page and releases the held queue head. -/
  | xlateResolution
  /-- Event, R107: A kind-1 read request is served by the home memory unit or cache and replied to. -/
  | getRequest (n : Nat)
  /-- Event, R200: A kind-2 write is performed at the home, setting FULL or a counter as its form requires, and answered. -/
  | putRequest (n : Nat)
  /-- Event, R192: A kind-3 atomic is performed indivisibly at the home and answered. -/
  | atomicRequest (n : Nat)
  /-- Event, R204: A RING operation is performed at the descriptor's home memory unit. -/
  | ringRequest (n : Nat)
  /-- Event, R89: An arriving kind-4 increment updates a counter as one update. -/
  | counterIncrement (t : Nat)
  /-- Event, R200: A kind-8 reply delivers data to the waiting context or GET destination. -/
  | replyData (t : Nat)
  /-- Event, R68: A kind-9 status reply completes the request and frees its outstanding entry. -/
  | replyStatus (t : Nat)
  /-- Event, R101: A kind-11 flit is restored to its original kind at the new core and served. -/
  | forwardedFlit (t : Nat)
  /-- Event, R198: Outbound room appears and a waiting COMMIT, DONE or MIGRATE enqueues its messages. -/
  | commitRoomWaitEnd (t : Nat) (c : Nat)
  /-- Event, R90: A pending kind-1 action makes a local arrival launching a handler. -/
  | counterActionLaunch (t : Nat)
  /-- Event, R90: A pending kind-2 action posts the matrix record at OFFSET when the chain has room. -/
  | counterActionMpost (t : Nat)
  /-- Event, R90: A pending kind-3 action posts the copy record at OFFSET when the engine has room. -/
  | counterActionCpost (t : Nat)
  /-- Event, R90: A pending kind-4 action injects a message to TADDR. -/
  | counterActionSend (t : Nat)
  /-- Event, R90: A pending kind-5 action sets FULL at OFFSET. -/
  | counterActionSetfull (t : Nat)
  /-- Event, R90: A held data-borne counter update is applied once the action queue has room. -/
  | heldUpdateApply (t : Nat)
  /-- Event, R232: BF16 outer-product accumulate into an accumulator tile. -/
  | mmaBf16 (t : Nat)
  /-- Event, R232: F16 outer-product accumulate. -/
  | mmaF16 (t : Nat)
  /-- Event, R232: E4M3 outer-product accumulate in groups of 2. -/
  | mmaE4m3 (t : Nat)
  /-- Event, R232: E5M2 outer-product accumulate. -/
  | mmaE5m2 (t : Nat)
  /-- Event, R232: Mixed E4M3 by E5M2 outer-product accumulate. -/
  | mmaE4e5 (t : Nat)
  /-- Event, R233: MXF4 block-scaled outer-product accumulate. -/
  | mmaMxf4 (t : Nat)
  /-- Event, R233: Q4O block-scaled outer-product accumulate. -/
  | mmaQ4o (t : Nat)
  /-- Event, R232: FP32 outer-product accumulate. -/
  | mmaF32 (t : Nat)
  /-- Event, R232: FP64 outer-product accumulate in the FP64 layout. -/
  | mmaF64 (t : Nat)
  /-- Event, R234: 2:4 sparse BF16 outer-product accumulate. -/
  | mmaSpBf16 (t : Nat)
  /-- Event, R234: 2:4 sparse E4M3 outer-product accumulate. -/
  | mmaSpE4m3 (t : Nat)
  /-- Event, R235: Clears accumulator cells. -/
  | aclr (t : Nat)
  /-- Event, R236: Loads accumulator cells from local scratchpad. -/
  | aload (t : Nat)
  /-- Event, R237: Stores accumulator cells to memory with conversion or quantisation. -/
  | astore (t : Nat)
  /-- Event, R235: Adds one accumulator tile's cells into another. -/
  | aadd (t : Nat)
  /-- Event, R230: Empty matrix command that only completes and notifies. -/
  | mark (t : Nat)
  /-- Event, R239: A matrix command completes: status, NOTIFY and sequence advance. -/
  | matrixCommandComplete (t : Nat)
  /-- Event, R242: Copies or converts one row. -/
  | copy1d (t : Nat) (n : Nat)
  /-- Event, R242: Copies or converts pitched rows. -/
  | copy2d (t : Nat) (n : Nat)
  /-- Event, R242: Fills rows with a repeated value. -/
  | fill (t : Nat) (n : Nat)
  /-- Event, R242: Copies source rows chosen by an index array. -/
  | gatherrows (t : Nat) (n : Nat)
  /-- Event, R242: Copies rows to destinations chosen by an index array. -/
  | scatterrows (t : Nat) (n : Nat)
  /-- Event, R245: A copy command completes, records status, notifies and may advance CSEQ. -/
  | copyCommandComplete (t : Nat) (n : Nat)
  /-- Event, R353: The die governor grants leave to the head of its FIFO. -/
  | leaveGrant (die : Nat)
  /-- Event, R353: Every 2^10 fabric cycles the governor checks measured die and package power. -/
  | governorPowerCheck (die : Nat) (dieMw : Nat) (pkgMw : Nat)
  /-- Event, R261: A lock request is granted, refused or queued at its home, with a grant pass and wound check. -/
  | lockAcquireRequest (die : Nat)
  /-- Event, R262: A conversion weakens at once or escalates, granting or queueing. -/
  | lockConvertRequest (die : Nat)
  /-- Event, R261: A release removes a holder and runs a grant pass. -/
  | lockReleaseRequest (die : Nat)
  /-- Event, R269: A cancellation removes a waiting request at the home. -/
  | lockCancelRequest (die : Nat)
  /-- Event, R261: A grant arrives at the client; the waiter resumes, LKACQM's message arrives, or it is undone. -/
  | lockGrantArrival (t : Nat)
  /-- Event, R264: A wound makes an ACTIVE transaction WOUNDED and delivers a WOUND message, or is dropped. -/
  | woundArrival (t : Nat)
  /-- Event, R265: Grace expiry revokes a WOUNDED transaction. -/
  | woundgraceExpiry (t : Nat) (slot : Nat)
  /-- Event, R270: Every home confirms a TXEND and the context resumes. -/
  | txendConfirm (t : Nat) (c : Nat)
  /-- Event, R271: Every Newel instance holds the new matrix and LKMAT returns OK. -/
  | lkmatComplete (t : Nat) (c : Nat)
  /-- Event, R266: A lease request at the region's home is granted or waits for recalls. -/
  | leaseRequest (die : Nat)
  /-- Event, R121: A holding die writes back, invalidates and releases the recalled lease. -/
  | leaseRecall (die : Nat)
  /-- Event, R121: A released lease lets waiting accesses and lease requests at the home proceed. -/
  | leaseReleaseAtHome (die : Nat)
  /-- Event, R99: Starts live migration of a logical tile to a spare on its die. -/
  | migratetile (q : Nat)
  /-- Event, R99: After the freeze completes, tile state streams to the new core. -/
  | migrationStream
  /-- Event, R99: After streaming, the Vestibule installs the new mapping and forwarding entry. -/
  | migrationRemap
  /-- Event, R99: The new core applies the freeze log and resumes. -/
  | migrationResume
  /-- Event, R101: An idle forwarding entry is retired after 2^16 fabric cycles. -/
  | forwardingEntryRetire (r : Nat)
  /-- Event, R300: A kind-7 marker arrives at a node. -/
  | snapshotMarker (n : Nat)
  /-- Event, R303: The background copier writes the next uncopied block. -/
  | backgroundBlockCopy (t : Nat)
  /-- Event, R308: A node's OSENT and ORECV figures reach the coordinator's Vestibule. -/
  | snapshotCountReport (n : Nat)
  /-- Event, R311: The drain target adds an increment and the snapshot becomes DRAINED. -/
  | snapshotDrain (grp : Nat)
  /-- Event, R298: The Vestibule answers a SNAPQ query. -/
  | snapqAnswer
  /-- Event, R316: A rollback step completes on every package and the next begins. -/
  | rollbackStep
  /-- Event, R289: All nodes confirm the seal and the containment report is written. -/
  | sealComplete (pid : Nat)
  /-- Event, R288: A package with no route left is lost and its partitions are sealed. -/
  | packageLoss (p : Nat)
  /-- Event, R321: A write to a queue's word 0 is delivered as a token and accepted or discarded. -/
  | doorbell (q : Nat)
  /-- Event, R321: Every 2^20 fabric cycles TAILSH is applied as a doorbell. -/
  | reconcilePass (q : Nat)
  /-- Event, R164: Checks and loads an Omior image into a partition. -/
  | loadjob (q : Nat)
  /-- Event, R325: Seals and unloads a job, ending its tags. -/
  | unloadjob (q : Nat)
  /-- Event, R315: Unloads a snapshot group and parks its drained snapshot. -/
  | unloadjobKeep (q : Nat)
  /-- Event, R329: Allocates a frame tag and injects a launch's initial messages. -/
  | launch (q : Nat)
  /-- Event, R325: Holds its queue until the named tag retires. -/
  | waittag (q : Nat)
  /-- Event, R327: Injects one message into a partition. -/
  | signal (q : Nat)
  /-- Event, R325: Starts a snapshot of a group from a host or job queue. -/
  | snapshot (q : Nat)
  /-- Event, R314: Rolls a group back to its latest COMPLETE snapshot from live memory and pre-images. -/
  | rollbackLocal (q : Nat)
  /-- Event, R314: Rolls a group back from a drained full image. -/
  | rollbackRemote (q : Nat)
  /-- Event, R315: Restores a parked group into target partitions. -/
  | rollbackParked (q : Nat)
  /-- Event, R315: Frees a park record. -/
  | rollbackDiscard (q : Nat)
  /-- Event, R27: Creates a partition on a package. -/
  | partitionCreate (q : Nat)
  /-- Event, R28: Destroys a partition with no resident job. -/
  | partitionDestroy (q : Nat)
  /-- Event, R320: Creates or replaces a work queue. -/
  | createq (q : Nat)
  /-- Event, R328: Destroys a queue, discarding packets not started. -/
  | destroyq (q : Nat)
  /-- Event, R339: Writes a signed attestation report. -/
  | attest (q : Nat)
  /-- Event, R336: Has the service handler inject one error into a job. -/
  | injecterr (q : Nat)
  /-- Event, R94: The Vestibule reads every tile's tag figures. -/
  | launchSweep (pid : Nat)
  /-- Event, R331: A TRIG request is counted by the Vestibule for its launch. -/
  | trigArrival
  /-- Event, R332: A host mailbox record is injected as a class-0xFC message or dropped. -/
  | hostinRecord (mailbox : Nat) (rec : (List Word))
  /-- Event, R333: A message for the host is written into its egress ring and counted. -/
  | egressDelivery
  /-- Event, R346: A link frame is CRC-checked, accepted and acknowledged, or discarded. -/
  | linkFrameReceive (port : Nat) (frame : Frame)
  /-- Event, R346: An acknowledgement frees sent frames. -/
  | frameAck (port : Nat) (ack : Ack)
  /-- Event, R346: An unacknowledged frame and its successors are sent again. -/
  | frameRetryTimeout (port : Nat)
  /-- Event, R348: A failing lane is retired from its direction. -/
  | laneRetire (port : Nat) (out : Bool)
  /-- Event, R348: The far package's last accepted sequence arrives and later flits are re-injected. -/
  | portDownSequenceReply (port : Nat) (seq : Nat)
  /-- Event, R347: Firmware installs a new route table around a down port. -/
  | routeTableUpdate (entries : (List (Nat × Nat)))
  /-- Event, R349: The two ends move lanes between directions at a frame boundary. -/
  | laneTurnaround (port : Nat) (toOut : Bool)
  /-- Event, R354: A lane is taken out of service and recalibrated. -/
  | laneRecalibration (port : Nat) (out : Bool) (result : Option Bool)
  /-- Event, R354: Telemetry is sampled every 2^21 fabric cycles. -/
  | telemetrySample (dieMw : (List Nat)) (dieMilliC : (List Nat))
  /-- Event, R354: Patrol scrub reads and corrects an HBM line. -/
  | hbmPatrolScrub (pa : Nat)
  /-- Event, R354: SRAM scrub checks one pool granule. -/
  | sramScrub (t : Nat) (off : Nat)
  /-- Event, R353: A die over its thermal limit stops its governor granting leave. -/
  | thermalLimit (die : Nat)
  /-- Event, R353: The management controller removes power and the package is lost. -/
  | powerRemoval
  /-- Event, R356: Power-up or asserted reset runs boot and bring-up in order. -/
  | deviceReset (boot : Boot)
  /-- Event, R156: A fetched bit pattern that is not an instruction raises ILLEGAL at its address with no other effect. -/
  | illegalInstruction (insn : Nat)
  /-- Event, R140: A sequential instruction fetch from tile space, through an X=0 leaf or with no valid leaf raises FETCH or XLATE at the halfword that failed. -/
  | fetchFault (at_ : Addr) (unmapped : Bool)
  /-- Event, R285: A scratchpad granule or HBM line suffers a correctable or uncorrectable soft error. -/
  | softError (key : Nat) (correctable : Bool)
  /-- Event, R130: A host write reaches device memory through the bridge link, in host issue order. -/
  | hostWrite (pa : Nat) (bytes : (List Byte))
  /-- Event, R333: The host consumes records from a host egress queue ring, freeing room so the bridge stops refusing messages for it. -/
  | egressRingConsumed (q : Nat) (n : Nat)
  /-- Event, R353: A die that exceeded its thermal limit falls back below it and its governor resumes granting leave. -/
  | thermalLimitCleared (die : Nat)
  /-- Event, R345: A Wellia port's link finishes training with its peer and enters state UP. -/
  | portTrained (port : Nat) (peer : Nat) (txl : Nat) (rxl : Nat)
deriving DecidableEq, Repr, Inhabited

end Sys2Proof
end

