-- ==== Sys2Proof/Machine/State.lean ====
section
/-! DEFINITION. The state of one AE4 package, as plain data: everything spec/ names (INVENTORY.md lists it with its rules and
reset values), the reasons a step can stop, and the state after reset. -/

namespace Sys2Proof.Machine

/-- Sparse data by number, in rising order of the number. -/
abbrev Map (α : Type) := List (Nat × α)

/-! ### A handler context -/

/-- One hardware loop level (R172). -/
structure Loop where
  act   : Bool
  count : BitVec 32
  lb    : Addr
  le    : Addr
deriving DecidableEq, Repr, Inhabited

/-- UTVEC, UTPC, UTCAUSE and UTADDR (R282). -/
structure UserTrap where
  vec   : Addr
  pc    : Addr
  act   : Bool
  ucode : Byte
  cause : Byte
  addr  : Addr
deriving DecidableEq, Repr, Inhabited

/-- One entry of a send buffer (R84): a kind-0 or kind-6 message for each destination tile address, in order. -/
structure Send where
  kind  : BitVec 4
  cls   : BitVec 8
  dests : List (BitVec 27)
  words : List Word
deriving DecidableEq, Repr, Inhabited

/-- What follows when the committed messages have entered the outbound queue (R198): the handler goes on or ends. -/
inductive Ending where
  /-- COMMIT, with the instruction's length in bytes -/
  | commit (len : Nat)
  | done
  | migrate
deriving DecidableEq, Repr

/-- How the replies of a waiting instruction are used when they are all there. -/
inductive Fin where
  /-- nothing is written (STD.WF, WAITF, RPUBL, RCONS) -/
  | none
  /-- a load of R189 -/
  | load (d : Reg) (bytes : Nat) (signed : Bool)
  /-- a full/empty form that returns a word (R190) -/
  | word (d : Reg)
  /-- VLD, VLDB and VLD.W (R219) -/
  | vload (d : Reg)
  /-- an atomic (R192) -/
  | amo (d : Reg) (size : AmoSize)
  /-- RRESV and RHEAD (R204) -/
  | ring (d : Reg)
  /-- VGATH (R221) -/
  | gather (t : ElemType) (z : Bool) (k : KReg) (d : Reg)
  /-- VLDT with the FMT, block length and ADDR of its pointer (R223) -/
  | block (t : ElemType) (z : Bool) (k : KReg) (d : Reg) (fmt len : Nat) (addr : Addr)
deriving DecidableEq, Repr

/-- A condition on which a context waits before its instruction issues again, with all its checks repeated (R188). -/
inductive Cond where
  /-- room for this many more requests (R188) -/
  | requests (n : Nat)
  /-- no earlier access of the context to these granules outstanding (R188) -/
  | granules (gs : List Nat)
  /-- and none that lands in them either: what a request waits for -/
  | ends (gs : List Nat)
  /-- no lease in the way of a fetch's or a page walk's reads of these places (R121) -/
  | leases (keys : List Nat)
  /-- no access of the context that reads outstanding: what its writes to the own scratchpad follow (R124) -/
  | reads
  /-- no access of the context outstanding: what a release or a fence covers is performed (R188, R194) -/
  | drained
  /-- room in the pending-action queue (R90) -/
  | actions
  /-- the context's earlier addition to a counter, held back by its release, is made (R89, R205) -/
  | added (cid : Nat)
  /-- the completed number of an engine has reached n (R247) -/
  | engine (matrix : Bool) (n : Nat)
  /-- room in the chain or in the copy engine (R247) -/
  | postRoom (matrix : Bool)
  /-- the context's own posts are complete (R128) -/
  | ownPosts
  /-- the client has undone an earlier, cancelled request for this lock (R269) -/
  | undone (name : Word)
deriving DecidableEq, Repr

/-- What a lock request of a client is for. -/
inductive LockForm where
  | acquire | try_
  | message (cls : BitVec 8) (ftag : BitVec 12)
  /-- LKCVT: an escalation, and a weakening -/
  | convert | weaken
  | release | cancel | txend | matrix
  /-- LEASE and LEASER, with their region and mode -/
  | lease (region : Nat) (mode : BitVec 3)
  | leaser
deriving DecidableEq, Repr, Inhabited

/-- What a context that is not ready waits for. -/
inductive Wait where
  /-- the replies to requests `tags`; `got` and `val` collect them; `ea` is the instruction's effective address and `len` its
  length in bytes -/
  | replies (tags : List Nat) (got : List (Nat × List Byte)) (val : Option (Word × BitVec 6)) (fin : Fin) (ea : Addr) (len : Nat)
  /-- outbound room, until the message of this MSEQ is among the queue's 32 (R198) -/
  | room (e : Ending) (last : BitVec 16)
  /-- to issue its instruction again -/
  | cond (c : Cond)
  /-- the answers to lock requests `tags` of a form; the status, of the answer or of TXEND or LKMAT, is written to `d` (R269, R270) -/
  | locks (form : LockForm) (tags : List Nat) (d : Reg) (status : Nat)
  /-- the Vestibule's answer to SNAPQ (R298) -/
  | snapq (d : Reg) (n : Nat)
  /-- the invalidations of XINV and what they wait for: accesses, by tile and tag, and copy commands, by tile and number (R119) -/
  | xinv (left cmds : List (Nat × Nat))
  /-- the re-arrival of a REQUEUE (R83) -/
  | rearrive
deriving DecidableEq, Repr

/-- Whether a context is idle, ready to issue, or waiting. -/
inductive RunState where
  | idle
  | ready
  | wait (w : Wait)
deriving DecidableEq, Repr, Inhabited

/-- A handler context (R136, R137, R81). -/
structure Ctx where
  run    : RunState
  pc     : Addr
  g      : Vector Word 16
  v      : Vector VReg 16
  k      : Vector Word 8
  loop0  : Loop
  loop1  : Loop
  /-- level 1 was entered more recently than level 0 (R174) -/
  newer1 : Bool
  ut     : UserTrap
  fpm    : BitVec 2
  fpf    : BitVec 6
  txh    : Word
  srng   : Word
  /-- system privilege (R81) -/
  sys    : Bool
  /-- after an ending, the first cycle in which the context is idle (R83); after a dispatch, the first in which it may issue (R79) -/
  avail  : Nat
  /-- which handler of this context this is; replies to an earlier one are absorbed (R276) -/
  gen    : Nat
  /-- the landing entry of the triggering message -/
  key    : Nat
  cls    : BitVec 8
  prio   : BitVec 2
  ftag   : BitVec 12
  /-- the cycle of dispatch and the HLIMIT in force then (R80, R86) -/
  born   : Nat
  hlimit : Nat
  /-- a COMMIT has executed (R83) -/
  committed : Bool
  sends  : List Send
  /-- engine posts of this context that FENCE.ENG waits for (R128) -/
  posts  : List (Bool × Nat)
  /-- the record an MPOST or CPOST read before it waited for room (R247) -/
  held   : Option (List Word)
  /-- uncorrectable data that replies told of, for MCHECK at the next instruction: the issuing PC, the memory key and the data's address of
  each (R285) -/
  late   : List (Addr × Nat × Addr)
  /-- the instruction word issued last, which a trap report names (R278) -/
  insn   : Nat
deriving DecidableEq, Repr, Inhabited

/-! ### The Landing -/

/-- A message in the Landing or in a spill ring (R72 to R76, R277). -/
structure Entry where
  key     : Nat
  hdr     : Header
  age     : BitVec 12
  words   : List Word
  /-- flits present, by FIDX -/
  present : List (BitVec 2)
  /-- ACCEPT (R76) -/
  accept  : Nat
  /-- the first cycle in which it is eligible (R74) -/
  ready   : Nat
  /-- a refilled record whose bytes have not been read from the Gallery (R75) -/
  unread  : Bool
  /-- it holds the reserved slot (R74) -/
  golden  : Bool
  /-- TRAPS (R277) -/
  traps   : Nat
  /-- it has made its AGE report (R103) -/
  aged    : Bool
  /-- held while the Vestibule handles an XLATE (R117) -/
  hold    : Bool
  /-- the context that runs it -/
  ctx     : Option Nat
  /-- its record in the spill ring (R76) -/
  recNo   : Nat
deriving DecidableEq, Repr, Inhabited

/-- A local arrival waiting to be placed (R74, R83); `ctx` is the context a REQUEUE keeps occupied. -/
structure Arrival where
  entry : Entry
  ctx   : Option Nat
deriving DecidableEq, Repr, Inhabited

/-- The Landing (R72 to R78). `slots` are in arrival order, the head of a queue first; `spill` is in the order of R75. -/
structure Landing where
  slots : List Entry
  spill : List Entry
  again : List Arrival
  next  : Nat
  /-- a golden flit of another kind, or a waiting request, in the reserved slot (R74, R112) -/
  reserved : Option Flit
  /-- flits of a channel log that were refused as a rollback served them: local arrivals, tried again in order (R74, R316) -/
  logged : List Flit
  /-- ring sizes in records, P0 to P3 (R76) -/
  rings : List Nat
deriving DecidableEq, Repr, Inhabited

/-! ### Counters, engines, memory unit, lock client -/

/-- A counter (R87). -/
structure Counter where
  value  : Word
  target : Word
  action : Word
  armed  : Bool
deriving DecidableEq, Repr, Inhabited

/-- A pending action (R90). -/
structure Action where
  word  : Word
  cid   : Nat
  value : Word
  ftag  : BitVec 12
deriving DecidableEq, Repr, Inhabited

/-- A counter update held until the pending-action queue has room, the reply that waits for it (R90), and the completed matrix command whose
NOTIFY it is: the array's completed number, and the effects of later commands, come behind it (R239). -/
structure HeldUpdate where
  cid    : Nat
  amount : Word
  ftag   : BitVec 12
  reply  : Option Msg
  seq    : Option Nat
deriving DecidableEq, Repr, Inhabited

/-- A CADD without a result whose release covers accesses still outstanding: context `ctx`'s addition, made once requests `after` are
answered (R188, R205). -/
structure HeldAdd where
  cid    : Nat
  amount : Word
  ftag   : BitVec 12
  ctx    : Nat
  after  : List Nat
deriving DecidableEq, Repr, Inhabited

/-- The counter unit (R87 to R90). -/
structure CounterUnit where
  counters : Map Counter
  actions  : List Action
  held     : List HeldUpdate
  adds     : List HeldAdd
deriving DecidableEq, Repr, Inhabited

/-- A contiguous range of bytes at one home (R106 to R108): its package, its node there, its memory key and length, the address it was
reached by, and the virtual page it was translated through. -/
structure Piece where
  pkg  : Nat
  node : Nat
  key  : Nat
  len  : Nat
  addr : Addr
  page : Option Nat
deriving DecidableEq, Repr, Inhabited

/-- A row of a running copy command: its source and destination ranges and the scale bytes of its blocks (R242, R243). -/
structure CopyRow where
  src    : List Piece
  dst    : List Piece
  scales : List Byte
deriving DecidableEq, Repr, Inhabited

/-- The power leave of a command (R250). -/
inductive Leave where
  | notAsked | queued (since : Nat) | granted
deriving DecidableEq, Repr, Inhabited

/-- What a command that has run leaves for its completion: its code, its flags, and the accumulator bytes it writes back
(R302). -/
structure RunResult where
  code  : Nat
  flags : BitVec 6
  cells : List (Nat × List Byte)
deriving DecidableEq, Repr, Inhabited

/-- A posted engine command (R246). -/
structure Cmd where
  seq    : Nat
  record : List Word
  ftag   : BitVec 12
  /-- posted by a handler of native priority P0 (R250) -/
  p0     : Bool
  /-- a counter-posted record that failed the post checks (R246) -/
  bad    : Bool
  /-- its NOTIFY may be performed (R246) -/
  notify : Bool
  leave  : Leave
  /-- cycles spent waiting for leave (R248) -/
  waited : Nat
  /-- stopped by uncorrectable data: it never completes (R285) -/
  dead   : Bool
  /-- waits for the Vestibule to back a page; the Vestibule has declined to (R238, R244) -/
  xlate  : Bool
  denied : Bool
  /-- the rows of a copy command that has started, and the code it ends with (R244) -/
  rows   : List CopyRow
  fail   : Nat
  /-- its requests without a reply, and the source data that has arrived, by position -/
  tags   : List Nat
  got    : List (Nat × List Byte)
  result : Option RunResult
deriving DecidableEq, Repr, Inhabited

/-- The outer-product array's chain or the copy engine (R245 to R249). -/
structure Engine where
  cmds   : List Cmd
  /-- last number posted -/
  last   : Nat
  /-- completed number -/
  done   : Nat
  /-- copy commands completed above the completed number (R245) -/
  beyond : List Nat
  /-- complete matrix commands whose effects wait behind an earlier one's NOTIFY, which is held (R90, R239) -/
  ended  : List Cmd
  /-- the 64 most recent status words, newest first -/
  status : List (Nat × Word)
  errs   : BitVec 8
deriving DecidableEq, Repr, Inhabited

/-- The local end of a GET (R200): destination key and granules, counter of GET.N, and the other part of a page-crossing GET. -/
structure GetEnd where
  dst  : Nat
  grs  : List Nat
  cnt  : Option Nat
  mate : Option Nat
deriving DecidableEq, Repr, Inhabited

/-- A range of memory keys that an instruction reaches, and the address it has there. -/
structure Spot where
  key  : Nat
  len  : Nat
  addr : Addr
deriving DecidableEq, Repr, Inhabited

/-- A request awaiting its reply (R188). -/
structure Outst where
  tag  : Nat
  ctx  : Nat
  gen  : Nat
  /-- granules accessed at the remote end (R188) -/
  grs  : List Nat
  /-- the virtual pages it was translated through, for unmapping and XINV -/
  pages : List Nat
  /-- the ranges it reaches, with the address the instruction gives each: what an MCHECK reports (R275) -/
  spots : List Spot
  get  : Option GetEnd
  /-- it reads its remote end: no later write of the context is performed before it (R124) -/
  reads : Bool
  /-- the issuing PC and the identifier of the message it ran (R285) -/
  pc   : Addr
  msgid : Word
  ftag : BitVec 12
  /-- a kind-5 request -/
  lock : Bool
deriving DecidableEq, Repr, Inhabited

/-- A message not yet injected because accesses it covers are outstanding (R188). -/
structure Queued where
  msg   : Msg
  after : List Nat
deriving DecidableEq, Repr, Inhabited

/-- A waiting full/empty operation or RRESV at its home (R112, R204). -/
structure Waiter where
  op  : MemOp
  /-- the request's header, from which the reply is addressed -/
  hdr : Header
  tag : Nat
  /-- the virtual pages an operation of the tile itself was translated through -/
  pages : List Nat := []
deriving DecidableEq, Repr, Inhabited

/-- The memory unit of a tile (R17, R112, R188). -/
structure MemUnit where
  /-- requests and replies of which not every flit has arrived (R65) -/
  parts   : List Partly
  waiters : List Waiter
  out     : List Outst
  queue   : List Queued
  nextTag : Nat
deriving DecidableEq, Repr, Inhabited

/-- The states of a transaction (R257). -/
inductive TxState where
  | active | committing | wounded | revoked
deriving DecidableEq, Repr, Inhabited

/-- A transaction slot (R257): a free slot keeps its generation. -/
structure Tx where
  gen   : BitVec 8
  begun : Bool
  ts    : Word
  state : TxState
  /-- the cycle in which a wound arrived (R265) -/
  since : Nat
deriving DecidableEq, Repr, Inhabited

/-- A held-lock record (R254): the mode held (0 none yet) and the mode requested (0 none). -/
structure HeldLock where
  slot : Nat
  name : Word
  mode : BitVec 3
  want : BitVec 3
deriving DecidableEq, Repr, Inhabited

/-- A lock request awaiting its answer (R269, R270), with its transaction's key. `undo` is set when HLIMIT or an ending cancelled
it. -/
structure LockPend where
  tag    : Nat
  slot   : Nat
  ts     : Word
  handle : Word
  name   : Word
  mode   : BitVec 3
  form   : LockForm
  undo   : Bool
  /-- its home: four times the package, and the die (R253) -/
  home   : Nat
deriving DecidableEq, Repr, Inhabited

/-- The lock client of a tile (R254 to R265). -/
structure LockClient where
  txs    : Map Tx
  held   : List HeldLock
  pend   : List LockPend
  lastTs : Word
deriving DecidableEq, Repr, Inhabited

/-! ### A tile -/

/-- The tile-scope registers that are stored (R73, R80, R103, R110, R116, R138, R286, R355, R23). -/
structure TileRegs where
  jobid  : Word
  qdepth : BitVec 24
  agelim : BitVec 32
  promo  : BitVec 32
  hlimit : BitVec 32
  ctxres : BitVec 3
  pid    : BitVec 6
  accq   : BitVec 5
  asid   : BitVec 16
  xpkg   : BitVec 15
  xroot  : BitVec 30
  errCnt : BitVec 8
  errEn  : Bool
  /-- mode-2 arm of INJECT (R287) -/
  armed  : Bool
  cec    : BitVec 8
  gold   : BitVec 8
  scrdiv : BitVec 4
  scrub  : Bool
  migcnt : BitVec 8
deriving DecidableEq, Repr, Inhabited

/-- A cached translation (R118): the page's first virtual address and size, and its leaf entry. -/
structure Tlb where
  asid : BitVec 16
  base : Nat
  size : Nat
  pte  : Word
deriving DecidableEq, Repr, Inhabited

/-- A node's colour and its counts of messages sent and accepted in each colour (R296, R308). -/
structure NodeSnap where
  colour : BitVec 1
  /-- it has taken its local snapshot of the running snapshot -/
  cut    : Bool
  sent0  : Nat
  sent1  : Nat
  recv0  : Nat
  recv1  : Nat
  logOn  : Bool
deriving DecidableEq, Repr, Inhabited

/-- A tile (R17). -/
structure Tile where
  ctxs    : Vector Ctx 8
  /-- contexts in issue order (R178) -/
  rot     : List Nat
  land    : Landing
  regs    : TileRegs
  cnt     : CounterUnit
  matrix  : Engine
  copy    : Engine
  mu      : MemUnit
  locks   : LockClient
  /-- outbound queue (R198), and the flits still to be injected of messages being injected, on both planes -/
  outq    : List Queued
  outFl   : List Flit
  /-- replies and other VN1 messages to be injected -/
  vn1     : List Msg
  /-- report buffer, each with the accesses it follows (R278), and LOST (R279) -/
  reports : List Queued
  lost    : BitVec 8
  mseq    : BitVec 16
  /-- SENT and RECV per frame tag (R93) -/
  figs    : Map (Nat × Nat)
  snap    : NodeSnap
  /-- SID, uncopied blocks (R299, R303) -/
  sid     : BitVec 32
  uncop   : List Nat
  tlb     : List Tlb
  /-- frozen for a live migration (R99) -/
  frozen  : Bool
deriving DecidableEq, Repr, Inhabited

/-! ### Newel, memory node, governor -/

/-- A holder of a lock (R261). `wounded`: this lock has sent it a wound (R263). -/
structure Holder where
  ts      : Word
  handle  : Word
  mode    : BitVec 3
  wounded : Bool
deriving DecidableEq, Repr, Inhabited

/-- A waiter of a lock; `conv` marks a pending conversion (R261, R262). -/
structure LockWaiter where
  ts     : Word
  handle : Word
  mode   : BitVec 3
  conv   : Bool
  tag    : Nat
  hdr    : Header
  /-- what the grant of an LKACQM carries (R67) -/
  cls    : BitVec 8
  prio   : BitVec 2
deriving DecidableEq, Repr, Inhabited

/-- A lock entry (R253, R261). -/
structure LockEntry where
  asid    : BitVec 16
  name    : Word
  holders : List Holder
  queue   : List LockWaiter
deriving DecidableEq, Repr, Inhabited

/-- A region lease granted at its home: which package and die holds it (R120), and the number of the grant. -/
structure HomeLease where
  region   : Nat
  pkg      : Nat
  die      : Nat
  mode     : BitVec 3
  recalled : Bool
  /-- the groups whose running snapshot makes an X lease count as S (R306) -/
  shut     : List Nat
  serial   : Nat
deriving DecidableEq, Repr, Inhabited

/-- A lease request or access that waits for recalls at the home (R121, R266). -/
structure LeaseWait where
  region : Nat
  pkg    : Nat
  die    : Nat
  mode   : BitVec 3
  flit   : Flit
deriving DecidableEq, Repr, Inhabited

/-- A Newel instance (R252 to R266). -/
structure Newel where
  locks    : List LockEntry
  /-- compatibility matrix per ASID (R255) -/
  matrices : Map Word
  /-- leases this die holds, by region -/
  leases   : Map (BitVec 3)
  /-- by region, the number of the last grant answered here, and of the last one that a recall or a release has ended: the answer to that
  one may still be on its way (R121, R266) -/
  got      : Map Nat
  ended    : Map Nat
  /-- the regions whose X lease it holds as S while a snapshot runs at their home (R306) -/
  shares   : List Nat
  /-- leases granted here as the home, and the grants made so far -/
  home     : List HomeLease
  grants   : Nat
  waiting  : List LeaseWait
  /-- snapshot part per group -/
  snaps    : Map NodeSnap
  out      : List Msg
deriving DecidableEq, Repr, Inhabited

/-- The pre-image of a 64 KiB granule for one snapshot (R305): its bytes that are not zero. -/
structure PreImage where
  grp     : Nat
  sid     : Nat
  granule : Nat
  bytes   : List Host.Cell
  /-- the granule held uncorrectable data when it was to be saved (R285) -/
  lost    : Bool
deriving DecidableEq, Repr, Inhabited

/-- A die's memory node (R296, R305). -/
structure MemNode where
  snaps : Map NodeSnap
  pre   : List PreImage
  /-- granules written since the parent snapshot, with their group, and those written in the new colour of the running one (R305) -/
  dirty : List (Nat × Nat)
  fresh : List (Nat × Nat)
  out   : List Msg
  /-- the flits still to be injected of a reply being injected, and the requests of which not every flit has arrived (R65) -/
  outFl : List Flit
  parts : List Partly
deriving DecidableEq, Repr, Inhabited

/-- A request for power leave (R250, R353). -/
structure LeaveReq where
  tile   : Nat
  matrix : Bool
  seq    : Nat
  mw     : Nat
  pid    : Nat
  p0     : Bool
deriving DecidableEq, Repr, Inhabited

/-- A die's power governor (R353). -/
structure Governor where
  budget  : Nat
  held    : List LeaveReq
  fifo    : List LeaveReq
  /-- last measured die power -/
  power   : Nat
  /-- package power over its limit; die over its thermal limit -/
  above   : Bool
  hot     : Bool
deriving DecidableEq, Repr, Inhabited

/-- The DTU, Newel instance, memory node and governor of a die (R15). -/
structure Die where
  dtu   : List Tlb
  newel : Newel
  memory : MemNode
  gov   : Governor
deriving DecidableEq, Repr, Inhabited

/-! ### Fabric and links -/

/-- A flit on a torus input of a router (R341). -/
structure Transit where
  x    : Nat
  y    : Nat
  flit : Flit
deriving DecidableEq, Repr, Inhabited

/-- A forwarding entry (R18, R101): the router, the tile it forwards for, the core it sends to, and the last fabric cycle it
was used in. -/
structure Forward where
  router : Nat
  tile   : Nat
  core   : Nat
  used   : Nat
deriving DecidableEq, Repr, Inhabited

/-- STATE of a port (R350). -/
inductive PortState where
  | down | training | up | turning
deriving DecidableEq, Repr, Inhabited

/-- A Wellia port (R345 to R350). -/
structure Port where
  state   : PortState
  txl     : Nat
  rxl     : Nat
  failed  : Nat
  turns   : Nat
  peer    : Nat
  retries : Nat
  crcerr  : Nat
  flits   : Nat
  /-- lanes retired from the outgoing and incoming direction, and the cycle in which a lane of it left for recalibration (R354) -/
  lostTx  : Nat
  lostRx  : Nat
  calTx   : Option Nat
  calRx   : Option Nat
  /-- a turnaround in progress: whether lanes turn to the outgoing direction, and the cycle it began in (R349) -/
  turning : Option (Bool × Nat)
  /-- flits received; FLITS and those at the last telemetry sample; and the consecutive intervals for which the default policy would turn
  lanes to the outgoing and to the incoming direction (R349) -/
  rcvd    : Nat
  markTx  : Nat
  markRx  : Nat
  hotTx   : Nat
  hotRx   : Nat
  /-- flits waiting to be framed -/
  tx      : List Flit
  /-- room in the far end's buffer of each plane, as its credits have it (R346) -/
  credit0 : Nat
  credit1 : Nat
  /-- next frame number and frames not acknowledged: the first frame of a link is number 1 (DESIGN CHOICE, log entry 2) -/
  seq     : Nat
  unacked : List Frame
  /-- next frame number expected, and flits to be injected here -/
  expect  : Nat
  rx      : List Flit
deriving DecidableEq, Repr, Inhabited

/-- The fabric of the package (R341 to R347). -/
structure Fabric where
  vn0      : List Transit
  vn1      : List Transit
  /-- defective and retired cores known at the last reset, as (die, core) (R19) -/
  defects  : List (Nat × Nat)
  /-- cores evacuated by live migration since then: they join the retirement list (R19, R356) -/
  retired  : List (Nat × Nat)
  /-- mapping table entries that differ from R20's because of live migration: logical tile to core -/
  moved    : Map Nat
  forwards : List Forward
  /-- forwarded flits that wait to enter VN1 at a router (R101) -/
  fwd      : List (Nat × Flit)
  /-- route table entries that differ from dimension order: package to port (R347) -/
  routes   : Map Nat
  /-- packages lost (R347) -/
  lost     : List Nat
  /-- the number of the last fabric cycle run, plus 1 -/
  last     : Nat
deriving DecidableEq, Repr, Inhabited

/-! ### The Vestibule -/

/-- A declared range of R117 and R163. -/
structure Range where
  va  : Nat
  len : Nat
  x   : Bool
deriving DecidableEq, Repr, Inhabited

/-- A shared window as an image declares it (R32, R163). -/
structure Window where
  name    : List Byte
  partner : List Byte
  guest   : Bool
  rw      : Bool
  tile    : Nat
  va      : Nat
  len     : Nat
  off     : Nat
deriving DecidableEq, Repr, Inhabited

/-- A launch message record (R163). -/
structure MsgRec where
  taddr : Word
  cls   : BitVec 8
  words : List Word
deriving DecidableEq, Repr, Inhabited

/-- An active frame tag (R91, R94, R329, R330). `sent` and `recv` are the Vestibule's own figures (R93). -/
structure Tag where
  tag   : Nat
  /-- which launch of the Vestibule it is -/
  serial : Nat
  queue : Nat
  trigs : Nat
  sent  : Nat
  recv  : Nat
  sweep : Option (Nat × Nat)
deriving DecidableEq, Repr, Inhabited

/-- A resident job (R29, R91, R162). -/
structure Job where
  name     : List Byte
  jobid    : Word
  accq     : BitVec 5
  classes  : List Word
  snapCap  : Bool
  autoroll : Bool
  trapt    : Nat
  srseed   : Word
  grace    : Nat
  /-- PA of its Gallery and Gallery bytes per tile (R76) -/
  gallery  : Nat
  galleryBytes : Nat
  hostq    : List Nat
  ranges   : List Range
  windows  : List Window
  msgs     : List MsgRec
  tags     : List Tag
  lastTag  : Nat
  digest   : List Byte
  image    : List Byte
  /-- class-table entry of the service class (R335) -/
  service  : Option Nat
  lost     : Nat
  group    : Nat
  /-- its snapshot area: the PA and the bytes (R297), and the drain target (R311) -/
  areaAt   : Nat
  area     : Nat
  drain    : Nat
deriving DecidableEq, Repr, Inhabited

/-- A page in use: its 64 KiB page number, its partition, and the virtual page it backs, if any. -/
structure Page where
  num : Nat
  pid : Nat
  va  : Option Nat
deriving DecidableEq, Repr, Inhabited

/-- A partition (R27). -/
structure Partition where
  tiles   : List Nat
  pkgs    : List Nat
  asid    : BitVec 16
  quota   : Nat
  used    : Nat
  landing : Nat
  gallery : Nat
  shares  : List Nat
  /-- PA of the level-0 page table -/
  root    : Nat
  /-- the last tag a job before the resident one was given (R329) -/
  lastTag : Nat
  job     : Option Job
  sealed_ : Bool
  /-- sealed by a fault, so that a containment report is due (R289), and the cycle of the seal (R294) -/
  fault   : Bool
  sealedAt : Nat
  /-- its job is being unloaded: accesses through its windows are served to the end (R35) -/
  leaving : Bool
  /-- the renaming table: the job's number of each tile with its own, where they differ (R318) -/
  rename  : List (Nat × Nat)
  absorbed : Nat
  /-- the same of each package, and of the tiles of each other package, by package -/
  pkgNames : List (Nat × Nat) := []
  farNames : List (Nat × Nat × Nat) := []
deriving DecidableEq, Repr, Inhabited

/-- The part of a partition on another package, as that package's PARTITION made it (R27, R325): an input of this package (log entry 14). -/
structure Peer where
  pkg   : Nat
  pid   : Nat
  asid  : BitVec 16
  tiles : List Nat
deriving DecidableEq, Repr, Inhabited

/-- A packet started and not complete (R323, R324). -/
structure Packet where
  /-- its number: units consumed before it, with the generation of its queue in the bits above 32 -/
  idx   : Nat
  /-- the queue's owner and the address of its first unit, where COMPL goes -/
  owner : Nat
  addr  : Nat
  /-- its length and its bytes -/
  units : Nat
  bytes : List Byte
  done  : Bool
  /-- the tag WAITTAG waits for, or the last service message's key for INJECTERR -/
  mark  : Nat
deriving DecidableEq, Repr, Inhabited

/-- A work queue as the Vestibule knows it (R320 to R330). -/
structure Queue where
  ctl    : Nat
  base   : Nat
  units  : Nat
  /-- owner partition, 0 for the host -/
  owner  : Nat
  /-- 0 RUN, 1 HALTED, 2 DESTROYED -/
  state  : Nat
  /-- HSTAT: why it halted (R328) -/
  hstat  : Nat
  seq    : BitVec 32
  tail   : BitVec 32
  head   : BitVec 32
  /-- units of packets started -/
  start  : BitVec 32
  drops  : Nat
  /-- whether a reconcile pass has set the tail, and no doorbell has named it since (R340) -/
  passed : Bool
  pend   : List Packet
  /-- how often its number has been created anew, and the packets started before that and not complete (R328) -/
  gen    : Nat
  former : List Packet
  /-- its latest LAUNCH that allocated a tag: partition, tag and the tag's serial number -/
  launch : Option (Nat × Nat × Nat)
deriving DecidableEq, Repr, Inhabited

/-- The states of a snapshot (R298). -/
inductive SnapState where
  | running | complete | drained | abandoned | failed
deriving DecidableEq, Repr, Inhabited

/-- A logged message: its place among the records of the group, the cycle of acceptance, and its flits (R304). -/
structure LogRec where
  num    : Nat
  accept : Nat
  flits  : List Flit
deriving DecidableEq, Repr, Inhabited

/-- The image of a tile: its state and the bytes and empty granules of its pool (R301, R303). -/
structure TileImage where
  tile  : Nat
  /-- the cycle of capture -/
  cycle : Nat
  state : Tile
  bytes : List Host.Cell
  empty : List Nat
deriving DecidableEq, Repr, Inhabited

/-- The image of a Newel instance for a group (R307). -/
structure NewelImage where
  die      : Nat
  locks    : List LockEntry
  matrices : Map Word
  /-- what the instance has still to inject, and the accesses and lease requests that wait for recalls -/
  out      : List Msg
  waiting  : List LeaseWait
deriving DecidableEq, Repr, Inhabited

/-- A snapshot of a group (R297 to R313). -/
structure Snapshot where
  sid     : Nat
  state   : SnapState
  parent  : Nat
  colour  : BitVec 1
  /-- system time and cycle of the first local snapshot -/
  time    : Nat
  tiles   : List TileImage
  newels  : List NewelImage
  /-- jobs of the group as the Vestibule held them: partition id, its HBM used, and the job -/
  jobs    : List (Nat × Nat × Job)
  /-- the group's own work queues, and the messages the Vestibule had still to inject -/
  queues  : List (Nat × Queue)
  outs    : List Msg
  /-- channel logs by node number -/
  logs    : List (Nat × LogRec)
  /-- reported figures by node: OSENT and ORECV (R308) -/
  figures : Map (Nat × Nat)
  /-- the channel logs are closed (R308) -/
  closed  : Bool
  /-- pages of the group at the cut, and the granule list: those whose contents differ from the parent's (R311) -/
  pages   : List Page
  granules : List Nat
  /-- the drain target, and what it holds: the manifest and the full image (R311, R312) -/
  target  : Nat
  manifest : List Byte
  full    : List Host.Cell
  /-- the host packet that asked for it: queue and packet -/
  asked   : Option (Nat × Nat)
  /-- the node that cuts first once a live migration of the group has ended (R102) -/
  start   : Option Nat
deriving DecidableEq, Repr, Inhabited

/-- One message of the ingress replay log (R307). -/
structure Ingress where
  /-- the partition it is for, and the work queue and serial number of a LAUNCH, from which a tag allocated since the cut is made again -/
  pid   : Nat
  queue : Nat
  serial : Nat
  hdr   : Header
  words : List Word
deriving DecidableEq, Repr, Inhabited

/-- A snapshot group (R295 to R297). -/
structure Group where
  id       : Nat
  lastId   : Nat
  colour   : BitVec 1
  snaps    : List Snapshot
  /-- states of snapshots no longer held -/
  past     : List (Nat × SnapState)
  rcount   : Nat
  rsid     : Nat
  replay   : List Ingress
  logging  : Bool
  /-- channel-log records written so far (R304) -/
  logged   : Nat
  /-- the Vestibule's own node figures -/
  node     : NodeSnap
  /-- memory nodes of the group (R296) -/
  dies     : List Nat
deriving DecidableEq, Repr, Inhabited

/-- A park record (R315). -/
structure Park where
  id    : Nat
  group : Group
  snap  : Snapshot
  jobs  : List Job
  /-- each job's packages, rising, with the tiles it had on each (R314) -/
  shapes : List (List (Nat × List Nat))
deriving DecidableEq, Repr, Inhabited

/-- A containment report (R289): what sealed the partition, where, the trap record of an MCHECK, and the absorbed flits. -/
structure Containment where
  pid      : Nat
  cause    : Nat
  place    : Nat
  record   : List Word
  absorbed : Nat
deriving DecidableEq, Repr, Inhabited

/-- An XLATE waiting for the Vestibule (R117): a handler's, or an engine command's. -/
structure XlateReq where
  tile   : Nat
  va     : Addr
  write  : Bool
  /-- the landing entry held, or none after a COMMIT and for an engine -/
  key    : Option Nat
  /-- the trap report to send if the page is not backed, with its context number and the accesses it follows (R278) -/
  report : Option (Nat × List Word)
  after  : List Nat
  /-- an engine command: matrix or copy, and its number -/
  engine : Option (Bool × Nat)
  ftag   : BitVec 12
deriving DecidableEq, Repr, Inhabited

/-- A rollback in progress (R316). -/
structure Rollback where
  group  : Nat
  sid    : Nat
  remote : Bool
  step   : Nat
  asked  : Option (Nat × Nat)
deriving DecidableEq, Repr, Inhabited

/-- A live migration (R99): phase 0 waits to begin, then freeze, stream, remap; `log` is the freeze log. -/
structure Migration where
  tile  : Nat
  core  : Nat
  phase : Nat
  log   : List Flit
  asked : Option (Nat × Nat)
deriving DecidableEq, Repr, Inhabited

/-- The Vestibule (R320 to R340). -/
structure Vestibule where
  parts   : Map Partition
  /-- partitions on other packages (R27) -/
  peers   : List Peer
  queues  : Map Queue
  groups  : List Group
  parks   : List Park
  pages   : List Page
  xlates  : List XlateReq
  seals   : List Containment
  reports : List Containment
  rolls   : List Rollback
  migs    : List Migration
  /-- doorbell tokens waiting (R334): queue numbers with the word written -/
  tokens  : List (Nat × Word)
  /-- timers whose tokens wait for room: reconcile passes (true) of queues, and sweeps of partitions -/
  timers  : List (Bool × Nat)
  mseq    : BitVec 16
  out     : List Msg
  /-- the flits still to be injected of a message being injected -/
  outFl   : List Flit
  /-- records of traps in system handlers (R280) -/
  sysTraps : List (List Word)
  nextId  : Nat
deriving DecidableEq, Repr, Inhabited

/-! ### The host adapter -/

/-- A host egress ring (R333): its capacity in records and the records written, each 288 bytes as words. -/
structure EgressRing where
  size : Nat
  recs : List (List Word)
deriving DecidableEq, Repr, Inhabited

/-- The host adapter (R21, R332, R333, R337, R350, R351, R354, R356). -/
structure Adapter where
  /-- the reset step reached (R356), READY and BOOTFAIL -/
  step     : Nat
  ready    : Bool
  bootfail : Bool
  /-- the firmware image booted at a device reset; none where State.reset's own firmware runs (R337) -/
  firmware : Option (List Byte)
  /-- DEGRADED: the number of absent tiles on each die, where there are any (R21) -/
  degraded : List Nat
  /-- the loss of the host link has been reported (R351) -/
  bridgeLost : Bool
  /-- drop counts of the ingress mailboxes -/
  drops    : Map Nat
  egress   : Map EgressRing
  /-- messages for the host, whole or arriving, at the bridge -/
  inbox    : List Entry
  /-- last telemetry sample: die powers and temperatures, and the cycle -/
  power    : List Nat
  temp     : List Nat
  sampled  : Nat
  /-- and, of that sample, the counts of deflections, golden flits, scrubs and soft errors, and the ports' 32-byte records (R350) -/
  counts   : List Nat
  records  : List (List Byte)
  /-- deflections and golden flits counted, and soft errors and scrubs (R354) -/
  deflected : Nat
  goldens  : Nat
  softErrs : Nat
  scrubs   : Nat
  /-- uncorrectable locations logged by scrubs (R285) -/
  scrubLog : List Nat
deriving DecidableEq, Repr, Inhabited

/-! ### The package -/

/-- The state of one package. Memory is one list: HBM at its PA, and the pool of tile t at `poolBase t`. -/
structure State where
  /-- the tile and context an instruction acts for; an event names its own -/
  tile    : Nat
  ctx     : Nat
  /-- core cycles since device reset (R331) -/
  cycle   : Nat
  /-- internal events and tiles already given their turn in this cycle (log entry 4) -/
  evPos   : Nat
  issued  : Nat
  /-- events placed by the environment or a schedule, run before anything else (log entry 4) -/
  agenda  : List Instr
  /-- package number -/
  pkg     : Nat
  /-- system time in nanoseconds at cycle 0 (R331, log entry 3) -/
  time0   : Nat
  /-- whether the package has power (R357) -/
  power   : Bool
  mem     : List Host.Cell
  /-- granules whose FULL bit is 0, by granule number (R111) -/
  empty   : List Nat
  /-- locations marked uncorrectable: first byte and size 16 or 64 (R285) -/
  bad     : List (Nat × Nat)
  tiles   : Map Tile
  dies    : Vector Die 4
  fabric  : Fabric
  ports   : Vector Port 7
  vest    : Vestibule
  host    : Adapter
deriving DecidableEq, Repr

/-! ### Why a step can stop -/

/-- Why the machine stops with a fault. -/
inductive Fault where
  /-- Raised by `step` for every step but DEVICE_RESET while the package has no power (R357). Safe: such a package keeps no
  state and does nothing. -/
  | noPower
deriving DecidableEq, Repr

/-- Why a step is refused. -/
inductive Refusal where
  /-- Raised by `exec` for an instruction without a meaning. Safe: nothing is claimed of it. No arm uses it. -/
  | notModelled (mnemonic : String)
deriving DecidableEq, Repr

/-! ### Reset -/

/-- A loop level at reset and at dispatch (R172, R81). -/
def Loop.reset : Loop := { act := false, count := 0, lb := 0, le := 0 }

/-- The user-trap registers at reset and at dispatch (R282, R81). -/
def UserTrap.reset : UserTrap := { vec := 0, pc := 0, act := false, ucode := 0, cause := 0, addr := 0 }

/-- A context after reset: idle (R78). Log entry 1 names the values the spec does not give. -/
def Ctx.reset : Ctx :=
  { run := .idle, pc := 0, g := .replicate 16 0, v := .replicate 16 0, k := .replicate 8 0,
    loop0 := .reset, loop1 := .reset, newer1 := false, ut := .reset, fpm := 0, fpf := 0, txh := 0, srng := 1,
    sys := false, avail := 0, gen := 0, key := 0, cls := 0, prio := 0, ftag := 0, born := 0, hlimit := 0, committed := false,
    sends := [], posts := [], held := none, late := [], insn := 0 }

/-- An engine at reset and at job load (R246, R248, R249). -/
def Engine.reset : Engine := { cmds := [], last := 0, done := 0, beyond := [], ended := [], status := [], errs := 0 }

/-- A node's snapshot part at reset and at job load (R296, R299). -/
def NodeSnap.reset : NodeSnap :=
  { colour := 0, cut := false, sent0 := 0, sent1 := 0, recv0 := 0, recv1 := 0, logOn := false }

/-- The tile registers after reset (R355: SCRDIV 4, SCRUB 1; the rest 0; those set at job load by log entry 1). -/
def TileRegs.reset : TileRegs :=
  { jobid := 0, qdepth := 0, agelim := 0, promo := 0, hlimit := 0, ctxres := 0, pid := 0, accq := 0, asid := 0,
    xpkg := 0, xroot := 0, errCnt := 0, errEn := false, armed := false, cec := 0, gold := 0, scrdiv := 4, scrub := true,
    migcnt := 0 }

/-- A tile after reset (R356 step 4). -/
def Tile.reset : Tile :=
  { ctxs := .replicate 8 .reset, rot := [0, 1, 2, 3, 4, 5, 6, 7],
    land := { slots := [], spill := [], again := [], next := 0, reserved := none, logged := [], rings := [0, 0, 0, 0] },
    regs := .reset, cnt := { counters := [], actions := [], held := [], adds := [] }, matrix := .reset, copy := .reset,
    mu := { parts := [], waiters := [], out := [], queue := [], nextTag := 0 },
    locks := { txs := [], held := [], pend := [], lastTs := 0 },
    outq := [], outFl := [], vn1 := [], reports := [], lost := 0, mseq := 0, figs := [], snap := .reset, sid := 0,
    uncop := [], tlb := [], frozen := false }

/-- A die after reset (R353, R356). -/
def Die.reset : Die :=
  { dtu := [],
    newel := { locks := [], matrices := [], leases := [], got := [], ended := [], shares := [], home := [],
               grants := 0, waiting := [], snaps := [], out := [] },
    memory := { snaps := [], pre := [], dirty := [], fresh := [], out := [], outFl := [], parts := [] },
    gov := { budget := Config.leaveBudgetMw, held := [], fifo := [], power := 0, above := false, hot := false } }

/-- A port after reset, before its link is trained (R345, R350; log entry 2). -/
def Port.reset : Port :=
  { state := .down, txl := 32, rxl := 32, failed := 0, turns := 0, peer := 0xFFFF, retries := 0, crcerr := 0, flits := 0,
    lostTx := 0, lostRx := 0, calTx := none, calRx := none, turning := none, rcvd := 0, markTx := 0, markRx := 0, hotTx := 0,
    hotRx := 0, tx := [], credit0 := Config.portRoom, credit1 := Config.portRoom, seq := 1, unacked := [], expect := 1, rx := [] }

/-- The bridge port after reset: trained with 32 lanes in each direction, with the host adapter at its far end (R351, R356; log entry 2). -/
def Port.bridge : Port := { Port.reset with state := .up, peer := Config.hostPackage }

/-- Queue 0 as the firmware creates it for the host (R320, R356 step 7; log entry 7). -/
def Queue.reset : Queue :=
  { ctl := Config.queue0Ctl, base := Config.queue0Ring, units := Config.queue0Units, owner := 0, state := 0, hstat := 0, seq := 0,
    tail := 0, head := 0, start := 0, drops := 0, passed := false, pend := [], gen := 0, former := [], launch := none }

/-- The Vestibule after reset: queue 0 and nothing else (R356). -/
def Vestibule.reset : Vestibule :=
  { parts := [], peers := [], queues := [(0, .reset)], groups := [], parks := [], pages := [], xlates := [], seals := [], reports := [],
    rolls := [], migs := [], tokens := [], timers := [], mseq := 0, out := [], outFl := [], sysTraps := [], nextId := 1 }

/-- The fabric after reset: no flit, the mapping of R20, dimension-order routes (R347). -/
def Fabric.reset : Fabric :=
  { vn0 := [], vn1 := [], defects := [], retired := [], moved := [], forwards := [], fwd := [], routes := [], lost := [], last := 0 }

/-- The host adapter after reset: READY (R356). -/
def Adapter.reset : Adapter :=
  { step := 7, ready := true, bootfail := false, firmware := none, degraded := [], bridgeLost := false, drops := [], egress := [], inbox := [],
    power := [], temp := [],
    sampled := 0, counts := [], records := [], deflected := 0, goldens := 0, softErrs := 0, scrubs := 0, scrubLog := [] }

/-- HBM after reset: zero but for the words of queue 0's control block that its creator, the firmware, writes: BASE 0x2000 in word 4 and
NUNITS 256 in word 5 (R320, R356; log entry 7). -/
def resetMem : List Host.Cell := [(Config.queue0Ctl + 0x21, 0x20), (Config.queue0Ctl + 0x29, 0x01)]

/-- The package right after reset (R356): memory zero but for queue 0's control block, every granule full, no job, no partition, every
context idle. -/
def State.reset : State :=
  { tile := 0, ctx := 0, cycle := 0, evPos := 0, issued := 0, agenda := [], pkg := 0, time0 := 0, power := true,
    mem := resetMem, empty := [], bad := [], tiles := [], dies := .replicate 4 .reset, fabric := .reset,
    ports := (Vector.replicate 7 Port.reset).set 0 .bridge, vest := .reset, host := .reset }

end Sys2Proof.Machine
end

