-- ==== Sys2Proof/Machine/Lookup.lean ====
section
/-! DEFINITION. Sparse data, the reads of memory and of uncorrectable marks, and the lookups of tiles, contexts, dies and partitions. Memory
is one list of nonzero bytes in rising address order; an unlisted address reads zero (R356). -/

namespace Sys2Proof.Machine

/-! ### Sparse data -/

/-- The entry of number `k`. -/
def mget {α : Type} : Map α → Nat → Option α
  | [], _ => none
  | (j, x) :: m, k => if k = j then some x else if k < j then none else mget m k

/-- The data with entry `k` set. -/
def mput {α : Type} : Map α → Nat → α → Map α
  | [], k, v => [(k, v)]
  | (j, x) :: m, k, v =>
    if k = j then (k, v) :: m else if k < j then (k, v) :: (j, x) :: m else (j, x) :: mput m k v

/-- The data without entry `k`. -/
def mdel {α : Type} (m : Map α) (k : Nat) : Map α := m.filter fun e => e.1 != k

/-- A rising list of numbers with `k` in it. -/
def ins : List Nat → Nat → List Nat
  | [], k => [k]
  | j :: l, k => if k = j then j :: l else if k < j then k :: j :: l else j :: ins l k

/-- Replaces each element that meets `p`. -/
def updateWhere {α : Type} (l : List α) (p : α → Bool) (f : α → α) : List α :=
  l.map fun x => if p x then f x else x

/-! ### Bytes -/

/-- The value of bytes, the first the least significant (R9). -/
def leNat : List Byte → Nat
  | [] => 0
  | b :: bs => b.toNat + 256 * leNat bs

/-- The `n` low bytes of a value, the least significant first (R9). -/
def leBytes : Nat → Nat → List Byte
  | 0, _ => []
  | n + 1, v => BitVec.ofNat 8 v :: leBytes n (v / 256)

/-- The 64-bit words of bytes. -/
def wordsOf : Nat → List Byte → List Word
  | 0, _ => []
  | n + 1, bs => BitVec.ofNat 64 (leNat (bs.take 8)) :: wordsOf n (bs.drop 8)

/-- The bytes of 64-bit words. -/
def bytesOf (ws : List Word) : List Byte := ws.flatMap fun w => leBytes 8 w.toNat

/-! ### Memory -/

/-- The byte at an address: zero where none is listed (R356 steps 3 and 4). -/
def memGet : List Host.Cell → Nat → Byte
  | [], _ => 0
  | (j, b) :: m, k => if k = j then b else if k < j then 0 else memGet m k

/-- Memory with one byte written, in canonical form: a zero byte is not listed. -/
def memSet : List Host.Cell → Nat → Byte → List Host.Cell
  | [], k, v => if v = 0 then [] else [(k, v)]
  | (j, b) :: m, k, v =>
    if k = j then (if v = 0 then m else (k, v) :: m)
    else if k < j then (if v = 0 then (j, b) :: m else (k, v) :: (j, b) :: m)
    else (j, b) :: memSet m k v

/-- Canonical form above an address: addresses strictly rising, no zero byte listed. -/
def memWfAbove : Nat → List Host.Cell → Bool
  | _, [] => true
  | lo, (j, b) :: m => lo ≤ j && b != 0 && memWfAbove (j + 1) m

/-- The canonical form of memory. -/
def memWf (m : List Host.Cell) : Bool := memWfAbove 0 m

/-- `n` bytes from an address upward. -/
def memRead (m : List Host.Cell) (k : Nat) : Nat → List Byte
  | 0 => []
  | n + 1 => memGet m k :: memRead m (k + 1) n

/-- Memory with bytes written from an address upward. -/
def memWrite (m : List Host.Cell) (k : Nat) : List Byte → List Host.Cell
  | [] => m
  | b :: bs => memWrite (memSet m k b) (k + 1) bs

/-- The listed cells of an address range. -/
def memSlice (m : List Host.Cell) (lo hi : Nat) : List Host.Cell :=
  m.filter fun c => lo ≤ c.1 && c.1 < hi

/-- Memory with cells written one after the other. -/
def memFill (m : List Host.Cell) (cells : List Host.Cell) : List Host.Cell := cells.foldl (fun m c => memSet m c.1 c.2) m

/-- Memory with a range replaced by the cells given; those outside it are dropped. -/
def memReplace (m : List Host.Cell) (lo hi : Nat) (cells : List Host.Cell) : List Host.Cell :=
  memFill (m.filter fun c => c.1 < lo || hi ≤ c.1) (memSlice cells lo hi)

/-- Memory with a range zeroed. -/
def memZero (m : List Host.Cell) (lo hi : Nat) : List Host.Cell := memReplace m lo hi []

/-! ### The address space of the model -/

/-- Where the pool of logical tile t lies in the model's memory: bit 55, as in tile space (R106). -/
def poolBase (t : Nat) : Nat := 0x80000000000000 + t * 0x10000000

/-- The logical tile whose pool holds an address, if it is a pool address. -/
def poolTile (k : Nat) : Option Nat :=
  if k < 0x80000000000000 then none else some ((k - 0x80000000000000) / 0x10000000)

/-- The 16-byte granule of an address (R111). -/
def granule (k : Nat) : Nat := k / 16

/-- The granules of a byte range. -/
def granules (k n : Nat) : List Nat :=
  (List.range ((k + n + 15) / 16 - k / 16)).map fun i => k / 16 + i

/-- The home die of an HBM address (R108). -/
def homeDie (pa : Nat) : Nat := pa / Config.hbmPerDie

/-! ### Lookups -/

/-- The logical tile's state; a tile nothing has touched is as reset left it. -/
def State.getTile (s : State) (t : Nat) : Tile := (mget s.tiles t).getD Tile.reset

/-- The state with a tile replaced. -/
def State.setTile (s : State) (t : Nat) (x : Tile) : State := { s with tiles := mput s.tiles t x }

/-- The state with a tile changed. -/
def State.modTile (s : State) (t : Nat) (f : Tile → Tile) : State := s.setTile t (f (s.getTile t))

/-- A context of a tile; the number is taken modulo 8. -/
def Tile.getCtx (x : Tile) (c : Nat) : Ctx := x.ctxs[c % 8]'(Nat.mod_lt _ (by decide))

/-- A tile with a context replaced. -/
def Tile.setCtx (x : Tile) (c : Nat) (k : Ctx) : Tile :=
  { x with ctxs := x.ctxs.set (c % 8) k (Nat.mod_lt _ (by decide)) }

/-- A context. -/
def State.getCtx (s : State) (t c : Nat) : Ctx := (s.getTile t).getCtx c

/-- The state with a context replaced. -/
def State.setCtx (s : State) (t c : Nat) (k : Ctx) : State := s.modTile t fun x => x.setCtx c k

/-- The state with a context changed. -/
def State.modCtx (s : State) (t c : Nat) (f : Ctx → Ctx) : State := s.setCtx t c (f (s.getCtx t c))

/-- The executing tile. -/
def State.me (s : State) : Tile := s.getTile s.tile

/-- The executing context. -/
def State.cur (s : State) : Ctx := s.getCtx s.tile s.ctx

/-- The state with the executing context changed. -/
def State.modCur (s : State) (f : Ctx → Ctx) : State := s.modCtx s.tile s.ctx f

/-- The state with the executing tile changed. -/
def State.modMe (s : State) (f : Tile → Tile) : State := s.modTile s.tile f

/-- A die; the number is taken modulo 4. -/
def State.getDie (s : State) (d : Nat) : Die := s.dies[d % 4]'(Nat.mod_lt _ (by decide))

/-- The state with a die changed. -/
def State.modDie (s : State) (d : Nat) (f : Die → Die) : State :=
  { s with dies := s.dies.set (d % 4) (f (s.getDie d)) (Nat.mod_lt _ (by decide)) }

/-- The state with a die's Newel instance changed. -/
def State.modNewel (s : State) (d : Nat) (f : Newel → Newel) : State :=
  s.modDie d fun x => { x with newel := f x.newel }

/-- The state with a die's memory node changed. -/
def State.modMemory (s : State) (d : Nat) (f : MemNode → MemNode) : State :=
  s.modDie d fun x => { x with memory := f x.memory }

/-- A port; the number is taken modulo 7. -/
def State.getPort (s : State) (p : Nat) : Port := s.ports[p % 7]'(Nat.mod_lt _ (by decide))

/-- The state with a port changed. -/
def State.modPort (s : State) (p : Nat) (f : Port → Port) : State :=
  { s with ports := s.ports.set (p % 7) (f (s.getPort p)) (Nat.mod_lt _ (by decide)) }

/-- The die of a logical tile (R20). -/
def dieOfTile (t : Nat) : Nat := t / Config.tilesPerDie

/-- A partition by id. -/
def State.part (s : State) (pid : Nat) : Option Partition := mget s.vest.parts pid

/-- The state with the Vestibule changed. -/
def State.modVest (s : State) (f : Vestibule → Vestibule) : State := { s with vest := f s.vest }

/-- The state with a partition changed, if there is one. -/
def State.modPart (s : State) (pid : Nat) (f : Partition → Partition) : State :=
  match s.part pid with
  | some p => s.modVest fun v => { v with parts := mput v.parts pid (f p) }
  | none => s

/-- The state with a partition's job changed, if there is one. -/
def State.modJob (s : State) (pid : Nat) (f : Job → Job) : State :=
  s.modPart pid fun p => { p with job := p.job.map f }

/-- The partition a logical tile belongs to (R28): its id and the partition. -/
def State.partOf (s : State) (t : Nat) : Option (Nat × Partition) :=
  s.vest.parts.find? fun e => e.2.tiles.contains t

/-- The virtual pages through which a running copy command's rows were translated. -/
def Cmd.pages (k : Cmd) : List Nat := k.rows.flatMap fun r => (r.src ++ r.dst).filterMap (·.page)

/-- The partition a tile of any package belongs to: on another package, as that package's PARTITION made it (R27). -/
def State.partAt (s : State) (pkg t : Nat) : Option (Nat × Partition) :=
  if pkg = s.pkg then s.partOf t
  else (s.vest.peers.find? fun q => q.pkg == pkg && q.tiles.contains t).bind fun q => s.vest.parts.find? fun e => e.2.asid == q.asid

/-- The job resident in the partition of a tile (R29). -/
def State.jobOf (s : State) (t : Nat) : Option Job := (s.partOf t).bind fun e => e.2.job

/-- A job's number through a renaming table (R318): the number itself where there is no table; one that it does not list is `other`, which
names nothing. -/
def renamed (l : List (Nat × Nat)) (other n : Nat) : Nat :=
  if l = [] then n
  else
    match l.find? (·.1 == n) with
    | some e => e.2
    | none => other

/-- The job's number for a number (R318). -/
def unrenamed (l : List (Nat × Nat)) (t : Nat) : Nat :=
  match l.find? (·.2 == t) with
  | some e => e.1
  | none => t

/-- The tile of a partition on this package that a job calls `n`, and what the job calls a tile of it (R318). -/
def Partition.realTile (p : Partition) (n : Nat) : Nat := renamed p.rename 0xFFF n
def Partition.jobTile (p : Partition) (t : Nat) : Nat := unrenamed p.rename t

/-- The same of packages: 0x7FFD names none (R22). -/
def Partition.realPkg (p : Partition) (n : Nat) : Nat := renamed p.pkgNames 0x7FFD n
def Partition.jobPkg (p : Partition) (n : Nat) : Nat := unrenamed p.pkgNames n

/-- The renaming table of a package's tiles. -/
def Partition.namesOn (p : Partition) (own pkg : Nat) : List (Nat × Nat) :=
  if pkg = own then p.rename else (p.farNames.filter (·.1 == pkg)).map (·.2)

/-- The package a package field names: 0x7FFE is the own one (R22). -/
def State.pkgOf (s : State) (p : Nat) : Nat := if p = Config.thisPackage then s.pkg else p

/-- The package that a field of a job's word names, and the tile of a package that the job calls `n` (R318). -/
def State.partPkg (s : State) (p : Partition) (n : Nat) : Nat :=
  if n = Config.thisPackage then s.pkg else if n = Config.hostPackage then n else p.realPkg n
def State.partTile (s : State) (p : Partition) (pkg n : Nat) : Nat := renamed (p.namesOn s.pkg pkg) 0xFFF n

/-- The tile that a number in a word means for tile `me`: 0xFFF is the tile itself (R22, R318). -/
def State.realTile (s : State) (me n : Nat) : Nat :=
  if n = 0xFFF then me
  else
    match s.partOf me with
    | some (_, p) => p.realTile n
    | none => n

/-- What a tile's job calls the tile. -/
def State.jobTile (s : State) (t : Nat) : Nat :=
  match s.partOf t with
  | some (_, p) => p.jobTile t
  | none => t

/-- The package that a field of a word of tile `me` names (R22, R318). -/
def State.pkgOn (s : State) (me n : Nat) : Nat :=
  match s.partOf me with
  | some (_, p) => s.partPkg p n
  | none => s.pkgOf n

/-- What a tile's job calls a package. -/
def State.jobPkg (s : State) (t n : Nat) : Nat :=
  match s.partOf t with
  | some (_, p) => p.jobPkg n
  | none => n

/-- A header as the job of tile `t` reads it (R318). -/
def State.jobHeader (s : State) (t : Nat) (h : Header) : Header :=
  match s.partOf t with
  | some (_, p) =>
    { h with dpkg := BitVec.ofNat 15 (p.jobPkg h.dpkg.toNat), dtile := BitVec.ofNat 12 (p.jobTile h.dtile.toNat)
             spkg := BitVec.ofNat 15 (p.jobPkg h.spkg.toNat)
             stile := BitVec.ofNat 12 (unrenamed (p.namesOn s.pkg h.spkg.toNat) h.stile.toNat) }
  | none => h

/-- Whether the partition of a tile is sealed (R289). -/
def State.sealedTile (s : State) (t : Nat) : Bool :=
  match s.partOf t with
  | some (_, p) => p.sealed_
  | none => false

/-- The pool bytes below the accumulator storage: the scratchpad's size (R110). -/
def scratchBytes (accq : BitVec 5) : Nat := Config.poolBytes - accq.toNat * 0x8000

/-- The scratchpad size of a tile. -/
def State.scratch (s : State) (t : Nat) : Nat := scratchBytes (s.getTile t).regs.accq

/-! ### Reads and writes of bytes -/

/-- One byte of memory. -/
def State.byteAt (s : State) (k : Nat) : Byte := memGet s.mem k

/-- `n` bytes of memory. -/
def State.read (s : State) (k n : Nat) : List Byte := memRead s.mem k n

/-- The little-endian value of `n` bytes of memory (R189). -/
def State.readNat (s : State) (k n : Nat) : Nat := leNat (s.read k n)

/-- MEM64 of R13. -/
def State.read64 (s : State) (k : Nat) : Word := BitVec.ofNat 64 (s.readNat k 8)

/-- A write that covers a whole uncorrectable granule or line clears its mark (R285). -/
def clearBad (bad : List (Nat × Nat)) (k n : Nat) : List (Nat × Nat) :=
  bad.filter fun b => !(k ≤ b.1 && b.1 + b.2 ≤ k + n)

/-! ### Queued messages -/

/-- The request tag of a queued message. -/
def Queued.tag? (q : Queued) : Option Nat :=
  match q.msg.body with
  | .request tag _ => some tag
  | .lock r => some r.tag
  | _ => none

/-! ### Uncorrectable marks -/

/-- The first uncorrectable location a read of a byte range meets (R285). -/
def State.badIn (s : State) (k n : Nat) : Option Nat :=
  (s.bad.find? fun b => b.1 < k + n && k < b.1 + b.2).map (·.1)

/-- The first uncorrectable location a write meets without covering it whole (R285). -/
def State.badPartly (s : State) (k n : Nat) : Option Nat :=
  (s.bad.find? fun b => b.1 < k + n && k < b.1 + b.2 && !(k ≤ b.1 && b.1 + b.2 ≤ k + n)).map (·.1)

/-- Marks a location uncorrectable (R285, R287). -/
def State.markBad (s : State) (k size : Nat) : State :=
  if s.bad.contains (k, size) then s else { s with bad := s.bad ++ [(k, size)] }

end Sys2Proof.Machine
end

