-- ==== Sys2Proof/Machine/Nodes.lean ====
section
/-! DEFINITION. Snapshot groups and their nodes, the snapshot area, the end of a snapshot that fails, and the sealing of partitions
(spec/ 21 R288, R289; 23 R295 to R297, R306, R308, R309). -/

namespace Sys2Proof.Machine

/-! ### Groups -/

/-- A snapshot group. -/
def State.group (s : State) (gid : Nat) : Option Group := s.vest.groups.find? (·.id == gid)

/-- The state with a group changed. -/
def State.modGroup (s : State) (gid : Nat) (f : Group → Group) : State :=
  s.modVest fun v => { v with groups := updateWhere v.groups (·.id == gid) f }

/-- The partitions of a group. -/
def State.groupParts (s : State) (gid : Nat) : List (Nat × Partition) :=
  s.vest.parts.filter fun e => match e.2.job with
    | some j => j.group == gid
    | none => false

/-- The tiles of a group on this package, in rising order. -/
def State.groupTiles (s : State) (gid : Nat) : List Nat :=
  (s.groupParts gid).foldl (fun l e => e.2.tiles.foldl ins l) []

/-- The group of a tile's job. -/
def State.groupOfTile (s : State) (t : Nat) : Option Nat := (s.jobOf t).map (·.group)

/-- The partition that holds a page, and so its group. -/
def State.groupOfPage (s : State) (pa : Nat) : Option Nat :=
  match s.vest.pages.find? fun p => p.num == pa / 0x10000 && p.va.isSome with
  | some p => ((s.part p.pid).bind (·.job)).map (·.group)
  | none => none

/-- The running snapshot of a group (R297). -/
def Group.running (g : Group) : Option Snapshot := g.snaps.find? (·.state == .running)

/-- The group with its running snapshot changed. -/
def Group.modRunning (g : Group) (f : Snapshot → Snapshot) : Group :=
  { g with snaps := updateWhere g.snaps (·.state == .running) f }

/-- Whether a group has a running snapshot. -/
def State.snapping (s : State) (gid : Nat) : Bool :=
  match s.group gid with
  | some g => g.running.isSome
  | none => false

/-! ### Nodes (R296) -/

/-- Which die's Newel instance or memory node a node number names (R67, R313). -/
def newelDie (n : Nat) : Option Nat := if 0xF00 ≤ n ∧ n < 0xF04 then some (n - 0xF00) else none
def memoryDie (n : Nat) : Option Nat := if 0xF80 ≤ n ∧ n < 0xF84 then some (n - 0xF80) else none

/-- A node's snapshot part for a group. -/
def State.nodeSnap (s : State) (gid n : Nat) : NodeSnap :=
  if n < Config.tiles then (s.getTile n).snap
  else
    match newelDie n, memoryDie n with
    | some d, _ => (mget (s.getDie d).newel.snaps gid).getD .reset
    | none, some d => (mget (s.getDie d).memory.snaps gid).getD .reset
    | none, none => match s.group gid with
      | some g => g.node
      | none => .reset

/-- The state with a node's snapshot part replaced. -/
def State.setNodeSnap (s : State) (gid n : Nat) (x : NodeSnap) : State :=
  if n < Config.tiles then s.modTile n fun t => { t with snap := x }
  else
    match newelDie n, memoryDie n with
    | some d, _ => s.modNewel d fun w => { w with snaps := mput w.snaps gid x }
    | none, some d => s.modMemory d fun m => { m with snaps := mput m.snaps gid x }
    | none, none => s.modGroup gid fun g => { g with node := x }

/-- The stateful nodes of a group on this package (R296). -/
def State.groupNodes (s : State) (gid : Nat) : List Nat :=
  s.groupTiles gid ++ [0, 1, 2, 3].map Config.newelNode
    ++ (match s.group gid with
        | some g => g.dies.map Config.memoryNode
        | none => []) ++ [Config.vestibuleNode]

/-! ### What is on its way -/

/-- The group of the job of a tile on any package. -/
def State.groupAt (s : State) (pkg t : Nat) : Option Nat := ((s.partAt pkg t).bind (·.2.job)).map (·.group)

/-- Whether a flit belongs to a group: it comes from or goes to one of its tiles, here or on another package. -/
def State.flitOf (s : State) (gid : Nat) (h : Header) : Bool :=
  s.groupAt h.spkg.toNat h.stile.toNat == some gid || s.groupAt h.dpkg.toNat h.dtile.toNat == some gid

/-- Every flit on its way, those on the host link among them. -/
def State.flying (s : State) : List Flit :=
  s.fabric.vn0.map (·.flit) ++ s.fabric.vn1.map (·.flit) ++ s.fabric.fwd.map (·.2) ++ (s.tiles.flatMap fun e => e.2.outFl)
    ++ (s.dies.toList.flatMap fun d => d.memory.outFl) ++ s.vest.outFl ++ (s.ports.toList.flatMap fun p => p.rx ++ p.tx)
    ++ (s.getPort 0).unacked.flatMap (·.flits)

/-! ### What crosses from one group to another (R35) -/

/-- The memory keys a request touches, and whether it writes. -/
def opTouches (op : MemOp) : List Nat × Bool :=
  match op with
  | .read ps => (ps.map (·.key), false)
  | .fe _ a _ => ([a], true)
  | .vldW a => ([a], false)
  | .write ps _ _ => (ps.map (·.1), true)
  | .amo _ _ a _ _ => ([a], true)
  | .addLanes _ ls => (ls.map (·.1), true)
  | .ring _ a _ _ => ([a], true)

/-- The partition that owns a location: of the tile whose pool it is in, or of the HBM page. -/
def State.ownerOf (s : State) (k : Nat) : Option Nat :=
  match poolTile k with
  | some t => (s.partOf t).map (·.1)
  | none => (s.vest.pages.find? fun p => p.num == k / 0x10000).map (·.pid)

/-- Whether a virtual page of a job lies in a window. -/
def Job.inWindow (j : Job) (g : Nat) : Bool := j.windows.any fun w => w.va / 0x10000 ≤ g && g < (w.va + w.len) / 0x10000

/-- The requests of a tile that were translated through windows of its job. -/
def Tile.windowTags (x : Tile) (j : Job) : List Nat := (x.mu.out.filter fun o => o.pages.any j.inWindow).map (·.tag)

/-- The job without its windows other than those it shared with a job that is being unloaded. -/
def State.leavingWindows (s : State) (j : Job) : Job :=
  { j with windows := j.windows.filter fun v => s.vest.parts.any fun e => e.2.leaving && e.2.job.any fun k =>
      k.name == v.partner && k.windows.any fun w => w.name == v.name }

/-- Whether a message goes between a job that is being unloaded and one that was in its snapshot group: such an access is still performed
(R35), but the jobs are no longer in one group, and it counts for neither (R308; log entry 22). -/
def State.crosses (s : State) (h : Header) (b : Body) : Bool :=
  let left := fun (e : Option (Nat × Partition)) => e.any (·.2.leaving)
  s.vest.parts.any (·.2.leaving) && (left (s.partAt h.spkg.toNat h.stile.toNat) || left (s.partAt h.dpkg.toNat h.dtile.toNat) ||
    match b with
    | .request _ op => ((opTouches op).1.head?.bind fun k => (s.ownerOf k).bind s.part).any (·.leaving)
    | .reply tag _ => h.dpkg.toNat == s.pkg &&
        (s.jobOf h.dtile.toNat).any fun j => ((s.getTile h.dtile.toNat).windowTags (s.leavingWindows j)).contains tag
    | _ => false)

/-- The messages of a group on their way in a colour, by their first flits. -/
def State.onTheWay (s : State) (gid : Nat) (c : BitVec 1) : Nat :=
  (s.flying.filter fun f =>
    f.fidx == 0 && f.hdr.kind != 7 && f.hdr.colour == c && f.hdr.dpkg.toNat != Config.hostPackage
      && (f.hdr.spkg.toNat == s.pkg || f.hdr.dpkg.toNat == s.pkg) && s.flitOf gid f.hdr && !s.crosses f.hdr f.body).length

/-- Every node of a group in one colour; the figures of R308 begin anew, with what is on its way counted as sent. -/
def State.recount (s : State) (gid : Nat) (colour : BitVec 1) : State :=
  let s1 := (s.groupNodes gid).foldl (fun s n => s.setNodeSnap gid n { NodeSnap.reset with colour := colour }) s
  s1.setNodeSnap gid Config.vestibuleNode
    { NodeSnap.reset with colour := colour, sent0 := s1.onTheWay gid 0, sent1 := s1.onTheWay gid 1 }

/-- A header of a group in a colour. -/
def State.recolourHdr (s : State) (gid : Nat) (c : BitVec 1) (h : Header) : Header := if s.flitOf gid h then { h with colour := c } else h

/-- What is on its way of a group gets a colour: a snapshot that ends early leaves no message of its old colour, which the next one would
take for a new one (DESIGN CHOICE, log entry 60). -/
def State.recolour (s : State) (gid : Nat) (c : BitVec 1) : State :=
  let flit := fun (f : Flit) => { f with hdr := s.recolourHdr gid c f.hdr }
  let move := fun (t : Transit) => { t with flit := flit t.flit }
  { s with
    fabric := { s.fabric with vn0 := s.fabric.vn0.map move, vn1 := s.fabric.vn1.map move, fwd := s.fabric.fwd.map fun e => (e.1, flit e.2) }
    tiles := s.tiles.map fun e => (e.1, { e.2 with outFl := e.2.outFl.map flit })
    ports := s.ports.map fun p => { p with rx := p.rx.map flit, tx := p.tx.map flit,
                                           unacked := p.unacked.map fun r => { r with flits := r.flits.map flit } }
    dies := s.dies.map fun d =>
      { d with memory := { d.memory with outFl := d.memory.outFl.map flit
                                         out := d.memory.out.map fun m => { m with hdr := s.recolourHdr gid c m.hdr } }
               newel := { d.newel with waiting := d.newel.waiting.map fun w => { w with flit := flit w.flit } } }
    vest := { s.vest with outFl := s.vest.outFl.map flit } }

/-! ### Regions (R306) -/

/-- The 2 MiB regions that hold a page of a group. -/
def State.groupRegions (s : State) (gid : Nat) : List Nat :=
  ((s.vest.pages.filter fun p => (s.groupParts gid).any fun e => e.1 == p.pid).map (·.num / 32)).foldl ins []

/-- What die `d` tells the holder of an X lease: to hold it as S, or no longer (R306). -/
def State.holdMsg (s : State) (d : Nat) (l : HomeLease) (shared : Bool) : Msg :=
  { hdr := { kind := 10, dpkg := BitVec.ofNat 15 l.pkg, dtile := BitVec.ofNat 12 (Config.newelNode l.die),
             spkg := BitVec.ofNat 15 s.pkg, stile := BitVec.ofNat 12 (Config.newelNode d) }
    body := .lockReply (.hold l.region shared) }

/-- The X leases on a group's regions at a die count as S while its snapshot runs, and their holders are told (R306). No dirty lines are
held anywhere: leases change only timing (R121). -/
def State.shutLeases (s : State) (gid d : Nat) : State :=
  let shut := fun (l : HomeLease) => l.mode == 7 && (s.groupRegions gid).contains l.region
  s.modNewel d fun w =>
    { w with home := updateWhere w.home shut fun l => { l with shut := ins l.shut gid }
             out := w.out ++ (w.home.filter shut).map fun l => s.holdMsg d l true }

/-- An instance's lease without a group among those it is shut for: it is X again, and its holder told, unless another die holds one on the
region by now: then it stays S (DESIGN CHOICE, log entry 73). -/
def Newel.openLease (w : Newel) (gid : Nat) (l : HomeLease) : HomeLease × Bool :=
  let l' := { l with shut := l.shut.filter (· != gid) }
  if l.shut = [] ∨ l'.shut ≠ [] then (l', false)
  else if w.home.any fun k => k.region == l.region && !(k.pkg == l.pkg && k.die == l.die) then ({ l' with mode := 3 }, false)
  else (l', true)

/-- The end of that at every die. -/
def State.openLeases (s : State) (gid : Nat) : State :=
  [0, 1, 2, 3].foldl (fun s d => s.modNewel d fun w =>
    let ls := w.home.map fun l => w.openLease gid l
    { w with home := ls.map (·.1), out := w.out ++ (ls.filter (·.2)).map fun l => s.holdMsg d l.1 false }) s

/-! ### Pre-images and the snapshot area -/

/-- Frees the pre-images of a snapshot. -/
def State.freePre (s : State) (gid sid : Nat) : State :=
  [0, 1, 2, 3].foldl (fun s d => s.modMemory d fun m => { m with pre := m.pre.filter fun p => !(p.grp == gid && p.sid == sid) }) s

/-- Whether a snapshot's captured state is still in the area: until it is DRAINED and a later one is COMPLETE (R310). -/
def Group.inArea (g : Group) (q : Snapshot) : Bool :=
  q.state != .drained || !g.snaps.any fun r => q.sid < r.sid && (r.state == .complete || r.state == .drained)

/-- Snapshot-area bytes in use by a group: copied blocks, log records, pre-images (R297). -/
def State.areaUsed (s : State) (gid : Nat) : Nat :=
  match s.group gid with
  | none => 0
  | some g =>
    ((g.snaps.filter g.inArea).map fun q =>
      (q.tiles.map fun i => (512 - if q.state = .running then (s.getTile i.tile).uncop.length else 0) * 4096).sum + q.logs.length * 288).sum
      + ((s.dies.toList.map fun d => (d.memory.pre.filter fun p => p.grp == gid).length * 65536).sum)

/-- Snapshot-area bytes of a group. -/
def State.areaSize (s : State) (gid : Nat) : Nat :=
  ((s.groupParts gid).map fun e => match e.2.job with
    | some j => j.area
    | none => 0).sum

/-- Whether the area has room for `n` more bytes. -/
def State.areaRoom (s : State) (gid n : Nat) : Bool := s.areaUsed gid + n ≤ s.areaSize gid

/-- A list with further elements, each once. -/
def addAll {α : Type} [BEq α] (l m : List α) : List α := m.foldl (fun l x => if l.contains x then l else l ++ [x]) l

/-- What was written since a cut that leads to no snapshot stays written since the parent (R305). -/
def MemNode.keepDirty (m : MemNode) (gid : Nat) : MemNode :=
  { m with dirty := addAll m.dirty (m.fresh.filter (·.1 == gid)), fresh := m.fresh.filter (·.1 != gid) }

/-- A running snapshot ends as ABANDONED or FAILED: what it saved is freed, and every node goes on in the new colour with figures that
begin anew (R308, R309). -/
def State.dropSnapshot (s : State) (gid : Nat) (how : SnapState) : State :=
  match (s.group gid).bind (·.running) with
  | none => s
  | some q =>
    let s1 := s.modGroup gid fun g => { g with snaps := g.snaps.filter (·.state != .running), past := (q.sid, how) :: g.past }
    let s2 := ([0, 1, 2, 3].foldl (fun s d => s.modMemory d fun m => m.keepDirty gid) (s1.freePre gid q.sid)).openLeases gid
    let s3 := (s2.groupTiles gid).foldl (fun s t => s.modTile t fun x => { x with uncop := [] }) s2
    (s3.recolour gid q.colour).recount gid q.colour

/-! ### Seals (R288, R289, R295) -/

/-- The tile without what it has still to send or report (R289): a request dropped so is not outstanding. -/
def Tile.dropSends (x : Tile) : Tile :=
  let gone := x.mu.queue.filterMap Queued.tag?
  { x with reports := [], outq := [], mu := { x.mu with queue := [], out := x.mu.out.filter fun o => !gone.contains o.tag } }

/-- Seals one partition; `fault` asks for a containment report. What its tiles still had to send or report is dropped, and what of its
egress had reached the host adapter is absorbed; a message that is being injected goes to its end. -/
def State.sealPart (s : State) (pid : Nat) (fault : Bool) : State :=
  match s.part pid with
  | none => s
  | some p =>
    if p.sealed_ then s
    else
      let mine := fun (e : Entry) => e.hdr.spkg.toNat == s.pkg && p.tiles.contains e.hdr.stile.toNat
      let s1 : State := { s with host := { s.host with inbox := s.host.inbox.filter fun e => !mine e } }
      let s2 := s1.modPart pid fun p =>
        { p with sealed_ := true, fault := fault, sealedAt := s.cycle,
                 absorbed := p.absorbed + ((s.host.inbox.filter mine).map (·.present.length)).sum }
      p.tiles.foldl (fun s t => s.modTile t Tile.dropSends) s2

/-- Notes a containment report that is to be written, once. -/
def State.noteSeal (s : State) (c : Containment) : State :=
  if s.vest.seals.contains c then s else s.modVest fun v => { v with seals := v.seals ++ [c] }

/-- The cause in the containment report of a partition that is sealed with its group: no fault (R295). -/
def causeGroup : Nat := 4

/-- A fault seals a partition with the rest of its snapshot group; a running snapshot is abandoned (R290, R295, R309). Each of them gets a
containment report, those of the group without a fault; a trigger of their own before it is written is listed in it (R289, R294). -/
def State.seal (s : State) (pid : Nat) (cause place : Nat) (record : List Word) : State :=
  let note := fun (q : Nat) =>
    (if q = pid then { pid := q, cause := cause, place := place, record := record, absorbed := 0 }
     else { pid := q, cause := causeGroup, place := 0, record := [], absorbed := 0 } : Containment)
  match s.part pid with
  | none => s
  | some p =>
    if p.sealed_ then
      if s.vest.seals.any (fun c => c.pid == pid && c.cause != 0) then s.noteSeal (note pid) else s
    else
      let mates := match p.job with
        | some j => ((s.groupParts j.group).filter fun e => e.1 != pid && !e.2.sealed_).map (·.1)
        | none => []
      let s1 := (pid :: mates).foldl (fun s q => (s.sealPart q true).noteSeal (note q)) s
      match p.job with
      | some j => s1.dropSnapshot j.group .abandoned
      | none => s1

/-- Causes of a containment report (R288). -/
def causeData : Nat := 1
def causeFlit : Nat := 2
def causePackage : Nat := 3

/-- Uncorrectable data at `k` is consumed for tile `t`: its partition is sealed, and the owner's where they differ (R285, R288). -/
def State.consumeBad (s : State) (t k : Nat) (record : List Word) : State :=
  let s1 := match s.partOf t with
    | some (pid, _) => s.seal pid causeData k record
    | none => s
  match s1.ownerOf k with
  | some pid => if (s.partOf t).any (fun e => e.1 == pid) then s1 else s1.seal pid causeData k record
  | none => s1

end Sys2Proof.Machine
end

