-- ==== Sys2Proof/Machine/Mem.lean ====
section
/-! DEFINITION. The writes of memory and of FULL bits, with the blocks a running snapshot saves first (spec/ 07 R111; 23 R303, R309). -/

namespace Sys2Proof.Machine

/-- Before the first write to an uncopied block of the pool, the block is saved (R303). The running snapshot fails where its area has no
room for it or the block holds uncorrectable data; the write proceeds (R285, R309). -/
def State.saveBlock (s : State) (k : Nat) : State :=
  match poolTile k with
  | none => s
  | some t =>
    let b := (k - poolBase t) / 4096
    if (s.getTile t).uncop.contains b = false then s
    else
      match s.groupOfTile t, s.badIn (poolBase t + b * 4096) 4096 with
      | some gid, some k => (s.dropSnapshot gid .failed).consumeBad t k []
      | some gid, none =>
        if s.areaRoom gid 4096 then s.modTile t fun x => { x with uncop := x.uncop.filter (· != b) } else s.dropSnapshot gid .failed
      | none, _ => s.modTile t fun x => { x with uncop := x.uncop.filter (· != b) }

/-- Saves every block a byte range touches. -/
def State.saveRange (s : State) (k n : Nat) : State :=
  if n = 0 then s
  else (List.range ((k + n - 1) / 4096 - k / 4096 + 1)).foldl (fun s i => s.saveBlock ((k / 4096 + i) * 4096)) s

/-- Writes bytes. FULL is unchanged. -/
def State.write (s : State) (k : Nat) (bs : List Byte) : State :=
  { s.saveRange k bs.length with mem := memWrite s.mem k bs, bad := clearBad s.bad k bs.length }

/-- Writes the low `n` bytes of a value. -/
def State.writeNat (s : State) (k n v : Nat) : State := s.write k (leBytes n v)

/-! ### FULL bits -/

/-- FULL of a granule (R111): HBM granules are never listed. -/
def State.full (s : State) (g : Nat) : Bool := !s.empty.contains g

/-- Sets FULL of a granule. -/
def State.setFull (s : State) (g : Nat) : State :=
  { s.saveBlock (16 * g) with empty := s.empty.filter (· != g) }

/-- Clears FULL of a granule. -/
def State.clearFull (s : State) (g : Nat) : State :=
  { s.saveBlock (16 * g) with empty := ins s.empty g }

/-- Sets FULL of granules. -/
def State.setFulls (s : State) (gs : List Nat) : State := gs.foldl State.setFull s

/-- Clears FULL of granules. -/
def State.clearFulls (s : State) (gs : List Nat) : State := gs.foldl State.clearFull s

end Sys2Proof.Machine
end

