-- ==== Sys2Proof/Machine/Float.lean ====
section
/-! DEFINITION. Floating-point arithmetic (spec/ 03 R39 to R63), on exact values: a finite number is a sign, a natural mantissa and
an integer exponent, and rounding happens once, at the end (R13). -/

namespace Sys2Proof.Machine

/-- The sticky flags in the bit positions of FPF (R51). -/
abbrev Flags := BitVec 6
def flagQM : Flags := 0x20
def flagNV : Flags := 0x10
def flagDZ : Flags := 0x08
def flagOF : Flags := 0x04
def flagUF : Flags := 0x02
def flagNX : Flags := 0x01

/-- A floating format: exponent width, fraction width, and whether all-ones exponents hold infinities and NaNs (R40); E4M3
has one NaN per sign instead (R41). -/
structure Fmt where
  ebits : Nat
  mbits : Nat
  ieee  : Bool
deriving DecidableEq, Repr

def fmtF64 : Fmt := ⟨11, 52, true⟩
def fmtF32 : Fmt := ⟨8, 23, true⟩
def fmtF16 : Fmt := ⟨5, 10, true⟩
def fmtBf16 : Fmt := ⟨8, 7, true⟩
def fmtE4m3 : Fmt := ⟨4, 3, false⟩
def fmtE5m2 : Fmt := ⟨5, 2, true⟩

/-- The bias of R40 and R41. -/
def Fmt.bias (f : Fmt) : Int := 2 ^ (f.ebits - 1) - 1
/-- The exponent of the smallest normal value. -/
def Fmt.emin (f : Fmt) : Int := 1 - f.bias
/-- The exponent of the largest finite value: E4M3 uses its all-ones exponent (R41). -/
def Fmt.emax (f : Fmt) : Int := if f.ieee then f.bias else f.bias + 1
/-- The mantissa of the largest finite value: 448 in E4M3 is 14 × 2^5 (R41). -/
def Fmt.maxSig (f : Fmt) : Nat := if f.ieee then 2 ^ (f.mbits + 1) - 1 else 2 ^ (f.mbits + 1) - 2
/-- The width in bits. -/
def Fmt.width (f : Fmt) : Nat := 1 + f.ebits + f.mbits

/-- The format of a floating element type; integer types have none. -/
def fmtOf : ElemType → Fmt
  | .f64 => fmtF64 | .f32 => fmtF32 | .f16 => fmtF16 | .bf16 => fmtBf16 | .e4m3 => fmtE4m3 | .e5m2 => fmtE5m2
  | _ => fmtF32

/-- The format of a FOP precision (R182). -/
def fmtOfPrec : Prec → Fmt | .d => fmtF64 | .s => fmtF32

/-- A decoded value. A NaN keeps its fraction at the top of 52 bits, the quiet bit topmost. -/
inductive FV where
  | nan (neg : Bool) (frac : Nat)
  | inf (neg : Bool)
  | num (neg : Bool) (m : Nat) (e : Int)
deriving DecidableEq, Repr, Inhabited

/-- The quiet bit of a NaN's fraction. -/
def quietBit : Nat := 2 ^ 51

/-- Whether a value is a NaN. -/
def FV.isNan : FV → Bool | .nan _ _ => true | _ => false
/-- Whether a value is a signalling NaN. -/
def FV.isSnan : FV → Bool | .nan _ f => f < quietBit | _ => false
/-- The sign. -/
def FV.neg : FV → Bool | .nan n _ => n | .inf n => n | .num n _ _ => n
/-- Whether a value is a zero. -/
def FV.isZero : FV → Bool | .num _ m _ => m == 0 | _ => false
/-- The value with its sign inverted. -/
def FV.negate : FV → FV | .nan n f => .nan n f | .inf n => .inf (!n) | .num n m e => .num (!n) m e

/-- The value an encoding stands for (R40, R41). -/
def fdec (f : Fmt) (x : Nat) : FV :=
  let m := x % 2 ^ f.mbits
  let e := x / 2 ^ f.mbits % 2 ^ f.ebits
  let neg := x / 2 ^ (f.mbits + f.ebits) % 2 == 1
  if f.ieee && e == 2 ^ f.ebits - 1 then
    if m = 0 then .inf neg else .nan neg (m * 2 ^ (52 - f.mbits))
  else if !f.ieee && e == 2 ^ f.ebits - 1 && m == 2 ^ f.mbits - 1 then .nan neg (m * 2 ^ (52 - f.mbits))
  else if e = 0 then .num neg m (f.emin - f.mbits)
  else .num neg (2 ^ f.mbits + m) ((e : Int) - f.bias - f.mbits)

/-- An encoding from its sign and its lower bits. -/
def fsign (f : Fmt) (neg : Bool) (x : Nat) : Nat := if neg then 2 ^ (f.mbits + f.ebits) + x else x

/-- The NaN of a format with a fraction, quieted, its payload at the top of the destination fraction (R43). -/
def fnan (f : Fmt) (neg : Bool) (frac : Nat) : Nat :=
  if f.ieee then
    let q := if frac < quietBit then frac + quietBit else frac
    fsign f neg ((2 ^ f.ebits - 1) * 2 ^ f.mbits + q / 2 ^ (52 - f.mbits))
  else fsign f neg (2 ^ (f.ebits + f.mbits) - 1)

/-- The canonical quiet NaN (R43). -/
def fcanon (f : Fmt) : Nat := fnan f false quietBit

/-- The largest finite encoding of a sign (R54). -/
def fbig (f : Fmt) (neg : Bool) : Nat :=
  fsign f neg (((f.emax + f.bias).toNat) * 2 ^ f.mbits + (f.maxSig - 2 ^ f.mbits))

/-- What a rounded value too large becomes without SAT: infinity, or in E4M3 the NaN of that sign (R54). -/
def finf (f : Fmt) (neg : Bool) : Nat :=
  if f.ieee then fsign f neg ((2 ^ f.ebits - 1) * 2 ^ f.mbits) else fnan f neg quietBit

/-- The rounding modes of R54 and R56; a stochastic rounding carries its draw u. -/
inductive Rm where
  | rne | rtz | rdn | rup
  | sto (u : Nat)
deriving DecidableEq, Repr

/-- FPM.RM (R54). -/
def rmOfFpm (m : BitVec 2) : Rm :=
  match m.toNat with | 0 => .rne | 1 => .rtz | 2 => .rdn | _ => .rup

/-- The integer nearest `m / 2^sh` under a mode, and whether it is inexact. -/
def roundShift (r : Rm) (neg : Bool) (m sh : Nat) : Nat × Bool :=
  let q := m / 2 ^ sh
  let rem := m % 2 ^ sh
  let up : Bool :=
    match r with
    | .rne => 2 * rem > 2 ^ sh || (2 * rem == 2 ^ sh && q % 2 == 1)
    | .rtz => false
    | .rdn => neg && rem != 0
    | .rup => !neg && rem != 0
    | .sto u => u * 2 ^ sh < rem * 2 ^ 24
  (if up then q + 1 else q, rem != 0)

/-- `m × 2^e` as a multiple of `2^q`, rounded. -/
def roundAt (r : Rm) (neg : Bool) (m : Nat) (e q : Int) : Nat × Bool :=
  if q ≤ e then (m * 2 ^ (e - q).toNat, false) else roundShift r neg m (q - e).toNat

/-- Whether an overflow under the mode gives infinity rather than the largest finite value (R54, R56). -/
def Rm.toInf (r : Rm) (neg : Bool) : Bool :=
  match r with
  | .rne | .sto _ => true
  | .rtz => false
  | .rdn => neg
  | .rup => !neg

/-- Rounds the exact value `±m × 2^e` once to a format (R54, R56), with the flags of R51: tininess after rounding, and overflow by the rounded
result: 465 to E4M3 toward zero is 448, which is inexact only, though R54's worked row has OF beside all columns (DEDUCED, log entry 64). -/
def fround (f : Fmt) (r : Rm) (sat neg : Bool) (m : Nat) (e : Int) : Nat × Flags :=
  if m = 0 then (fsign f neg 0, 0) else
  let top : Int := e + (Nat.log2 m : Nat)
  let q : Int := max top f.emin - f.mbits
  let (sig, inexact) := roundAt r neg m e q
  let (sig, q) := if sig = 2 ^ (f.mbits + 1) then (2 ^ f.mbits, q + 1) else (sig, q)
  let tiny := top < f.emin && !(top == f.emin - 1 && (roundAt r neg m e (top - f.mbits)).1 == 2 ^ (f.mbits + 1))
  let tooBig := q + f.mbits > f.emax || (q + f.mbits == f.emax && sig > f.maxSig)
  if tooBig then
    (if sat || !r.toInf neg then fbig f neg else finf f neg, flagOF ||| flagNX)
  else
    let body := if sig < 2 ^ f.mbits then sig else (q + f.mbits + f.bias).toNat * 2 ^ f.mbits + (sig - 2 ^ f.mbits)
    (fsign f neg body, (if inexact then flagNX else 0) ||| (if inexact && tiny then flagUF else 0))

/-- Rounds a decoded value to a format (R43, R54): the conversion of R217 between floating formats. An infinity to E4M3 is invalid, and
without SAT gives the canonical NaN (R44). The signalling-NaN flag is raised by the caller's operand check. -/
def fpack (f : Fmt) (r : Rm) (sat : Bool) (v : FV) : Nat × Flags :=
  match v with
  | .nan n x => (fnan f n x, 0)
  | .inf n => (if sat then fbig f n else if f.ieee then finf f n else fcanon f, if f.ieee then 0 else flagNV)
  | .num n m e => fround f r sat n m e

/-- Invalid for a signalling NaN operand (R51). -/
def snanFlag (vs : List FV) : Flags := if vs.any FV.isSnan then flagNV else 0

/-- The result of R43 when some operand is a NaN: the first NaN, quieted. -/
def firstNan (f : Fmt) (vs : List FV) : Option Nat :=
  match vs.find? FV.isNan with
  | some (.nan n x) => some (fnan f n x)
  | _ => none

/-- The sign of an exact zero sum (R45). -/
def zeroSign (r : Rm) (allNeg : Bool) : Bool := allNeg || r == .rdn

/-- The exact signed sum of finite terms `(neg, m, e)` as an integer multiple of `2^e0`. -/
def exactSum (ts : List (Bool × Nat × Int)) : Int × Int :=
  let e0 := ts.foldl (fun a t => if t.2.1 = 0 then a else min a t.2.2) (ts.foldl (fun a t => max a t.2.2) 0)
  (ts.foldl (fun a t =>
    if t.2.1 = 0 then a
    else
      let v : Int := (t.2.1 * 2 ^ (t.2.2 - e0).toNat : Nat)
      if t.1 then a - v else a + v) 0, e0)

/-- Rounds an exact sum of finite terms (R45, R54). A zero sum of equal signs keeps its sign; other exact zeros are +0, or −0
under RDN. -/
def roundSum (f : Fmt) (r : Rm) (ts : List (Bool × Nat × Int)) : Nat × Flags :=
  let (v, e) := exactSum ts
  if v = 0 then
    let allZero := ts.all fun t => t.2.1 == 0
    let neg :=
      if allZero && ts.all (·.1) then true
      else if allZero && ts.all (!·.1) then false
      else r == .rdn
    (fsign f neg 0, 0)
  else fround f r false (v < 0) v.natAbs e

/-- FADD and VADD (R183, R210): round(a + b). -/
def fadd (f : Fmt) (r : Rm) (x y : Nat) : Nat × Flags :=
  let a := fdec f x
  let b := fdec f y
  match firstNan f [a, b] with
  | some n => (n, snanFlag [a, b])
  | none =>
    match a, b with
    | .inf s, .inf t => if s = t then (finf f s, 0) else (fcanon f, flagNV)
    | .inf s, _ => (finf f s, 0)
    | _, .inf t => (finf f t, 0)
    | .num s m e, .num t n g => roundSum f r [(s, m, e), (t, n, g)]
    | _, _ => (fcanon f, 0)

/-- An encoding with its sign inverted. -/
def fflip (f : Fmt) (x : Nat) : Nat :=
  let h := 2 ^ (f.mbits + f.ebits)
  if x / h % 2 = 1 then x - h else x + h

/-- FSUB and VSUB (R183, R210): round(a − b); a NaN b keeps its own sign. -/
def fsub (f : Fmt) (r : Rm) (x y : Nat) : Nat × Flags :=
  if (fdec f y).isNan then fadd f r x y else fadd f r x (fflip f y)

/-- FMUL and VMUL (R183, R210). -/
def fmul (f : Fmt) (r : Rm) (x y : Nat) : Nat × Flags :=
  let a := fdec f x
  let b := fdec f y
  match firstNan f [a, b] with
  | some n => (n, snanFlag [a, b])
  | none =>
    let s := a.neg != b.neg
    match a, b with
    | .num _ m e, .num _ n g => fround f r false s (m * n) (e + g)
    | _, _ => if a.isZero || b.isZero then (fcanon f, flagNV) else (finf f s, 0)

/-- FDIV and VDIV (R183, R210). The quotient carries enough bits, with a sticky bit, to round exactly once. -/
def fdiv (f : Fmt) (r : Rm) (x y : Nat) : Nat × Flags :=
  let a := fdec f x
  let b := fdec f y
  match firstNan f [a, b] with
  | some n => (n, snanFlag [a, b])
  | none =>
    let s := a.neg != b.neg
    match a, b with
    | .inf _, .inf _ => (fcanon f, flagNV)
    | .inf _, _ => (finf f s, 0)
    | _, .inf _ => (fsign f s 0, 0)
    | .num _ m e, .num _ n g =>
      if n = 0 then (if m = 0 then (fcanon f, flagNV) else (finf f s, flagDZ))
      else
        let k := 2 * f.mbits + 6 + Nat.log2 n
        let t := m * 2 ^ k
        fround f r false s (2 * (t / n) + (if t % n = 0 then 0 else 1)) (e - g - k - 1)
    | _, _ => (fcanon f, 0)

/-- The integer square root, bit by bit from bit `k` down. -/
def isqrtAux (n : Nat) : Nat → Nat → Nat
  | 0, acc => acc
  | k + 1, acc =>
    let t := acc + 2 ^ k
    isqrtAux n k (if t * t ≤ n then t else acc)

/-- The integer square root. -/
def isqrt (n : Nat) : Nat := isqrtAux n (Nat.log2 n / 2 + 1) 0

/-- FSQRT and VSQRT (R183, R210): √(−0) = −0, a value below −0 is invalid. -/
def fsqrt (f : Fmt) (r : Rm) (x : Nat) : Nat × Flags :=
  let a := fdec f x
  match a with
  | .nan n p => (fnan f n p, snanFlag [a])
  | .inf n => if n then (fcanon f, flagNV) else (finf f false, 0)
  | .num n m e =>
    if m = 0 then (fsign f n 0, 0)
    else if n then (fcanon f, flagNV)
    else
      let k := 2 * f.mbits + 8
      let odd := (e % 2).toNat
      let t := m * 2 ^ (2 * k + odd)
      let q := isqrt t
      fround f r false false (2 * q + (if q * q = t then 0 else 1)) ((e - odd) / 2 - k - 1)

/-- The fused multiply-add family (R44, R183, R211): round(±(a × b) ± c), with NaN operand order a, b, c. -/
def ffma (f : Fmt) (r : Rm) (negProd negAdd : Bool) (x y z : Nat) : Nat × Flags :=
  let a := fdec f x
  let b := fdec f y
  let c := fdec f z
  let badProd := (a.isZero && b == .inf b.neg) || (b.isZero && a == .inf a.neg)
  let nv := snanFlag [a, b, c] ||| (if badProd then flagNV else 0)
  match firstNan f [a, b, c] with
  | some n => (n, nv)
  | none =>
    if badProd then (fcanon f, flagNV)
    else
      let ps := (a.neg != b.neg) != negProd
      let cs := c.neg != negAdd
      match a, b, c with
      | .num _ m e, .num _ n g, .num _ p h => roundSum f r [(ps, m * n, e + g), (cs, p, h)]
      | .num _ _ _, .num _ _ _, _ => (finf f cs, 0)
      | _, _, .num _ _ _ => (finf f ps, 0)
      | _, _, _ => if ps = cs then (finf f ps, 0) else (fcanon f, flagNV)

/-- The order of two values that are not NaNs; −0 equals +0. -/
def fcmp (a b : FV) : Ordering :=
  match a, b with
  | .inf s, .inf t => if s = t then .eq else if s then .lt else .gt
  | .inf s, _ => if s then .lt else .gt
  | _, .inf t => if t then .gt else .lt
  | .num s m e, .num t n g =>
    let v := (exactSum [(s, m, e), (!t, n, g)]).1
    if v = 0 then .eq else if v < 0 then .lt else .gt
  | _, _ => .eq

/-- minimumNumber and maximumNumber (R46): −0 is less than +0; one NaN loses; two NaNs follow R43. -/
def fminmax (f : Fmt) (max : Bool) (x y : Nat) : Nat × Flags :=
  let a := fdec f x
  let b := fdec f y
  let fl := snanFlag [a, b]
  match a.isNan, b.isNan with
  | true, true => ((firstNan f [a, b]).getD (fcanon f), fl)
  | true, false => (y, fl)
  | false, true => (x, fl)
  | false, false =>
    let aFirst :=
      match fcmp a b with
      | .lt => true
      | .gt => false
      | .eq => a.neg || !b.neg
    (if aFirst != max then x else y, fl)

/-- The comparisons of R184, R171 and R214: whether the condition holds, and invalid. `quiet` conditions raise invalid only for
a signalling NaN. -/
def fcompare (f : Fmt) (quiet : Bool) (p : Ordering → Bool) (x y : Nat) : Bool × Flags :=
  let a := fdec f x
  let b := fdec f y
  if a.isNan || b.isNan then (false, if quiet then snanFlag [a, b] else flagNV) else (p (fcmp a b), 0)

/-- Whether either operand is a NaN (FUN, R184), quiet. -/
def funord (f : Fmt) (x y : Nat) : Bool × Flags :=
  let a := fdec f x
  let b := fdec f y
  (a.isNan || b.isNan, snanFlag [a, b])

/-- A finite value rounded to an integer under a mode, and whether it is inexact. -/
def fvToInt (r : Rm) (neg : Bool) (m : Nat) (e : Int) : Int × Bool :=
  let (v, ix) := roundAt r neg m e 0
  (if neg then -(v : Int) else (v : Int), ix)

/-- Conversion to an integer type (R55): round, saturate; a NaN gives 0. The result is modulo 2^w. -/
def fToInt (r : Rm) (signed : Bool) (w : Nat) (v : FV) : Nat × Flags :=
  let lo : Int := if signed then -(2 ^ (w - 1)) else 0
  let hi : Int := if signed then 2 ^ (w - 1) - 1 else 2 ^ w - 1
  let wrap (i : Int) : Nat := (i % (2 ^ w : Int)).toNat
  match v with
  | .nan _ _ => (0, flagNV)
  | .inf n => (wrap (if n then lo else hi), flagNV)
  | .num n m e =>
    let (i, ix) := fvToInt r n m e
    if i < lo then (wrap lo, flagNV) else if hi < i then (wrap hi, flagNV)
    else (wrap i, if ix then flagNX else 0)

/-- Conversion of an integer to a floating format (R55): one rounding. -/
def fOfInt (f : Fmt) (r : Rm) (sat : Bool) (i : Int) : Nat × Flags := fround f r sat (i < 0) i.natAbs 0

/-- FRINT (R183): rounded to an integral value, the sign kept, inexact when it differs. -/
def frint (f : Fmt) (r : Rm) (x : Nat) : Nat × Flags :=
  let a := fdec f x
  match a with
  | .nan n p => (fnan f n p, snanFlag [a])
  | .inf _ => (x, 0)
  | .num n m e =>
    let (v, ix) := roundAt r n m e 0
    ((fround f .rne false n v 0).1, if ix then flagNX else 0)

/-- FCLASS (R184). -/
def fclass (f : Fmt) (x : Nat) : Nat :=
  match fdec f x with
  | .nan _ p => if p < quietBit then 2 ^ 8 else 2 ^ 9
  | .inf n => if n then 2 ^ 0 else 2 ^ 7
  | .num n m _ =>
    if m = 0 then (if n then 2 ^ 3 else 2 ^ 4)
    else if m < 2 ^ f.mbits then (if n then 2 ^ 2 else 2 ^ 5)
    else (if n then 2 ^ 1 else 2 ^ 6)

/-- FMOVI (R155): an exact conversion with a NaN quieted, and no flag. -/
def fmovi (src dst : Fmt) (x : Nat) : Nat := (fpack dst .rne false (fdec src x)).1

/-- FCVTP (R185) and the same conversion between element types (R217). -/
def fcvt (src dst : Fmt) (r : Rm) (sat : Bool) (x : Nat) : Nat × Flags :=
  let a := fdec src x
  let (y, fl) := fpack dst r sat a
  (y, fl ||| snanFlag [a])

/-- The product of two values for a group sum: none marks an invalid product (R61). -/
def fvMul (a b : FV) : Option FV :=
  match a, b with
  | .nan n x, _ => some (.nan n x)
  | _, .nan n x => some (.nan n x)
  | .num s m e, .num t n g => some (.num (s != t) (m * n) (e + g))
  | _, _ => if a.isZero || b.isZero then none else some (.inf (a.neg != b.neg))

/-- The state of a group sum over its operands in order (R61): the first deciding case, the infinities met, the flags. -/
structure GroupAcc where
  first : Option FV
  bad   : Bool
  infs  : List Bool
  flags : Flags
  terms : List (Bool × Nat × Int)

/-- One term of a group sum: a value, its signalling flag, or an invalid product. Opposite infinities are invalid where the second of them
stands, so a NaN between the two comes first (R43, R61; DEDUCED, log entry 65). -/
def GroupAcc.add (g : GroupAcc) (v : Option FV) : GroupAcc :=
  let decided := g.bad || g.first.isSome
  match v with
  | none => { g with bad := g.bad || !decided, flags := g.flags ||| flagNV }
  | some (.nan n x) => { g with first := if decided then g.first else some (.nan n x) }
  | some (.inf n) =>
    if g.infs.contains (!n) then { g with bad := g.bad || !decided, flags := g.flags ||| flagNV, infs := n :: g.infs }
    else { g with infs := n :: g.infs }
  | some (.num n m e) => { g with terms := g.terms ++ [(n, m, e)] }

/-- round(c + Σ aₖ × bₖ, RNE) with the operand order c, then each pair (R60, R61, R62). -/
def groupSum (f : Fmt) (c : FV) (pairs : List (FV × FV)) : Nat × Flags :=
  let snan := snanFlag (c :: pairs.flatMap fun p => [p.1, p.2])
  let g := pairs.foldl (fun g p => g.add (fvMul p.1 p.2))
    (GroupAcc.add { first := none, bad := false, infs := [], flags := 0, terms := [] } (some c))
  let fl := g.flags ||| snan
  if g.bad then (fcanon f, fl)
  else match g.first with
    | some (.nan n x) => (fnan f n x, fl)
    | _ =>
      match g.infs with
      | n :: _ => (finf f n, fl)
      | [] => let (x, fl') := roundSum f .rne g.terms; (x, fl ||| fl')

/-! ### The generator of R56 -/

/-- One step of the generator. -/
def rngStep (s : Word) : Word :=
  let s := s ^^^ (s <<< 13)
  let s := s ^^^ (s >>> 7)
  s ^^^ (s <<< 17)

/-- The draw u = s[63:40] of a generator state. -/
def rngDraw (s : Word) : Nat := s.toNat / 2 ^ 40

/-- A seed with zero replaced by 1 (R57, R237). -/
def rngSeed (s : Word) : Word := if s = 0 then 1 else s

end Sys2Proof.Machine
end

