-- ==== Sys2Proof/Machine/Block.lean ====
section
/-! DEFINITION. Block-scaled formats: decoding MXF4 and Q4O blocks and quantising to them (spec/ 03 R47 to R50, R58, R59). -/

namespace Sys2Proof.Machine

/-- The canonical quiet NaN as a value: what every element of a block with the NaN scale reads as (R47). -/
def fvCanon : FV := .nan false quietBit

/-- `±m × 2^e` scaled by an E8M0 scale byte that is not 0xFF (R47). -/
def fvScale (s : Nat) : FV → FV
  | .num n m e => .num n m (e + s - 127)
  | v => v

/-- Twice the magnitude of an E2M1 code (R49). -/
def e2m1Half (c : Nat) : Nat :=
  match c % 8 with
  | 0 => 0 | 1 => 1 | 2 => 2 | 3 => 3 | 4 => 4 | 5 => 6 | 6 => 8 | _ => 12

/-- The value of an E2M1 code (R49). -/
def e2m1Val (c : Nat) : FV := .num (c / 8 % 2 == 1) (e2m1Half c) (-1)

/-- The unscaled values of Q4O slots, and whether an escape was malformed (R50, R233): an escape needs two slots after it, which
it gives up. `skip` counts the given-up slots still to pass. -/
def q4oVals : Nat → List Nat → List FV × Bool
  | _, [] => ([], false)
  | skip + 1, _ :: rest =>
    let (vs, bad) := q4oVals skip rest
    (.num false 0 0 :: vs, bad)
  | 0, c :: rest =>
    if c != 8 then
      let (vs, bad) := q4oVals 0 rest
      (.num (c ≥ 8) (if c ≥ 8 then 16 - c else c) 0 :: vs, bad)
    else if rest.length ≥ 2 then
      let (vs, bad) := q4oVals 2 rest
      (fdec fmtE4m3 (rest.headD 0 * 16 + (rest.drop 1).headD 0) :: vs, bad)
    else
      let (vs, _) := q4oVals 0 rest
      (.num false 0 0 :: vs, true)

/-- The elements of a block from its codes and scale, and QM (R47 to R50). `q4o` selects the format. -/
def decodeBlock (q4o : Bool) (scale : Nat) (codes : List Nat) : List FV × Bool :=
  let (vs, bad) := if q4o then q4oVals 0 codes else (codes.map e2m1Val, false)
  (if scale = 0xFF then vs.map fun _ => fvCanon else vs.map (fvScale scale), bad)

/-- The 4-bit codes of bytes: the low nibble is the even element (R48). -/
def nibbles (bs : List Byte) : List Nat := bs.flatMap fun b => [b.toNat % 16, b.toNat / 16]

/-- The bytes of 4-bit codes (R48). -/
def packNibbles : List Nat → List Byte
  | a :: b :: rest => BitVec.ofNat 8 (a + 16 * b) :: packNibbles rest
  | [a] => [BitVec.ofNat 8 a]
  | [] => []

/-- The magnitude comparison of two finite values: whether |a| ≤ |b|. -/
def fvLeMag (a b : FV) : Bool :=
  match a, b with
  | .num _ m e, .num _ n g => (exactSum [(false, m, e), (true, n, g)]).1 ≤ 0
  | _, _ => false

/-- ⌊log2 |x|⌋ of a nonzero finite value. -/
def fvLog2 : FV → Int
  | .num _ m e => e + (Nat.log2 m : Nat)
  | _ => 0

/-- A scale clamped to 0 … 254 (R58, R59). -/
def clampScale (i : Int) : Nat := if i < 0 then 0 else if 254 < i then 254 else i.toNat

/-- The E2M1 code of a scaled value, rounded and saturated to ±6, with inexact and underflow but no overflow (R58). -/
def toE2m1 (r : Rm) (v : FV) : Nat × Flags :=
  match v with
  | .num n m e =>
    let sg := if n then 8 else 0
    if m = 0 then (sg, 0)
    else
      let top : Int := e + (Nat.log2 m : Nat)
      let q : Int := max top 0 - 1
      let (sig, ix) := roundAt r n m e q
      let half := sig * 2 ^ (q + 1).toNat
      let tiny := top < 0 && !(top == -1 && (roundAt r n m e (top - 1)).1 == 4)
      let (code, sat) : Nat × Bool :=
        if half ≥ 12 then (7, half > 12)
        else if half ≥ 8 then (6, false) else if half ≥ 6 then (5, false) else (half, false)
      (sg + code, (if ix || sat then flagNX else 0) ||| (if ix && tiny then flagUF else 0))
  | _ => (0, 0)

/-- Divides a finite value by 2^(s − 127). -/
def fvUnscale (s : Nat) : FV → FV
  | .num n m e => .num n m (e + 127 - s)
  | v => v

/-- Whether a value is a NaN or an infinity. -/
def FV.special : FV → Bool | .num _ _ _ => false | _ => true

/-- The largest magnitude of a list. -/
def fvMaxMag (vs : List FV) : FV := vs.foldl (fun a v => if fvLeMag a v then v else a) (.num false 0 0)

/-- The MXF4 quantisation of a block (R58): scale, codes and flags. Each element comes with its rounding. -/
def quantMxf4 (xs : List (FV × Rm)) : Nat × List Nat × Flags :=
  if xs.any fun x => x.1.special then (0xFF, xs.map fun _ => 0, flagNV)
  else
    let amax := fvMaxMag (xs.map (·.1))
    if amax.isZero then (0, xs.map fun x => if x.1.neg then 8 else 0, 0)
    else
      let s := clampScale (fvLog2 amax - 2 + 127)
      let rs := xs.map fun x => toE2m1 x.2 (fvUnscale s x.1)
      (s, rs.map (·.1), rs.foldl (fun fl r => fl ||| r.2) 0)

/-- Inserts a value in falling order of magnitude. -/
def insMag (v : FV) : List FV → List FV
  | [] => [v]
  | w :: l => if fvLeMag w v then v :: w :: l else w :: insMag v l

/-- ⌈log2(q / 7)⌉ of a nonzero magnitude (R59). -/
def log2Over7 (q : FV) : Int :=
  let k0 := fvLog2 q - 3
  if fvLeMag q (.num false 14 k0) then k0 + 1 else k0 + 2

/-- Fills the slots of a Q4O block (R59): the codes and the flags. `esc` counts the escapes left; `given` holds the two nibbles
an escape still has to store, whose own elements are not stored. -/
def fillQ4o (s : Nat) : Nat → List Nat → List (FV × Rm) → List Nat × Flags
  | _, _, [] => ([], 0)
  | esc, p :: ps, _ :: rest =>
    let (cs, fl) := fillQ4o s esc ps rest
    (p :: cs, fl)
  | esc, [], x :: rest =>
    match fvUnscale s x.1 with
    | .num n m e =>
      let (y, ix) := roundAt x.2 n m e 0
      if y ≤ 7 then
        let tiny := m != 0 && e + (Nat.log2 m : Nat) < 0
        let fl := (if ix then flagNX else 0) ||| (if ix && tiny then flagUF else 0)
        let (cs, fl') := fillQ4o s esc [] rest
        ((if n then (16 - y) % 16 else y) :: cs, fl ||| fl')
      else if esc > 0 && rest.length ≥ 2 then
        let (b, fl) := fround fmtE4m3 x.2 true n m e
        let (cs, fl') := fillQ4o s (esc - 1) [b / 16, b % 16] rest
        (8 :: cs, fl ||| fl')
      else
        let (cs, fl') := fillQ4o s esc [] rest
        ((if n then 9 else 7) :: cs, flagNX ||| fl')
    | _ =>
      let (cs, fl') := fillQ4o s esc [] rest
      (0 :: cs, fl')

/-- The Q4O quantisation of a block (R59): scale, codes and flags. -/
def quantQ4o (xs : List (FV × Rm)) : Nat × List Nat × Flags :=
  if xs.any fun x => x.1.special then (0xFF, xs.map fun _ => 0, flagNV)
  else
    let budget := xs.length / 32
    let sorted := xs.foldl (fun l x => insMag x.1 l) []
    let q := (sorted.drop budget).headD (.num false 0 0)
    let s := if q.isZero then 0 else clampScale (log2Over7 q + 127)
    let (codes, fl) := fillQ4o s budget [] xs
    (s, codes, fl)

/-- A quantised block in the format FMT 7 or 8. -/
def quantBlock (q4o : Bool) (xs : List (FV × Rm)) : Nat × List Nat × Flags :=
  if q4o then quantQ4o xs else quantMxf4 xs

/-- The element format of a fat pointer's FMT 1 to 6 (R52). -/
def fmtOfCode (c : Nat) : Fmt :=
  match c with
  | 1 => fmtF64 | 2 => fmtF32 | 3 => fmtF16 | 4 => fmtBf16 | 5 => fmtE4m3 | _ => fmtE5m2

/-- The block length of a fat pointer with FMT 7 or 8: BLK must be 0, 5, 6 or 7, and 0 reads as 7 (R53). -/
def blockLen (blk : Nat) : Option Nat :=
  match blk with
  | 0 | 7 => some 128 | 5 => some 32 | 6 => some 64 | _ => none

end Sys2Proof.Machine
end

