-- ==== Sys2Proof/Machine/Flags.lean ====
section
/-! DEFINITION. Register access, the flag computations of FPF, the loop tests of R174 and R175, and integer arithmetic
(spec/ 03 R38, R39, R51; 09 R136; 11 R166 to R176). -/

namespace Sys2Proof.Machine

/-! ### Registers (R136) -/

/-- G[r]: g0 reads zero. -/
def Ctx.rd (c : Ctx) (r : Reg) : Word := if r = 0 then 0 else c.g[r.toNat]'r.isLt

/-- G[r] := w: a write to g0 is discarded. -/
def Ctx.wr (c : Ctx) (r : Reg) (w : Word) : Ctx := if r = 0 then c else { c with g := c.g.set r.toNat w r.isLt }

/-- K[k]: k0 reads all ones. -/
def Ctx.rk (c : Ctx) (k : KReg) : Word := if k = 0 then BitVec.allOnes 64 else c.k[k.toNat]'k.isLt

/-- K[k] := w: a write to k0 is discarded. -/
def Ctx.wk (c : Ctx) (k : KReg) (w : Word) : Ctx := if k = 0 then c else { c with k := c.k.set k.toNat w k.isLt }

/-- V[r]. -/
def Ctx.rv (c : Ctx) (r : Reg) : VReg := c.v[r.toNat]'r.isLt

/-- V[r] := x. -/
def Ctx.wv (c : Ctx) (r : Reg) (x : VReg) : Ctx := { c with v := c.v.set r.toNat x r.isLt }

/-- ORs flags into FPF (R51). -/
def Ctx.orFlags (c : Ctx) (f : Flags) : Ctx := { c with fpf := c.fpf ||| f }

/-! ### The PC and the hardware loops (R172 to R176) -/

/-- Whether an address lies in a level's body. -/
def Loop.inBody (l : Loop) (pc : Addr) : Bool := l.lb.toNat ≤ pc.toNat && pc.toNat < l.le.toNat

/-- A level abandoned because execution continues at an address outside its body (R175). -/
def Loop.leave (l : Loop) (pc : Addr) : Loop := if l.act && !l.inBody pc then { l with act := false } else l

/-- Control continues at `pc` by a transfer: levels it leaves are abandoned, but not during a user trap (R175, R176). -/
def Ctx.goto (c : Ctx) (pc : Addr) : Ctx :=
  if c.ut.act then { c with pc := pc }
  else { c with pc := pc, loop0 := c.loop0.leave pc, loop1 := c.loop1.leave pc }

/-- The end-of-body test of one level for the next sequential PC (R174): the level after it, where control goes, and whether it
branched back. -/
def Loop.test (l : Loop) (next : Addr) : Loop × Addr × Bool :=
  if l.act && l.le == next then
    if l.count.toNat ≤ 1 then ({ l with count := 0, act := false }, l.le, false)
    else ({ l with count := l.count - 1 }, l.lb, true)
  else (l, next, false)

/-- An instruction completes with `next` as its next sequential PC: the end-of-body tests, the level entered last first, then
abandonment (R174, R175); neither during a user trap (R176). -/
def Ctx.seqTo (c : Ctx) (next : Addr) : Ctx :=
  if c.ut.act then { c with pc := next }
  else if c.newer1 then
    let (l1, pc, back) := c.loop1.test next
    if back then { c with loop1 := l1 }.goto pc
    else
      let (l0, pc, _) := c.loop0.test next
      { c with loop0 := l0, loop1 := l1 }.goto pc
  else
    let (l0, pc, back) := c.loop0.test next
    if back then { c with loop0 := l0 }.goto pc
    else
      let (l1, pc, _) := c.loop1.test next
      { c with loop0 := l0, loop1 := l1 }.goto pc

/-- Completes an instruction of `len` bytes sequentially. -/
def Ctx.seq (c : Ctx) (len : Nat) : Ctx := c.seqTo (c.pc + BitVec.ofNat 56 len)

/-! ### Integer arithmetic (R38, R39, R166) -/

/-- 1 or 0. -/
def boolWord (b : Bool) : Word := if b then 1 else 0

/-- The quotient of R39: truncation, all ones for a zero divisor, and the wrap of the most negative value over −1. -/
def sdivTrunc {n : Nat} (a b : BitVec n) : BitVec n := if b = 0 then BitVec.allOnes n else a.sdiv b
/-- The remainder of R39, with the sign of the dividend. -/
def sremTrunc {n : Nat} (a b : BitVec n) : BitVec n := if b = 0 then a else a.srem b
/-- The unsigned quotient of R39. -/
def udivOnes {n : Nat} (a b : BitVec n) : BitVec n := if b = 0 then BitVec.allOnes n else a.udiv b
/-- The unsigned remainder of R39. -/
def uremSelf {n : Nat} (a b : BitVec n) : BitVec n := if b = 0 then a else a.umod b

/-- The high half of the signed product (R166, R210). -/
def mulHighS {n : Nat} (a b : BitVec n) : BitVec n := BitVec.ofInt n (a.toInt * b.toInt / 2 ^ n)
/-- The high half of the unsigned product (R166, R210). -/
def mulHighU {n : Nat} (a b : BitVec n) : BitVec n := BitVec.ofNat n (a.toNat * b.toNat / 2 ^ n)

def minS {n : Nat} (a b : BitVec n) : BitVec n := if b.slt a then b else a
def maxS {n : Nat} (a b : BitVec n) : BitVec n := if a.slt b then b else a
def minU {n : Nat} (a b : BitVec n) : BitVec n := if b.ult a then b else a
def maxU {n : Nat} (a b : BitVec n) : BitVec n := if a.ult b then b else a

/-- Rotation left by a count below the width. -/
def rotl {n : Nat} (a : BitVec n) (k : Nat) : BitVec n := (a <<< (k % n)) ||| (a >>> (n - k % n))

/-- The number of leading zero bits below bit `k`. -/
def clzFrom (a : Word) : Nat → Nat
  | 0 => 0
  | k + 1 => if a.getLsbD k then 0 else clzFrom a k + 1

/-- CLZ (R166). -/
def clz (a : Word) : Nat := clzFrom a 64

/-- The number of trailing zero bits among the `k` bits from bit `i`. -/
def ctzFrom (a : Word) (i : Nat) : Nat → Nat
  | 0 => 0
  | k + 1 => if a.getLsbD i then 0 else ctzFrom a (i + 1) k + 1

/-- CTZ (R166). -/
def ctz (a : Word) : Nat := ctzFrom a 0 64

/-- The number of one bits among the `k` lowest. -/
def popFrom (a : Word) : Nat → Nat
  | 0 => 0
  | k + 1 => popFrom a k + (if a.getLsbD k then 1 else 0)

/-- POPC (R166). -/
def popc (a : Word) : Nat := popFrom a 64

/-- BREV (R166): bit i moves to bit 63 − i. -/
def brev (a : Word) : Word := a.reverse

/-- PADD and PSUB (R167): the tag is kept, the address is modulo 2^56. -/
def ptrAdd (p d : Word) : Word :=
  (p.extractLsb' 56 8 : BitVec 8) ++ ((p.extractLsb' 0 56 : BitVec 56) + (d.extractLsb' 0 56 : BitVec 56))
def ptrSub (p d : Word) : Word :=
  (p.extractLsb' 56 8 : BitVec 8) ++ ((p.extractLsb' 0 56 : BitVec 56) - (d.extractLsb' 0 56 : BitVec 56))

/-- Whether a control word of BFX, BFXS and BFI is legal (R168). -/
def bfOk (c : Word) : Bool :=
  c.extractLsb' 15 49 == 0 && c.extractLsb' 6 2 == 0 && (c.extractLsb' 8 7).toNat ≤ 64 &&
    (c.extractLsb' 0 6).toNat + (c.extractLsb' 8 7).toNat ≤ 64

/-- POS and LEN of a control word (R168). -/
def bfPos (c : Word) : Nat := (c.extractLsb' 0 6).toNat
def bfLen (c : Word) : Nat := (c.extractLsb' 8 7).toNat

/-- The field of R168, zero-extended. -/
def bfx (a c : Word) : Word := BitVec.ofNat 64 (a.toNat / 2 ^ bfPos c % 2 ^ bfLen c)

/-- The field of R168, sign-extended from its length; 0 for length 0. -/
def bfxs (a c : Word) : Word :=
  let f := (bfx a c).toNat
  if bfLen c = 0 then 0
  else if f < 2 ^ (bfLen c - 1) then BitVec.ofNat 64 f else BitVec.ofInt 64 ((f : Int) - 2 ^ bfLen c)

/-- BFI (R168). -/
def bfi (a b c : Word) : Word :=
  let mask := BitVec.ofNat 64 ((2 ^ bfLen c - 1) * 2 ^ bfPos c)
  (a &&& ~~~mask) ||| (BitVec.ofNat 64 (b.toNat % 2 ^ bfLen c * 2 ^ bfPos c) &&& mask)


/-- The condition of a BC (R170). -/
def condHolds (c : Sys2Proof.Cond) (x y : Word) : Bool :=
  match c with
  | .eq => x == y
  | .ne => x != y
  | .lt => x.slt y
  | .ge => !x.slt y
  | .ltn => x.ult y
  | .gen => !x.ult y
  | .any => x &&& y != 0
  | .none => x &&& y == 0

end Sys2Proof.Machine
end

