-- ==== Sys2Proof/Machine/Operands.lean ====
section
/-! DEFINITION. Addresses and operand checks: effective addresses, tile addresses, counter ids and local addresses, the page walk,
and the checks of every access in the order ALIGN, PARTITION, XLATE, ACCESS (spec/ 07 R106 to R118, 13 R186, R187, 05 R30). -/

namespace Sys2Proof.Machine

/-! ### Traps -/

/-- What a failed check raises: a code of R275 and the reported address. -/
structure Trap where
  code : Byte
  addr : Addr
deriving DecidableEq, Repr

def trapIllegal : Trap := ⟨0x01, 0⟩
def trapPrivileged : Trap := ⟨0x02, 0⟩
def trapIllOperand : Trap := ⟨0x03, 0⟩
def trapAlign (a : Addr) : Trap := ⟨0x04, a⟩
def trapXlate (a : Addr) : Trap := ⟨0x05, a⟩
def trapAccess (a : Addr) : Trap := ⟨0x06, a⟩
def trapPartition (a : Addr) : Trap := ⟨0x07, a⟩
def trapSendOvf : Trap := ⟨0x08, 0⟩
def trapFetch (a : Addr) : Trap := ⟨0x09, a⟩
def trapMigrate : Trap := ⟨0x0A, 0⟩
def trapMcheck (a : Addr) : Trap := ⟨0x0B, a⟩
def trapHlimit : Trap := ⟨0x12, 0⟩

/-! ### Effective addresses (R106, R186) -/

/-- ADDR of an address operand: bits [55:0]. -/
def addrOf (w : Word) : Addr := w.extractLsb' 0 56

/-- The tag byte of a fat pointer: bits [63:56] (R53). -/
def tagOf (w : Word) : Byte := w.extractLsb' 56 8

/-- The effective address of an M-format access. -/
def effAddr (base : Word) (scale : Nat) (disp : BitVec 12) : Addr :=
  addrOf base + BitVec.ofNat 56 scale * disp.signExtend 56

/-- Whether an address lies in tile space. -/
def inTileSpace (a : Addr) : Bool := a.extractLsb' 55 1 == 1

/-- PKG and TILE of a tile-space address. -/
def tsPkg (a : Addr) : Nat := (a.extractLsb' 40 15).toNat
def tsTile (a : Addr) : Nat := (a.extractLsb' 28 12).toNat
def tsZero (a : Addr) : Bool := a.extractLsb' 21 7 == 0
def tsOff (a : Addr) : Nat := (a.extractLsb' 0 21).toNat

/-- A tile address in the layout of R187. -/
def tileAddr (pkg tile : Nat) : Word := BitVec.ofNat 64 (pkg % 0x8000 * 0x1000 + tile % 0x1000)

/-- The packages a partition spans, rising (R253): its own and those whose PARTITION named the same ASID (R325). -/
def State.pkgsOf (s : State) (p : Partition) : List Nat :=
  (s.vest.peers.filter fun q => q.asid == p.asid).foldl (fun l q => ins l q.pkg) (p.pkgs.foldl ins [])

/-- Whether a tile of a package belongs to a partition of this package (R27). -/
def State.partHas (s : State) (p : Partition) (pkg tile : Nat) : Bool :=
  if pkg = s.pkg then p.tiles.contains tile
  else s.vest.peers.any fun q => q.pkg == pkg && q.asid == p.asid && q.tiles.contains tile

/-- Whether a package and tile, after substitution, pass the check of R30 for tile `me`: they belong to its partition. -/
def State.inPartition (s : State) (me pkg tile : Nat) : Bool :=
  (pkg == s.pkg && tile == me) ||
    match s.partOf me with
    | some (_, p) => s.partHas p pkg tile
    | none => false

/-- The tile a number in a word means on a package, for tile `me`: 0xFFF is the tile's own number (R22, R318). -/
def State.tileOn (s : State) (me pkg n : Nat) : Nat :=
  if n = 0xFFF then me
  else
    match s.partOf me with
    | some (_, p) => s.partTile p pkg n
    | none => n

/-- A destination in a register (R187, R30): the package and tile of the partition, or a host egress queue the job owns. -/
def State.destOf (s : State) (me : Nat) (w : Word) : Except Trap (Nat × Nat) :=
  if w.extractLsb' 27 37 ≠ 0 then .error trapIllOperand
  else
    let rawPkg := (w.extractLsb' 12 15).toNat
    let pkg := s.pkgOn me rawPkg
    let raw := (w.extractLsb' 0 12).toNat
    if pkg = Config.hostPackage then
      match s.jobOf me with
      | some j => if j.hostq.contains raw then .ok (pkg, raw) else .error (trapPartition (addrOf (tileAddr pkg raw)))
      | none => .error (trapPartition (addrOf (tileAddr pkg raw)))
    else
      if s.inPartition me pkg (s.tileOn me pkg raw) then .ok (pkg, s.tileOn me pkg raw)
      else .error (trapPartition (addrOf (tileAddr (if rawPkg = Config.thisPackage then s.jobPkg me s.pkg else rawPkg)
        (if raw = 0xFFF then s.jobTile me else raw))))

/-- A counter id in a register (R187). -/
def counterOf (w : Word) : Except Trap Nat :=
  if w.toNat ≤ 255 then .ok w.toNat else .error trapIllOperand

/-- Whether the operand is a local address of tile `me` (R187); whether its range exists is checked after. -/
def State.isLocal (s : State) (me : Nat) (w : Word) : Bool :=
  inTileSpace (addrOf w) && s.pkgOn me (tsPkg (addrOf w)) == s.pkg &&
    (tsTile (addrOf w) == 0xFFF || tsTile (addrOf w) == s.jobTile me)

/-! ### Where bytes live (R106 to R108) -/

/-- The scratchpad size of a tile of the partition of tile `me`: on another package that of the job, whose ACCQ all its tiles share (R110). -/
def State.scratchOf (s : State) (me pkg tile : Nat) : Nat := if pkg = s.pkg then s.scratch tile else s.scratch me

/-- A tile-space range of `n` bytes, for tile `me`: PARTITION, then ACCESS (R30, R107). -/
def State.tilePiece (s : State) (me : Nat) (a : Addr) (n : Nat) : Except Trap Piece :=
  let pkg := s.pkgOn me (tsPkg a)
  let tile := s.tileOn me pkg (tsTile a)
  if s.inPartition me pkg tile = false then .error (trapPartition a)
  else if tsZero a = false ∨ s.scratchOf me pkg tile < tsOff a + n then .error (trapAccess a)
  else .ok { pkg := pkg, node := tile, key := poolBase tile + tsOff a, len := n, addr := a, page := none }

/-! ### The page walk (R114, R115) -/

/-- A valid leaf: the entry, the first virtual address of its page, and the page's size. -/
structure Leaf where
  pte  : Word
  base : Nat
  size : Nat
deriving DecidableEq, Repr

def pteV (e : Word) : Bool := e.extractLsb' 0 1 == 1
def pteLeaf (e : Word) : Bool := e.extractLsb' 1 1 == 1
def pteW (e : Word) : Bool := e.extractLsb' 2 1 == 1
def pteX (e : Word) : Bool := e.extractLsb' 3 1 == 1
def pteSpb (e : Word) : Bool := e.extractLsb' 4 1 == 1
def ptePkg (e : Word) : Nat := (e.extractLsb' 49 15).toNat
/-- PA[39:8] of the entry, as an address. -/
def ptePa (e : Word) : Nat := (e.extractLsb' 8 32).toNat * 256

/-- Whether a package field of a page-table entry names a package (R22). -/
def namesPackage (p : Nat) : Bool := p < 4096 || p == Config.thisPackage

/-- The parts of an entry's validity that do not depend on its level: V, the reserved bits, PKG (R115). -/
def pteOk (e : Word) : Bool :=
  pteV e && e.extractLsb' 40 9 == 0 && e.extractLsb' 5 3 == 0 && namesPackage (ptePkg e)

/-- Whether a leaf may stand at a level whose pages have this size, and its place exists (R114, R115). A scratchpad leaf names a
tile and an offset; the rest of its ADDR is not used (log entry 10). -/
def leafOk (e : Word) (size : Nat) : Bool :=
  if pteSpb e then size == 0x10000
  else size ≤ 0x40000000 && ptePa e % size == 0 && ptePa e < Config.hbmBytes

/-- An entry of a page table: of this package's memory, or what another package holds there (log entry 11). R285 names no consumer for a page
walk that meets uncorrectable data: the entry is used unchecked (DESIGN CHOICE, log entry 74). -/
def State.tableWord (s : State) (pkg k : Nat) : Word :=
  if s.pkgOf pkg = s.pkg then s.read64 k else Config.remoteWord (s.pkgOf pkg) k s.cycle

/-- The walk below a table of a package: one (page size, entries) pair for each level left. -/
def State.walkFrom (s : State) (va : Nat) : Nat → Nat → List (Nat × Nat) → Option Leaf
  | _, _, [] => none
  | pkg, table, (size, entries) :: levels =>
    if Config.hbmBytes ≤ table ∨ namesPackage pkg = false then none
    else
      let e := s.tableWord pkg (table + 8 * (va / size % entries))
      if pteOk e = false then none
      else if pteLeaf e then
        if leafOk e size then some { pte := e, base := va / size * size, size := size } else none
      else
        match levels with
        | [] => none
        | (_, n) :: _ =>
          if ptePa e % (8 * n) ≠ 0 then none else s.walkFrom va (ptePkg e) (ptePa e) levels

/-- The five levels of R114: page size and entries. -/
def walkLevels : List (Nat × Nat) :=
  [(0x1000000000000, 128), (0x8000000000, 512), (0x40000000, 512), (0x200000, 512), (0x10000, 32)]

/-- The walk of a tile's page table. -/
def State.walk (s : State) (t va : Nat) : Option Leaf :=
  s.walkFrom va ((s.getTile t).regs.xpkg.toNat) ((s.getTile t).regs.xroot.toNat * 1024) walkLevels

/-- The places of this package that the walk below a table reads. -/
def State.keysFrom (s : State) (va : Nat) : Nat → Nat → List (Nat × Nat) → List Nat
  | _, _, [] => []
  | pkg, table, (size, entries) :: levels =>
    let k := table + 8 * (va / size % entries)
    let e := s.tableWord pkg k
    (if s.pkgOf pkg = s.pkg then [k] else [])
      ++ (if pteV e && !pteLeaf e then s.keysFrom va (ptePkg e) (ptePa e) levels else [])

/-- A cached translation of an address under an ASID. -/
def tlbFind (l : List Tlb) (asid : BitVec 16) (va : Nat) : Option Leaf :=
  (l.find? fun e => e.asid == asid && e.base ≤ va && va < e.base + e.size).map fun e =>
    { pte := e.pte, base := e.base, size := e.size }

/-- The leaf that translates an address for a tile: its micro-translation cache, the DTU cache of its die, or the walk (R118). -/
def State.leafOf (s : State) (t va : Nat) : Option Leaf :=
  match tlbFind (s.getTile t).tlb (s.getTile t).regs.asid va with
  | some l => some l
  | none =>
    match tlbFind (s.getDie (dieOfTile t)).dtu (s.getTile t).regs.asid va with
    | some l => some l
    | none => s.walk t va

/-- The places of this package that translating an address for a tile reads: none where a cache holds the translation. -/
def State.tableKeys (s : State) (t va : Nat) : List Nat :=
  let r := (s.getTile t).regs
  if (tlbFind (s.getTile t).tlb r.asid va).isSome || (tlbFind (s.getDie (dieOfTile t)).dtu r.asid va).isSome then []
  else s.keysFrom va r.xpkg.toNat (r.xroot.toNat * 1024) walkLevels

/-- A cache with an entry added; the oldest makes room (R118). -/
def tlbAdd (l : List Tlb) (room : Nat) (e : Tlb) : List Tlb :=
  if l.any (fun x => x.asid == e.asid && x.base == e.base && x.size == e.size) then l
  else e :: l.take (room - 1)

/-- Fills the caches with the translation an access has used. -/
def State.fillTlb (s : State) (t va : Nat) : State :=
  match s.leafOf t va with
  | none => s
  | some l =>
    let e : Tlb := { asid := (s.getTile t).regs.asid, base := l.base, size := l.size, pte := l.pte }
    (s.modTile t fun x => { x with tlb := tlbAdd x.tlb Config.microTlb e }).modDie (dieOfTile t)
      fun d => { d with dtu := tlbAdd d.dtu Config.dtuTlb e }

/-! ### Checked access -/

/-- What an access needs of the pages it touches. -/
structure Need where
  write   : Bool
  scratch : Bool
deriving DecidableEq, Repr

def needRead : Need := ⟨false, false⟩
def needWrite : Need := ⟨true, false⟩

/-- The parts of a paged range: at most one page boundary is crossed (R109). What a range does past virtual address 2^55 is not said: it goes
on at 0 (DESIGN CHOICE, log entry 66). -/
def pageParts (a n : Nat) : List (Nat × Nat) :=
  let room := 0x10000 - a % 0x10000
  if n ≤ room then [(a, n)] else [(a, room), ((a + room) % 0x80000000000000, n - room)]

/-- Whether a page of HBM is held by the Vestibule for itself: a Gallery, a snapshot area, page tables (R76, R297). -/
def State.heldPage (s : State) (pa : Nat) : Bool :=
  s.vest.pages.any fun p => p.num == pa / 0x10000 && p.va == none

/-- The place a leaf gives an address. -/
def State.leafPlace (s : State) (l : Leaf) (va n : Nat) : Piece :=
  if pteSpb l.pte then
    { pkg := s.pkgOf (ptePkg l.pte), node := (l.pte.extractLsb' 28 12).toNat,
      key := poolBase (l.pte.extractLsb' 28 12).toNat + (l.pte.extractLsb' 16 5).toNat * 0x10000 + va % 0x10000, len := n,
      addr := BitVec.ofNat 56 va, page := some (va / 0x10000) }
  else
    { pkg := s.pkgOf (ptePkg l.pte), node := Config.memoryNode (homeDie (ptePa l.pte + (va - l.base))),
      key := ptePa l.pte + (va - l.base), len := n, addr := BitVec.ofNat 56 va, page := some (va / 0x10000) }

/-- The place of a paged part through its leaf, or ACCESS (R112, R115, R117, R76). What another package's tile or Vestibule keeps for
itself is checked there: an owner's LOADJOB lets a window lie in its scratchpad only (R32). -/
def State.leafPiece (s : State) (need : Need) (l : Leaf) (va n : Nat) : Except Trap Piece :=
  let p := s.leafPlace l va n
  let own := p.pkg == s.pkg
  if need.write && !pteW l.pte then .error (trapAccess (BitVec.ofNat 56 va))
  else if pteSpb l.pte then
    if own && s.scratch p.node < (p.key - poolBase p.node) + n then .error (trapAccess (BitVec.ofNat 56 va)) else .ok p
  else if need.scratch || (own && s.heldPage p.key) then .error (trapAccess (BitVec.ofNat 56 va))
  else .ok p

/-- Every part's leaf, or XLATE at the first part without one. -/
def State.leaves (s : State) (t : Nat) : List (Nat × Nat) → Except Trap (List (Leaf × Nat × Nat))
  | [] => .ok []
  | (va, n) :: ps =>
    match s.leafOf t va with
    | none => .error (trapXlate (BitVec.ofNat 56 va))
    | some l =>
      match s.leaves t ps with
      | .error e => .error e
      | .ok ls => .ok ((l, va, n) :: ls)

/-- The places of parts whose leaves are found, or the first ACCESS. -/
def State.leafPieces (s : State) (need : Need) : List (Leaf × Nat × Nat) → Except Trap (List Piece)
  | [] => .ok []
  | (l, va, n) :: ls =>
    match s.leafPiece need l va n with
    | .error e => .error e
    | .ok p =>
      match s.leafPieces need ls with
      | .error e => .error e
      | .ok ps => .ok (p :: ps)

/-- The checks of R109 on an access of `n` bytes by tile `t`, and the places it reaches. -/
def State.resolve (s : State) (t : Nat) (a : Addr) (n align : Nat) (need : Need) : Except Trap (List Piece) :=
  if a.toNat % align ≠ 0 then .error (trapAlign a)
  else if inTileSpace a then
    match s.tilePiece t a n with
    | .error e => .error e
    | .ok p => .ok [p]
  else
    match s.leaves t (pageParts a.toNat n) with
    | .error e => .error e
    | .ok ls => s.leafPieces need ls

/-- The single place of an access that cannot cross a page. -/
def State.resolve1 (s : State) (t : Nat) (a : Addr) (n align : Nat) (need : Need) : Except Trap Piece :=
  match s.resolve t a n align need with
  | .error e => .error e
  | .ok (p :: _) => .ok p
  | .ok [] => .error trapIllOperand

/-- Fills the caches for a paged access. -/
def State.touch (s : State) (t : Nat) (a : Addr) (n : Nat) : State :=
  if inTileSpace a then s else (pageParts a.toNat n).foldl (fun s p => s.fillTlb t p.1) s

/-- The place of a fetched halfword, or FETCH or XLATE (R115, R140). -/
def State.fetchPiece (s : State) (t : Nat) (a : Addr) : Except Trap Piece :=
  if inTileSpace a then .error (trapFetch a)
  else
    match s.leafOf t a.toNat with
    | none => .error (trapXlate a)
    | some l =>
      if pteX l.pte = false then .error (trapFetch a) else .ok (s.leafPlace l a.toNat 2)

/-- The halfword at a place: of this package's memory, or what another package holds there (log entry 11). -/
def State.halfAt (s : State) (p : Piece) : Nat :=
  if p.pkg = s.pkg then s.readNat p.key 2 else (Config.remoteHalf p.pkg p.key s.cycle).toNat

end Sys2Proof.Machine
end

