-- ==== Sys2Proof/Machine/Landing.lean ====
section
/-! DEFINITION. The Landing: placement, refill, local arrivals, dispatch and the freeing of slots (spec/ 05 R72 to R83, R98). -/

namespace Sys2Proof.Machine

/-- Native priority of a message (R72). -/
def Entry.prio (e : Entry) : Nat := e.hdr.prio.toNat

/-- Whether all flits of a message are present (R74). -/
def Entry.complete (e : Entry) : Bool := e.present.length == e.hdr.nflit.toNat + 1

/-- Occupancy N[p] (R72). -/
def Landing.occ (l : Landing) (p : Nat) : Nat := (l.slots.filter fun e => e.prio == p).length

/-- The records of ring p (R75). -/
def Landing.records (l : Landing) (p : Nat) : List Entry := l.spill.filter fun e => e.prio == p && !e.golden

/-- Whether a golden message of priority p is pending (R74). -/
def Landing.goldenOf (l : Landing) (p : Nat) : Bool := l.spill.any fun e => e.prio == p && e.golden

/-- Whether the reserved slot is free (R72, R74). -/
def Landing.reservedFree (l : Landing) : Bool := l.reserved.isNone && !l.spill.any (·.golden)

/-- The size of ring p in records. -/
def Landing.ring (l : Landing) (p : Nat) : Nat := l.rings.getD p 0

/-- D[p] of QDEPTH (R73). -/
def TileRegs.depth (r : TileRegs) (p : Nat) : Nat := r.qdepth.toNat / 64 ^ p % 64

/-- The lowest record number of a ring that no record holds. -/
def freeRec (used : List Nat) : Nat → Nat → Nat
  | 0, i => i
  | n + 1, i => if used.contains i then freeRec used n (i + 1) else i

/-- The placement of a message (R74): the Landing with it, or none where it is refused. -/
def Landing.place (l : Landing) (r : TileRegs) (e : Entry) : Option Landing :=
  if l.occ e.prio < r.depth e.prio ∧ l.records e.prio = [] ∧ l.goldenOf e.prio = false then
    some { l with slots := l.slots ++ [e] }
  else if (l.records e.prio).length < l.ring e.prio then
    some { l with spill := l.spill ++ [{ e with recNo := freeRec ((l.records e.prio).map (·.recNo)) (l.ring e.prio) 0 }] }
  else if e.age = 4095 ∧ l.reservedFree then
    some { l with spill := l.spill ++ [{ e with golden := true }] }
  else none

/-- A record of 288 bytes (R76): a header, the AGE of the first flit, 256 bytes of payload, ACCEPT, and the flits present. -/
def recordBytes (h : Header) (age : BitVec 12) (payload : List Byte) (accept : Nat) (present : List (BitVec 2)) : List Byte :=
  leBytes 8 h.h0.toNat ++ leBytes 8 (h.h1 0 age).toNat ++ (payload ++ List.replicate (256 - payload.length) 0).take 256
    ++ leBytes 8 accept ++ leBytes 8 ((present.foldl (fun n i => n + 2 ^ i.toNat) 0) + if age = 4095 then 16 else 0)

/-- The record of a message (R76). -/
def Entry.bytes (e : Entry) : List Byte := recordBytes e.hdr e.age (bytesOf e.words) e.accept e.present

/-- Where record i of a tile's Gallery lies in HBM, if the tile has a Gallery: the rings' records, then the freeze log's (R76). -/
def State.galleryAt (s : State) (t i : Nat) : Option Nat :=
  match s.partOf t with
  | none => none
  | some (_, q) => q.job.map fun j => j.gallery + (q.tiles.findIdx (· == t)) * j.galleryBytes + 288 * i

/-- Where ring p's record i of a tile lies. -/
def State.recordAt (s : State) (t p i : Nat) : Option Nat := s.galleryAt t (((s.getTile t).land.rings.take p).sum + i)

/-! ### Payloads of other kinds (log entry 6) -/

/-- The payload bytes of a request: the data it carries, or its operands. -/
def opPayload : MemOp → List Byte
  | .read ps => bytesOf (ps.flatMap fun p => [BitVec.ofNat 64 p.key, BitVec.ofNat 64 p.len])
  | .fe _ a w => bytesOf [BitVec.ofNat 64 a, w]
  | .vldW a => bytesOf [BitVec.ofNat 64 a]
  | .write ps _ _ => ps.flatMap (·.2)
  | .amo _ _ a b c => bytesOf [BitVec.ofNat 64 a, b, c]
  | .addLanes t ls => ls.flatMap fun l => leBytes (t.width / 8) l.2.toNat
  | .ring _ a x y => bytesOf [BitVec.ofNat 64 a, x, y]

/-- The payload bytes of a flit's body. -/
def bodyPayload : Body → List Byte
  | .words ws => bytesOf ws
  | .request _ op => opPayload op
  | .incr cid amount => bytesOf [cid, amount]
  | .trig => []
  | .lock r => bytesOf [r.name, r.ts, r.handle]
  | .reply _ (.data ps) => ps.flatMap (·.2)
  | .reply _ (.val w f) => bytesOf [w, zext64 f]
  | .reply .. => []
  | .lockReply (.answer _ name handle _ mode) => bytesOf [name, handle, zext64 mode]
  | .lockReply (.wound name ts handle) => bytesOf [name, ts, handle]
  | .lockReply (.recall region serial) => bytesOf [BitVec.ofNat 64 region, BitVec.ofNat 64 serial]
  | .lockReply (.hold region shared) => bytesOf [BitVec.ofNat 64 region, if shared then 1 else 0]

/-- The 64 bytes that travel in a flit. -/
def flitBytes (f : Flit) : List Byte :=
  let here := match f.body with
    | .words ws => bytesOf ws
    | b => ((bodyPayload b).drop (64 * f.fidx.toNat)).take 64
  here ++ List.replicate (64 - here.length) 0

/-- The record of one flit (R100): the 64 bytes that travel in it stand at their place in the payload. -/
def flitRecord (f : Flit) (accept : Nat) : List Byte :=
  recordBytes f.hdr f.age (List.replicate (64 * f.fidx.toNat) 0 ++ flitBytes f) accept [f.fidx]

/-- Writes the record of a spilled message to the Gallery. -/
def State.writeRecord (s : State) (t : Nat) (e : Entry) : State :=
  match s.recordAt t e.prio e.recNo with
  | some k => if e.golden then s else s.write k e.bytes
  | none => s

/-- Writes the Gallery record of the entry `key` if it is spilled. -/
def State.syncRecord (s : State) (t key : Nat) : State :=
  match (s.getTile t).land.spill.find? (·.key == key) with
  | some e => s.writeRecord t e
  | none => s

/-- A message at the moment of its placement: a new key, ACCEPT now, eligible from the next cycle. -/
def State.fresh (s : State) (t : Nat) (e : Entry) : Entry :=
  { e with key := (s.getTile t).land.next, accept := s.cycle, ready := s.cycle + 1, unread := false, golden := false,
           aged := false, hold := false, ctx := none }

/-- A message is placed at a tile, or refused. -/
def State.place (s : State) (t : Nat) (e : Entry) : Option State :=
  match (s.getTile t).land.place (s.getTile t).regs (s.fresh t e) with
  | none => none
  | some l =>
    some ((s.modTile t fun x => { x with land := { l with next := l.next + 1 } }).syncRecord t (s.getTile t).land.next)

/-- Refill of priority p (R75): the oldest entry of ring p's order takes a free ordinary slot. -/
def Landing.refill (l : Landing) (r : TileRegs) (now p : Nat) : Landing :=
  if l.occ p < r.depth p then
    match l.spill.find? fun e => e.prio == p with
    | none => l
    | some e =>
      { l with
        slots := l.slots ++ [if e.golden then { e with golden := false, ready := now + 1 } else { e with unread := true }]
        spill := l.spill.filter (·.key != e.key) }
  else l

/-- Frees the slot of a message and refills its priority (R75). -/
def State.freeSlot (s : State) (t key : Nat) : State :=
  match (s.getTile t).land.slots.find? (·.key == key) with
  | none => s
  | some e =>
    s.modTile t fun x =>
      { x with land := { x.land with slots := x.land.slots.filter (·.key != key) }.refill x.regs s.cycle e.prio }

/-- The message of a key in a slot. -/
def Tile.entry (x : Tile) (key : Nat) : Option Entry := x.land.slots.find? (·.key == key)

/-- Changes the message of a key in a slot. -/
def State.modEntry (s : State) (t key : Nat) (f : Entry → Entry) : State :=
  s.modTile t fun x => { x with land := { x.land with slots := updateWhere x.land.slots (·.key == key) f } }

/-- Returns a message to the head of its queue, keeping its slot and ACCEPT (R83). -/
def State.toHead (s : State) (t key : Nat) (f : Entry → Entry) : State :=
  match (s.getTile t).entry key with
  | none => s
  | some e =>
    s.modTile t fun x =>
      { x with land := { x.land with slots := { f e with ctx := none } :: x.land.slots.filter (·.key != key) } }

/-- Refill of every priority, as far as slots are free (R75, R99). -/
def Landing.refillAll (l : Landing) (r : TileRegs) (now : Nat) : Landing :=
  [0, 1, 2, 3].foldl (fun l p => (List.range Config.landingSlots).foldl (fun l _ => l.refill r now p) l) l

/-- A handler's context ends in cycle `now` and is idle from the next cycle (R83). -/
def Ctx.end_ (now : Nat) (c : Ctx) : Ctx :=
  { c with run := .idle, sends := [], posts := [], held := none, late := [], avail := now + 1, gen := c.gen + 1 }

/-- Whether a context is idle in a cycle. -/
def Ctx.idleAt (c : Ctx) (now : Nat) : Bool := c.run == .idle && c.avail ≤ now

/-! ### Figures of a frame tag (R93) -/

/-- Adds to SENT and RECV of a tag. Tag 0 is counted as well; nothing reads it. -/
def Tile.addFig (x : Tile) (tag : BitVec 12) (sent recv : Nat) : Tile :=
  let f := (mget x.figs tag.toNat).getD (0, 0)
  { x with figs := mput x.figs tag.toNat (f.1 + sent, f.2 + recv) }

/-- Whether a kind counts as SENT and RECV. -/
def countedKind (k : BitVec 4) : Bool := k == 0 || k == 4 || k == 6

/-- One local arrival (R74): placed, or kept to retry in the next cycle. A REQUEUE's context is freed when it is placed. -/
def State.tryArrival (s : State) (t : Nat) (a : Arrival) : Option State :=
  match s.place t a.entry with
  | none => none
  | some s' =>
    some (match a.ctx with
      | some c => s'.modCtx t c (Ctx.end_ s.cycle)
      | none => s'.modTile t fun x => x.addFig a.entry.hdr.ftag 0 (if countedKind a.entry.hdr.kind then 1 else 0))

/-- Adds a local arrival behind those that wait. -/
def State.keepArrival (s : State) (t : Nat) (a : Arrival) : State :=
  s.modTile t fun x => { x with land := { x.land with again := x.land.again ++ [a] } }

/-- A local arrival is made; one behind another of its priority that waits, waits too. -/
def State.arrive (s : State) (t : Nat) (a : Arrival) : State :=
  if (s.getTile t).land.again.any fun b => b.entry.prio == a.entry.prio then s.keepArrival t a
  else
    match s.tryArrival t a with
    | some s' => s'
    | none => s.keepArrival t a

/-- The waiting local arrivals are tried again, in order. -/
def State.retryArrivals (s : State) (t : Nat) : State :=
  (s.getTile t).land.again.foldl (fun s a => s.arrive t a)
    (s.modTile t fun x => { x with land := { x.land with again := [] } })

/-- The message of a header and payload words, not yet placed. -/
def Entry.ofWords (h : Header) (age : BitVec 12) (ws : List Word) : Entry :=
  { key := 0, hdr := h, age := age, words := ws ++ List.replicate (8 * (h.nflit.toNat + 1) - ws.length) 0,
    present := (List.range (h.nflit.toNat + 1)).map (BitVec.ofNat 2), accept := 0, ready := 0, unread := false,
    golden := false, traps := 0, aged := false, hold := false, ctx := none, recNo := 0 }

/-- Words with eight of them replaced. -/
def putFlit (ws : List Word) (fidx : Nat) (new : List Word) : List Word :=
  ws.take (8 * fidx) ++ (new ++ List.replicate (8 - new.length) 0).take 8 ++ ws.drop (8 * fidx + 8)

/-- Whether an entry is an arriving message that a flit belongs to. -/
def Entry.wants (e : Entry) (f : Flit) : Bool :=
  !e.complete && e.hdr.msgid == f.hdr.msgid && e.hdr.kind == f.hdr.kind && !e.present.contains f.fidx

/-- The payload words of a flit. -/
def flitPayload (f : Flit) : List Word :=
  match f.body with
  | .words ws => ws
  | _ => []

/-- A flit added to its message; a message whose last flit comes is eligible from the next cycle. -/
def Entry.addFlit (e : Entry) (now : Nat) (f : Flit) : Entry :=
  { e with words := putFlit e.words f.fidx.toNat (flitPayload f), present := e.present ++ [f.fidx], ready := Nat.max e.ready (now + 1) }

/-- The message of the first flit accepted. -/
def Entry.ofFlit (f : Flit) : Entry :=
  { Entry.ofWords f.hdr f.age [] with
    words := putFlit (List.replicate (8 * (f.hdr.nflit.toNat + 1)) 0) f.fidx.toNat (flitPayload f), present := [f.fidx] }

/-- A handler flit reaches a Landing: a later flit joins its message, a first flit is placed or refused (R74). The flag says that
it was a first flit. -/
def State.acceptFlit (s : State) (t : Nat) (f : Flit) : Option (State × Bool) :=
  match ((s.getTile t).land.slots ++ (s.getTile t).land.spill).find? (·.wants f) with
  | some e =>
    some ((s.modTile t fun x =>
      { x with land := { x.land with
          slots := updateWhere x.land.slots (·.key == e.key) (·.addFlit s.cycle f)
          spill := updateWhere x.land.spill (·.key == e.key) (·.addFlit s.cycle f) } }).syncRecord t e.key, false)
  | none => (s.place t (.ofFlit f)).map fun s' => (s', true)

/-! ### Dispatch (R79 to R81, R98) -/

/-- The head of queue p: the first message of the priority that no context runs. -/
def Landing.head (l : Landing) (p : Nat) : Option Entry := l.slots.find? fun e => e.prio == p && e.ctx.isNone

/-- Whether a head is eligible (R74, R75, R117). -/
def Entry.eligible (e : Entry) (now : Nat) : Bool := e.complete && e.ready ≤ now && !e.unread && !e.hold

/-- Contexts running handlers of native priority P1 to P3 (R79). -/
def Tile.busyCtxs (x : Tile) (now : Nat) : Nat :=
  (x.ctxs.toList.filter fun c => !c.idleAt now && c.prio != 0).length

/-- The candidate of queue p at level lvl (R79). -/
def Tile.candidate (x : Tile) (now lvl p : Nat) : Option Entry :=
  match x.land.head p with
  | none => none
  | some h =>
    if h.eligible now = false then none
    else if p = lvl + 1 ∧ (x.regs.promo = 0 ∨ now - h.accept ≤ x.regs.promo.toNat) then none
    else if p ≠ 0 ∧ 8 - x.regs.ctxres.toNat ≤ x.busyCtxs now then none
    else some h

/-- The better of two candidates: the lower ACCEPT, the first on a tie. -/
def betterEntry (a b : Option Entry) : Option Entry :=
  match a, b with
  | some x, some y => if y.accept < x.accept then some y else some x
  | some x, none => some x
  | none, y => y

/-- The message dispatched next, by the levels of R79. -/
def Tile.pick (x : Tile) (now : Nat) : List Nat → Option Entry
  | [] => none
  | lvl :: rest =>
    match betterEntry (x.candidate now lvl lvl) (if lvl < 3 then x.candidate now lvl (lvl + 1) else none) with
    | some e => some e
    | none => x.pick now rest

/-- The lowest-numbered idle context. -/
def Tile.idleCtx (x : Tile) (now : Nat) : Option Nat := [0, 1, 2, 3, 4, 5, 6, 7].find? fun c => (x.getCtx c).idleAt now

/-- TILEID (R138). -/
def State.tileId (s : State) (t : Nat) : Word := tileAddr (s.jobPkg t s.pkg) (s.jobTile t)

/-- The context's state at dispatch (R81, R98, R57). Its first instruction issues in the next cycle at the earliest (R79). -/
def Ctx.start (c : Ctx) (e : Entry) (entry tileId srseed : Word) (now hlimit : Nat) : Ctx :=
  let w := fun i => e.words.getD i 0
  let mig := e.hdr.kind == 6
  let g2 := if mig then w 2 else w 0
  { Ctx.reset with
    run := .ready
    pc := if mig then addrOf (w 0) &&& ~~~1 else entry.extractLsb' 8 56
    g := if mig then #v[0, w 1, w 2, w 3, w 4, w 5, w 6, w 7, w 8, w 9, w 10, w 11, w 12, w 13, w 14, w 15]
         else #v[0, e.hdr.h0, w 0, w 1, w 2, w 3, w 4, w 5, 0, 0, 0, 0, 0, 0, 0, 0]
    srng := rngSeed (srseed ^^^ g2 ^^^ (tileId <<< 36) ^^^ (zext64 e.hdr.cls <<< 28))
    sys := entry.extractLsb' 4 1 == 1
    gen := c.gen + 1, key := e.key, cls := e.hdr.cls, prio := e.hdr.prio, ftag := e.hdr.ftag,
    born := now, avail := now + 1, hlimit := hlimit }

/-- Whether the tile dispatches: it belongs to a partition whose job is resident and not sealed, and it is not frozen (R28, R29,
R289, R99). -/
def State.dispatches (s : State) (t : Nat) : Bool :=
  match s.partOf t with
  | some (_, p) => p.job.isSome && !p.sealed_ && !(s.getTile t).frozen
  | none => false

/-- The message and context of the next dispatch of a tile, if it has one. -/
def State.nextDispatch (s : State) (t : Nat) : Option (Entry × Nat) :=
  if s.dispatches t = false then none
  else
    match (s.getTile t).idleCtx s.cycle, (s.getTile t).pick s.cycle [0, 1, 2, 3] with
    | some c, some e => some (e, c)
    | _, _ => none

/-- Dispatch of one message (R79). -/
def State.dispatch (s : State) (t : Nat) : State :=
  match s.nextDispatch t, s.jobOf t with
  | some (e, c), some j =>
    ((s.modEntry t e.key fun x => { x with ctx := some c }).modCtx t c fun k =>
      k.start { e with hdr := s.jobHeader t e.hdr } (j.classes.getD e.hdr.cls.toNat 0) (s.tileId t) (j.srseed) s.cycle
        (s.getTile t).regs.hlimit.toNat)
  | _, _ => s

end Sys2Proof.Machine
end

