-- ==== Sys2Proof/Machine/Send.lean ====
section
/-! DEFINITION. Messages a tile sends: headers and sequence numbers, requests and what they wait for, the outbound queue, replies
(spec/ 05 R66, R67, R92, R93; 13 R188, R198), and the counter unit (R87 to R90). -/

namespace Sys2Proof.Machine

/-! ### Headers -/

/-- PRIO for a class: that of the class table, P0 for the architectural classes (R67, R70, R71). -/
def Job.prioOf (j : Job) (cls : BitVec 8) : BitVec 2 :=
  if 0xFC ≤ cls.toNat then 0 else (j.classes.getD cls.toNat 0).extractLsb' 1 2

/-- Whether job instructions may name a class (R71). -/
def Job.classOk (j : Job) (cls : BitVec 8) : Bool :=
  cls.toNat < 0xFC && (j.classes.getD cls.toNat 0).extractLsb' 0 1 == 1 && (j.classes.getD cls.toNat 0).extractLsb' 4 1 == 0

/-- The header of a message tile `t` sends now (R67). COLOUR is filled in when it is injected. -/
def State.header (s : State) (t : Nat) (kind : BitVec 4) (cls : BitVec 8) (prio : BitVec 2) (ftag : BitVec 12) (nflit : BitVec 2)
    (pkg node : Nat) : Header :=
  { kind := kind, cls := cls, prio := prio, ftag := ftag, nflit := nflit, dpkg := BitVec.ofNat 15 pkg,
    dtile := BitVec.ofNat 12 node, spkg := BitVec.ofNat 15 s.pkg, stile := BitVec.ofNat 12 t, mseq := (s.getTile t).mseq }

/-- A message of tile `t` is sent: MSEQ advances and SENT counts it (R67, R93). -/
def Tile.sentOne (x : Tile) (h : Header) : Tile :=
  { x.addFig h.ftag (if countedKind h.kind then 1 else 0) 0 with mseq := x.mseq + 1 }

/-! ### Outstanding requests (R188) -/

/-- The tags of a context's outstanding accesses: what a release covers. A lock request is no access. -/
def Tile.outTags (x : Tile) (c : Nat) : List Nat := (x.mu.out.filter fun o => o.ctx == c && !o.lock).map (·.tag)

/-- The tags of those that read: what every write of the context waits for (R124). -/
def Tile.readTags (x : Tile) (c : Nat) : List Nat := (x.mu.out.filter fun o => o.ctx == c && !o.lock && o.reads).map (·.tag)

/-- Whether a context has room for `n` more requests, lock requests included. -/
def Tile.roomFor (x : Tile) (c n : Nat) : Bool := (x.mu.out.filter fun o => o.ctx == c).length + n ≤ Config.requestRoom

/-- Whether an earlier request of the context to one of these granules is outstanding. -/
def Tile.granuleBusy (x : Tile) (c : Nat) (gs : List Nat) : Bool :=
  x.mu.out.any fun o => o.ctx == c && o.grs.any gs.contains

/-- The granules an outstanding request reaches at either end: a GET's local ones are among them. -/
def Outst.allGrs (o : Outst) : List Nat := o.grs ++ (o.get.map (·.grs)).getD []

/-- Whether a request must not be sent yet: one of its granules is reached, at either end, by an earlier request of the context (R188).
A plain load of the tile's own scratchpad does not wait for a GET that lands there (R200). -/
def Tile.endsBusy (x : Tile) (c : Nat) (gs : List Nat) : Bool :=
  x.mu.out.any fun o => o.ctx == c && o.allGrs.any gs.contains

/-- A request to be sent: its destination, kind and body, and what the tile remembers of it. -/
structure Request where
  kind  : BitVec 4
  pkg   : Nat
  node  : Nat
  op    : MemOp
  grs   : List Nat
  pages : List Nat
  spots : List Spot
  get   : Option GetEnd
deriving DecidableEq, Repr

/-- The identifier of the message a context of a tile runs; zero for the tile's own units. -/
def State.msgidOf (s : State) (t c : Nat) : Word :=
  match (s.getTile t).entry (s.getCtx t c).key with
  | some e => if c < 8 then (s.jobHeader t e.hdr).msgid else 0
  | none => 0

/-- Sends a request of a context: it is outstanding from now, and injected once the requests `after` are complete. Its tag is the
unit's next one. -/
def State.request (s : State) (t c : Nat) (r : Request) (after : List Nat) : State :=
  let x := s.getTile t
  let k := x.getCtx c
  let tag := x.mu.nextTag
  let h := (s.header t r.kind 0 0 k.ftag 0 r.pkg r.node).sized (.request tag r.op)
  s.setTile t
    { x.sentOne h with
      mu := { x.mu with
        nextTag := tag + 1
        out := x.mu.out ++ [{ tag := tag, ctx := c, gen := k.gen, grs := r.grs, pages := r.pages, spots := r.spots, get := r.get,
                              reads := r.kind != 2, pc := k.pc,
                              msgid := s.msgidOf t c, ftag := k.ftag, lock := false }]
        queue := x.mu.queue ++ [{ msg := { hdr := h, body := .request tag r.op }, after := after }] } }

/-- Sends an unbuffered message without a reply: a kind-4 increment or a kind-0 message of a counter action. -/
def State.sendNow (s : State) (t : Nat) (h : Header) (b : Body) (after : List Nat) : State :=
  s.modTile t fun x =>
    { x.sentOne h with mu := { x.mu with queue := x.mu.queue ++ [{ msg := { hdr := h, body := b }, after := after }] } }

/-- Sends a lock request of a tile to the Newel instance of a die, outstanding from now; `c` is the context it counts for, 8 for the
client itself. The request takes the unit's next tag. -/
def State.lockRequest (s : State) (t c pkg die : Nat) (ftag : BitVec 12) (r : LockReq) (after : List Nat) : State :=
  let x := s.getTile t
  let h := s.header t 5 0 0 ftag 0 pkg (Config.newelNode die)
  let k := x.getCtx c
  s.setTile t
    { x.sentOne h with
      mu := { x.mu with
        nextTag := x.mu.nextTag + 1
        out := x.mu.out ++ [{ tag := x.mu.nextTag, ctx := c, gen := k.gen, grs := [], pages := [], spots := [], get := none, reads := false, pc := k.pc,
                              msgid := s.msgidOf t c, ftag := ftag, lock := true }]
        queue := x.mu.queue ++ [{ msg := { hdr := h, body := .lock { r with tag := x.mu.nextTag } }, after := after }] } }

/-- A message made on the tile itself: a counter launch or a delivery of the lock client, with header fields as R82 gives them. It is
sent and, once placed, received by the tile (log entry 16). -/
def State.launchLocal (s : State) (t : Nat) (cls : BitVec 8) (prio : BitVec 2) (ftag : BitVec 12) (ws : List Word) : State :=
  let h := { s.header t 0 cls prio ftag 0 s.pkg t with colour := (s.getTile t).snap.colour }
  (s.modTile t fun x => x.sentOne h).arrive t { entry := Entry.ofWords h 0 ws, ctx := none }

/-- A message of the lock client to its own tile: a local arrival, placed behind the ejections of both planes (R68, R74). -/
def State.launchLater (s : State) (t : Nat) (cls : BitVec 8) (prio : BitVec 2) (ftag : BitVec 12) (ws : List Word) : State :=
  let h := { s.header t 0 cls prio ftag 0 s.pkg t with colour := (s.getTile t).snap.colour }
  (s.modTile t fun x => x.sentOne h).keepArrival t { entry := Entry.ofWords h 0 ws, ctx := none }

/-- A message of VN1 for the requester of `h` (R67, R68): the reply to a request, from node `node`. -/
def replyTo (h : Header) (kind : BitVec 4) (colour : BitVec 1) (pkg node : Nat) (mseq : BitVec 16) (b : Body) : Msg :=
  { hdr := Header.sized { kind := kind, ftag := h.ftag, colour := colour, dpkg := h.spkg, dtile := h.stile, spkg := BitVec.ofNat 15 pkg,
                          stile := BitVec.ofNat 12 node, mseq := mseq } b
    body := b }

/-- A tile sends a message on VN1: it takes the tile's MSEQ (R67). -/
def Tile.sendVn1 (x : Tile) (m : Msg) : Tile :=
  { x with mseq := x.mseq + 1, vn1 := x.vn1 ++ [{ m with hdr := { m.hdr with mseq := x.mseq } }] }

/-- A tile's memory unit sends a reply. -/
def State.tileReply (s : State) (t : Nat) (h : Header) (kind : BitVec 4) (b : Body) : State :=
  s.modTile t fun x => x.sendVn1 (replyTo h kind x.snap.colour s.pkg t x.mseq b)

/-! ### The outbound queue (R84, R198) -/

/-- The messages a list of buffered sends yields, with their MSEQ in order. -/
def State.sendMsgs (s : State) (t : Nat) (ftag : BitVec 12) : BitVec 16 → List Send → List Msg
  | _, [] => []
  | seq, b :: bs =>
    let nflit := BitVec.ofNat 2 ((b.words.length + 7) / 8 - 1)
    let prio := match s.jobOf t with
      | some j => j.prioOf b.cls
      | none => 0
    let one := fun (i : Nat) (d : BitVec 27) =>
      ({ hdr := { s.header t b.kind b.cls prio ftag nflit (d.extractLsb' 12 15).toNat (d.extractLsb' 0 12).toNat with
                  mseq := seq + BitVec.ofNat 16 i }
         body := .words (b.words ++ List.replicate (8 * (nflit.toNat + 1) - b.words.length) 0) } : Msg)
    b.dests.mapIdx one ++ s.sendMsgs t ftag (seq + BitVec.ofNat 16 b.dests.length) bs

/-- Puts messages into the outbound queue; what the context has outstanding is covered (R125, R188). -/
def Tile.enqueue (x : Tile) (after : List Nat) (ms : List Msg) : Tile :=
  { x with outq := x.outq ++ ms.map fun m => { msg := m, after := after } }

/-- Room left in the outbound queue. -/
def Tile.outRoom (x : Tile) : Nat := Config.outboundRoom - x.outq.length

/-! ### The counter unit (R87 to R90) -/

/-- A counter; one nothing has written is zero. -/
def CounterUnit.get (u : CounterUnit) (cid : Nat) : Counter :=
  (mget u.counters cid).getD { value := 0, target := 0, action := 0, armed := false }

/-- The unit with a counter replaced. -/
def CounterUnit.put (u : CounterUnit) (cid : Nat) (k : Counter) : CounterUnit := { u with counters := mput u.counters cid k }

/-- Whether the pending-action queue has room (R90). -/
def CounterUnit.hasRoom (u : CounterUnit) : Bool := u.actions.length < Config.actionRoom

/-- AUTO of an ACTION word (R88). -/
def actionAuto (a : Word) : Bool := a.extractLsb' 4 1 == 1
/-- KIND, CLASS, OFFSET and TADDR of an ACTION word (R88). -/
def actionKind (a : Word) : Nat := (a.extractLsb' 0 4).toNat
def actionClass (a : Word) : BitVec 8 := a.extractLsb' 8 8
def actionOffset (a : Word) : Nat := (a.extractLsb' 16 21).toNat
def actionTaddr (a : Word) : BitVec 27 := a.extractLsb' 37 27

/-- After an update: the counter fires if it is armed and equals its target (R89). A firing of KIND 0 queues nothing. -/
def CounterUnit.fire (u : CounterUnit) (cid : Nat) (ftag : BitVec 12) : CounterUnit :=
  let k := u.get cid
  if k.armed ∧ k.value = k.target then
    let u' := u.put cid (if actionAuto k.action then { k with value := k.value - k.target } else { k with armed := false })
    if actionKind k.action = 0 then u'
    else { u' with actions := u'.actions ++ [{ word := k.action, cid := cid, value := k.value, ftag := ftag }] }
  else u

/-- One update (R89): the amount is added and the counter may fire. -/
def CounterUnit.update (u : CounterUnit) (cid : Nat) (amount : Word) (ftag : BitVec 12) : CounterUnit :=
  let k := u.get cid
  (u.put cid { k with value := k.value + amount }).fire cid ftag

/-- The reply that waited for an update is sent. -/
def Tile.sendReply (x : Tile) (reply : Option Msg) : Tile :=
  match reply with
  | some m => x.sendVn1 m
  | none => x

/-- An update that travels with data: applied, or held behind others while the action queue is full (R90). Its reply, if any, is
sent once it is applied. -/
def State.dataUpdate (s : State) (t cid : Nat) (amount : Word) (ftag : BitVec 12) (reply : Option Msg) : State :=
  s.modTile t fun x =>
    if x.cnt.hasRoom ∧ x.cnt.held = [] then
      ({ x with cnt := x.cnt.update cid amount ftag } : Tile).sendReply reply
    else
      { x with cnt := { x.cnt with held := x.cnt.held ++ [{ cid := cid, amount := amount, ftag := ftag, reply := reply, seq := none }] } }

/-- Whether a context's addition to a counter is held. -/
def CounterUnit.addHeld (u : CounterUnit) (c cid : Nat) : Bool := u.adds.any fun h => h.ctx == c && h.cid == cid

/-- Whether a held addition is made now: what it covers is performed (R188), and the action queue has room (R90). -/
def Tile.addDue (x : Tile) (h : HeldAdd) : Bool := x.cnt.hasRoom && h.after.all fun tag => x.mu.out.all fun o => o.tag != tag

/-- The held additions that are due are made, in order, while the action queue has room. -/
def Tile.applyAdds (x : Tile) : List HeldAdd → Tile
  | [] => x
  | h :: hs =>
    if x.addDue h then
      Tile.applyAdds { x with cnt := { x.cnt with adds := x.cnt.adds.erase h }.update h.cid h.amount h.ftag } hs
    else Tile.applyAdds x hs

/-- The completed number once `seq` has completed, over those completed above it (R245). -/
def advanceDone : Nat → Nat → List Nat → Nat
  | 0, d, _ => d
  | n + 1, d, beyond => if beyond.contains (d + 1) then advanceDone n (d + 1) beyond else d

/-- The completed number advances over a command whose completion has had its effects (R239, R245). -/
def Engine.advance (e : Engine) (seq : Nat) : Engine :=
  let all := e.beyond ++ [seq]
  let d := advanceDone all.length e.done all
  { e with done := d, beyond := all.filter fun n => d < n }

/-- A NOTIFY is performed: the array's completed number advances over its command (R239). -/
def Tile.notified (x : Tile) (seq : Option Nat) : Tile :=
  match seq with
  | some n => { x with matrix := x.matrix.advance n }
  | none => x

/-- The held updates are applied in order while the action queue has room (R90). -/
def Tile.applyHeld (x : Tile) : List HeldUpdate → Tile
  | [] => { x with cnt := { x.cnt with held := [] } }
  | h :: hs =>
    if x.cnt.hasRoom then
      Tile.applyHeld ((({ x with cnt := x.cnt.update h.cid h.amount h.ftag } : Tile).sendReply h.reply).notified h.seq) hs
    else { x with cnt := { x.cnt with held := h :: hs } }

end Sys2Proof.Machine
end

