-- ==== Sys2Proof/Machine/Cut.lean ====
section
/-! DEFINITION. Local snapshots and markers, channel logs, pre-images and HBM under a snapshot (spec/ 23 R297 to R311). -/

namespace Sys2Proof.Machine

/-! ### Markers (R300) -/

/-- The lowest tile of a group on each other package that it spans. -/
def State.peerLows (s : State) (gid : Nat) : List (Nat × Nat) :=
  let mine := s.vest.peers.filter fun q => (s.groupParts gid).any fun e => e.2.asid == q.asid
  (((s.groupParts gid).flatMap fun e => s.pkgsOf e.2).foldl ins []).filterMap fun p =>
    (((mine.filter (·.pkg == p)).flatMap (·.tiles)).foldl ins []).head?.map fun t => (p, t)

/-- The nodes of this package in the marker set of a node (R300). -/
def State.markersHere (s : State) (gid n : Nat) : List Nat :=
  let ts := s.groupTiles gid
  let mems := match s.group gid with
    | some g => g.dies
    | none => []
  let low := ts.head?
  if n < Config.tiles then
    ((ts.filter (· < n)).getLast?).toList ++ ((ts.filter (n < ·)).head?).toList ++ [Config.newelNode (dieOfTile n)]
      ++ (if mems.contains (dieOfTile n) then [Config.memoryNode (dieOfTile n)] else [])
      ++ (if low = some n then
            let bare := [0, 1, 2, 3].filter fun d => !ts.any fun t => dieOfTile t == d
            bare.map Config.newelNode ++ (bare.filter mems.contains).map Config.memoryNode
          else [])
  else
    match newelDie n, memoryDie n with
    | some d, _ => ((ts.find? fun t => dieOfTile t == d).or low).toList
    | none, some d => ((ts.find? fun t => dieOfTile t == d).or low).toList
    | none, none => low.toList

/-- The marker set of a node (R300), by package and node. -/
def State.markerSet (s : State) (gid n : Nat) : List (Nat × Nat) :=
  (s.markersHere gid n).map (fun d => (s.pkg, d)) ++ (if (s.groupTiles gid).head? = some n then s.peerLows gid else [])

/-- Puts a VN1 message into a node's output. -/
def State.emit (s : State) (n : Nat) (m : Msg) : State :=
  if n < Config.tiles then s.modTile n fun t => t.sendVn1 m
  else
    match newelDie n, memoryDie n with
    | some d, _ => s.modNewel d fun w => { w with out := w.out ++ [m] }
    | none, some d => s.modMemory d fun x => { x with out := x.out ++ [m] }
    | none, none => s.modVest fun v => { v with out := v.out ++ [m] }

/-- A marker from one node to another: kind 7, the node's new colour, payload word 0 the identifier (R300, R67). -/
def State.marker (s : State) (c : BitVec 1) (src : Nat) (dst : Nat × Nat) (sid : Nat) : Msg :=
  { hdr := { kind := 7, colour := c, dpkg := BitVec.ofNat 15 dst.1, dtile := BitVec.ofNat 12 dst.2, spkg := BitVec.ofNat 15 s.pkg,
             stile := BitVec.ofNat 12 src }
    body := .words [BitVec.ofNat 64 sid] }

/-- The image a tile's local snapshot captures (R301). A message whose flits are being injected is in the channel. The pool's blocks
are taken whole at the cut, which is what the lazy copy of R303 amounts to. -/
def State.tileImage (s : State) (t : Nat) : TileImage :=
  { tile := t, cycle := s.cycle, state := { s.getTile t with outFl := [] },
    bytes := memSlice s.mem (poolBase t) (poolBase t + Config.poolBytes),
    empty := s.empty.filter fun g => poolBase t / 16 ≤ g && g < (poolBase t + Config.poolBytes) / 16 }

/-- What a Newel instance captures for a group (R307): its locks, queues and wound records, the matrix, and the messages and requests it
holds for the group. -/
def State.newelImage (s : State) (gid d : Nat) : NewelImage :=
  let asids := (s.groupParts gid).map (·.2.asid)
  { die := d, locks := (s.getDie d).newel.locks.filter fun e => asids.contains e.asid,
    matrices := (s.getDie d).newel.matrices.filter fun e => asids.any fun a => a.toNat == e.1,
    out := (s.getDie d).newel.out.filter fun m => m.hdr.kind != 7 && s.flitOf gid m.hdr,
    waiting := (s.getDie d).newel.waiting.filter fun w => s.flitOf gid w.flit.hdr }

/-- Adds what a node captures to the running snapshot. -/
def State.capture (s : State) (gid n : Nat) : State :=
  let time := s.time0 + s.cycle * 5 / 18
  if n < Config.tiles then
    s.modGroup gid fun g => g.modRunning fun q =>
      { q with tiles := q.tiles ++ [s.tileImage n], time := if q.time = 0 then time else q.time }
  else
    match newelDie n, memoryDie n with
    | some d, _ => s.modGroup gid fun g => g.modRunning fun q => { q with newels := q.newels ++ [s.newelImage gid d] }
    | none, some d => s.modMemory d fun m => { m with fresh := m.fresh.filter (·.1 != gid) }
    | none, none =>
      s.modGroup gid fun g => g.modRunning fun q =>
        { q with jobs := (s.groupParts gid).filterMap fun e => e.2.job.map fun j => (e.1, e.2.used, j),
                 outs := s.vest.out.filter fun m => m.hdr.kind == 0 && s.groupAt m.hdr.dpkg.toNat m.hdr.dtile.toNat == some gid,
                 queues := s.vest.queues.filter fun e => (s.groupParts gid).any fun p => p.1 == e.2.owner,
                 time := if q.time = 0 then time else q.time,
                 pages := s.vest.pages.filter fun p => (s.groupParts gid).any fun e => e.1 == p.pid }

/-- A node takes its local snapshot: it captures its state, flips its colour and sends its markers (R300). -/
def State.cut (s : State) (gid n sid : Nat) : State :=
  let ns := s.nodeSnap gid n
  let s1 := s.capture gid n
  let flipped : NodeSnap :=
    { ns with colour := ~~~ns.colour, cut := true, logOn := true,
              sent0 := if ns.colour = 1 then 0 else ns.sent0, recv0 := if ns.colour = 1 then 0 else ns.recv0,
              sent1 := if ns.colour = 0 then 0 else ns.sent1, recv1 := if ns.colour = 0 then 0 else ns.recv1 }
  let s2 := s1.setNodeSnap gid n flipped
  let s3 := if n < Config.tiles then s2.modTile n fun t => { t with sid := BitVec.ofNat 32 sid, uncop := List.range 512 }
            else if n = Config.vestibuleNode then s2.modGroup gid fun g => { g with logging := true, replay := [] }
            else match memoryDie n with
              | some d => s2.shutLeases gid d
              | none => s2
  (s3.markerSet gid n).foldl (fun s d => s.emit n (s.marker flipped.colour n d sid)) s3

/-- Counts a message sent or accepted in a colour (R308). -/
def NodeSnap.count (x : NodeSnap) (sent : Bool) (c : BitVec 1) : NodeSnap :=
  match sent, c == 0 with
  | true, true => { x with sent0 := x.sent0 + 1 }
  | true, false => { x with sent1 := x.sent1 + 1 }
  | false, true => { x with recv0 := x.recv0 + 1 }
  | false, false => { x with recv1 := x.recv1 + 1 }

/-! ### Starting a snapshot (R297, R298, R102) -/

/-- Whether a tile of a group is being migrated; a migration of phase 0 has not begun. -/
def State.migrating (s : State) (gid : Nat) : Bool := s.vest.migs.any fun m => m.phase != 0 && s.groupOfTile m.tile == some gid

/-- The latest COMPLETE or DRAINED snapshot of a group. -/
def Group.latest (g : Group) : Option Snapshot :=
  (g.snaps.filter fun q => q.state == .complete || q.state == .drained).getLast?

/-- A snapshot of a group starts at a node, which takes its local snapshot now, or when a live migration of the group has ended. -/
def State.startSnapshot (s : State) (gid node : Nat) (asked : Option (Nat × Nat)) : State :=
  match s.group gid with
  | none => s
  | some g =>
    let sid := g.lastId + 1
    let wait := s.migrating gid
    let parent := match g.latest with
      | some q => q.sid
      | none => 0
    let s1 := s.modGroup gid fun g =>
      { g with lastId := sid, colour := ~~~g.colour,
               snaps := g.snaps ++ [{ sid := sid, state := .running, parent := parent, colour := ~~~g.colour, time := 0, tiles := [],
                                      newels := [], jobs := [], queues := [], outs := [], logs := [], figures := [], closed := false, pages := [],
                                      granules := [],
                                      target := 0, manifest := [], full := [], asked := asked, start := if wait then some node else none }] }
    if wait then s1 else s1.cut gid node sid

/-! ### Channel logs (R304) -/

/-- The record of a logged message in the layout of R76. -/
def LogRec.bytes (r : LogRec) : List Byte :=
  let h := match r.flits with
    | f :: _ => f.hdr
    | [] => {}
  let age := match r.flits with
    | f :: _ => f.age
    | [] => 0
  recordBytes h age ((List.range 4).flatMap fun i => match r.flits.find? (·.fidx.toNat == i) with
    | some f => flitBytes f
    | none => List.replicate 64 0) r.accept (r.flits.map (·.fidx))

/-- The snapshot areas of a group: PA and whole records that fit. -/
def State.areas (s : State) (gid : Nat) : List (Nat × Nat) :=
  (s.groupParts gid).filterMap fun e => e.2.job.map fun j => (j.areaAt, j.area / 288)

/-- Where record `i` of a list of areas lies. -/
def areaSlot : List (Nat × Nat) → Nat → Option Nat
  | [], _ => none
  | (a, n) :: l, i => if i < n then some (a + 288 * i) else areaSlot l (i - n)

/-- Where a group's channel-log record of a number lies: records follow one another through the areas, around and around (DESIGN CHOICE,
log entry 60). -/
def State.logPlace (s : State) (gid num : Nat) : Option Nat :=
  let l := s.areas gid
  areaSlot l (num % (l.map (·.2)).sum)

/-- Writes a channel-log record to the snapshot area. -/
def State.putLog (s : State) (gid : Nat) (r : LogRec) : State :=
  match s.logPlace gid r.num with
  | some k => s.write k r.bytes
  | none => s

/-- Whether a logged record of node `n` waits for a flit. -/
def logWants (n : Nat) (f : Flit) (e : Nat × LogRec) : Bool :=
  e.1 == n && e.2.flits.any (fun g => g.hdr.msgid == f.hdr.msgid && g.hdr.kind == f.hdr.kind) && e.2.flits.all fun g => g.fidx != f.fidx

/-- Appends flits of an old-colour message to a node's channel log, a record for each message; a full area fails the snapshot (R304,
R309). -/
def State.logFlits (s : State) (gid n : Nat) (fs : List Flit) : State :=
  match (s.group gid).bind fun g => g.running.map fun q => (g, q) with
  | none => s
  | some (g, q) =>
    match q.logs.find? fun e => fs.any fun f => logWants n f e with
    | some e =>
      let r : LogRec := { e.2 with flits := e.2.flits ++ fs }
      (s.modGroup gid fun g => g.modRunning fun q => { q with logs := updateWhere q.logs (· == e) fun _ => (n, r) }).putLog gid r
    | none =>
      if s.areaRoom gid 288 then
        let r : LogRec := { num := g.logged, accept := s.cycle, flits := fs }
        (s.modGroup gid fun g => { g.modRunning fun q => { q with logs := q.logs ++ [(n, r)] } with logged := g.logged + 1 }).putLog gid r
      else s.dropSnapshot gid .failed

/-- Whether a group spans other packages. -/
def State.spansOthers (s : State) (gid : Nat) : Bool := (s.groupParts gid).any fun e => (s.pkgsOf e.2).any (· != s.pkg)

/-- A node is about to serve a flit (R300, R304): a new-colour flit makes it cut first; an old-colour one is logged after its cut, but
for a memory node, which logs by R305. A flit in the other colour from another package, while no snapshot runs here, tells of one that has
started there: the group's part on this package starts (log entry 14).
`first` tells the flit that counts for its message (R308). -/
def State.onAccept (s : State) (gid n : Nat) (f : Flit) (first : Bool) : State :=
  let s1 := match (s.group gid).bind (·.running) with
    | none =>
      if f.hdr.spkg.toNat != s.pkg && f.hdr.colour != (s.nodeSnap gid n).colour && s.spansOthers gid then s.startSnapshot gid n none else s
    | some q =>
      let ns := s.nodeSnap gid n
      if f.hdr.colour = ns.colour then s
      else if ns.cut then (if ns.logOn && (memoryDie n).isNone then s.logFlits gid n [f] else s)
      else s.cut gid n q.sid
  if first then s1.setNodeSnap gid n ((s1.nodeSnap gid n).count false f.hdr.colour) else s1

/-- A node injects a message (R67, R308): the header with its colour, and the count. -/
def State.onInject (s : State) (gid n : Nat) (h : Header) (b : Body) : State × Header :=
  let ns := s.nodeSnap gid n
  let h' := if (memoryDie n).isSome then h else { h with colour := ns.colour }
  if h.kind = 7 ∨ h.dpkg.toNat = Config.hostPackage ∨ s.crosses h b then (s, h')
  else (s.setNodeSnap gid n (ns.count true h'.colour), h')

/-! ### HBM under a snapshot (R305, R310, R311) -/

/-- The bytes of a 64 KiB granule. -/
def State.granuleCells (s : State) (pa : Nat) : List Host.Cell :=
  memSlice s.mem (pa / 0x10000 * 0x10000) (pa / 0x10000 * 0x10000 + 0x10000)

/-- Whether a colour is old at a die's memory node: it has cut for the running snapshot (R296). -/
def State.oldAt (s : State) (gid d : Nat) (c : BitVec 1) : Bool :=
  let ns := s.nodeSnap gid (Config.memoryNode d)
  s.snapping gid && ns.cut && c != ns.colour

/-- The pre-image of a granule for a snapshot. -/
def MemNode.preOf (m : MemNode) (gid sid granule : Nat) : Option PreImage :=
  m.pre.find? fun p => p.grp == gid && p.sid == sid && p.granule == granule

/-- The snapshots whose image a write to a granule would change: those not yet drained, the drained one if it is the latest, and the
running one after the node's cut unless the write is old (R305, R310). -/
def State.snapsToSave (s : State) (gid d : Nat) (old : Bool) : List Nat :=
  match s.group gid with
  | none => []
  | some g =>
    (g.snaps.filter fun q => match q.state with
      | .complete => true
      | .drained => !g.snaps.any fun r => q.sid < r.sid && (r.state == .complete || r.state == .drained)
      | .running => !old && (s.nodeSnap gid (Config.memoryNode d)).cut
      | _ => false).map (·.sid)

/-- Whether a snapshot of a group is the running one. -/
def State.isRunning (s : State) (gid sid : Nat) : Bool := ((s.group gid).bind (·.running)).any (·.sid == sid)

/-- Saves the pre-image of a granule for a snapshot if it has none. A running snapshot fails where the area is full or the granule holds
uncorrectable data (R309); the Vestibule is told of such data in any case, and containment follows (R285). -/
def State.savePre (s : State) (gid d pa sid : Nat) : State :=
  let bad := s.badIn (pa / 0x10000 * 0x10000) 0x10000
  let keep : State :=
    s.modMemory d fun m =>
      { m with pre := m.pre ++ [{ grp := gid, sid := sid, granule := pa / 0x10000, bytes := s.granuleCells pa, lost := bad.isSome }] }
  if ((s.getDie d).memory.preOf gid sid (pa / 0x10000)).isSome then s
  else
    match bad with
    | some k => (if s.isRunning gid sid then s.dropSnapshot gid .failed else keep).consumeBad Config.vestibuleNode k []
    | none => if s.isRunning gid sid && !s.areaRoom gid 0x10000 then s.dropSnapshot gid .failed else keep

/-- Notes a write to a granule (R305): apart, where it is a new write under a running snapshot that the node has cut for. -/
def State.markDirty (s : State) (gid d pa : Nat) (old : Bool) : State :=
  let fresh := !old && s.snapping gid && (s.nodeSnap gid (Config.memoryNode d)).cut
  s.modMemory d fun m =>
    if fresh then { m with fresh := addAll m.fresh [(gid, pa / 0x10000)] } else { m with dirty := addAll m.dirty [(gid, pa / 0x10000)] }

/-- Writes HBM bytes of one granule in a colour. -/
def State.writeHbm (s : State) (c : BitVec 1) (pa : Nat) (bs : List Byte) : State :=
  match s.groupOfPage pa with
  | none => s.write pa bs
  | some gid =>
    let d := homeDie pa
    let old := s.oldAt gid d c
    let s1 := (s.snapsToSave gid d old).foldl (fun s sid => s.savePre gid d pa sid) s
    let s2 := if old then
        match (s1.group gid).bind (·.running) with
        | some q =>
          let mine := fun (p : PreImage) => p.grp == gid && p.sid == q.sid && p.granule == pa / 0x10000
          s1.modMemory d fun m =>
            { m with pre := updateWhere m.pre mine fun p => { p with bytes := memWrite p.bytes pa bs } }
        | none => s1
      else s1
    (s2.markDirty gid d pa old).write pa bs

/-- Reads HBM bytes of one granule in a colour: an old read is served from the pre-image. -/
def State.readHbm (s : State) (c : BitVec 1) (pa n : Nat) : List Byte :=
  match s.groupOfPage pa with
  | none => s.read pa n
  | some gid =>
    if s.oldAt gid (homeDie pa) c then
      match (s.group gid).bind (·.running) with
      | some q =>
        match (s.getDie (homeDie pa)).memory.preOf gid q.sid (pa / 0x10000) with
        | some p => memRead p.bytes pa n
        | none => s.read pa n
      | none => s.read pa n
    else s.read pa n

/-- The parts of a memory range on each side of 64 KiB boundaries. -/
def granuleParts (k n : Nat) : List (Nat × Nat) :=
  let room := 0x10000 - k % 0x10000
  if n ≤ room then [(k, n)] else [(k, room), (k + room, n - room)]

/-- Reads bytes at their home, in a colour. -/
def State.readAt (s : State) (c : BitVec 1) (k n : Nat) : List Byte :=
  match poolTile k with
  | some _ => s.read k n
  | none => (granuleParts k n).flatMap fun p => s.readHbm c p.1 p.2

/-- Whether the matching store takes a token now: completions, timers, sweep results and TRIG counts wait for that, doorbells are dropped
(R334). -/
def State.hasToken (s : State) : Bool := s.vest.tokens.length < Config.tokenRoom

/-- A write to word 0 of a work queue's control block is a doorbell: its home delivers it to the Vestibule as a token, while the
matching store has room (R321, R334). -/
def State.ringDoorbells (s : State) (k n : Nat) : State :=
  s.vest.queues.foldl (fun s e =>
    if e.2.ctl < k + n ∧ k < e.2.ctl + 8 ∧ s.hasToken then
      s.modVest fun v => { v with tokens := v.tokens ++ [(e.1, s.read64 e.2.ctl)] }
    else s) s

/-- Writes bytes at their home, in a colour. -/
def State.writeAt (s : State) (c : BitVec 1) (k : Nat) (bs : List Byte) : State :=
  match poolTile k with
  | some _ => s.write k bs
  | none =>
    ((granuleParts k bs.length).foldl (fun s p => s.writeHbm c p.1 ((bs.drop (p.1 - k)).take p.2)) s).ringDoorbells k bs.length

end Sys2Proof.Machine
end

