-- ==== Sys2Proof/Machine/Lanes.lean ====
section
/-! DEFINITION. Vector lanes: reading, packing and predicated writing (spec/ 15 R207, R208), and what a finished gather or typed block
load writes (R221, R223). -/

namespace Sys2Proof.Machine

/-- Lane `i` of width `w` (R207). -/
def lane (w : Nat) (v : VReg) (i : Nat) : Nat := v.toNat / 2 ^ (w * i) % 2 ^ w

/-- All lanes of width `w`. -/
def lanes (w : Nat) (v : VReg) : List Nat := (List.range (512 / w)).map (lane w v)

/-- The value of lanes, lane 0 lowest. -/
def laneNat (w : Nat) : List Nat → Nat
  | [] => 0
  | x :: xs => x % 2 ^ w + 2 ^ w * laneNat w xs

/-- A register from its lanes. -/
def packLanes (w : Nat) (xs : List Nat) : VReg := BitVec.ofNat 512 (laneNat w xs)

/-- The lanes a predicated instruction leaves (R208): `first` is the predicate bit of the first lane. -/
def mergeLanes (z : Bool) (mask : Word) : Nat → List Nat → List Nat → List Nat
  | _, [], _ => []
  | _, old, [] => old
  | i, o :: os, n :: ns => (if mask.getLsbD i then n else if z then 0 else o) :: mergeLanes z mask (i + 1) os ns

/-- A predicated register write (R208). -/
def Ctx.wvMasked (c : Ctx) (w : Nat) (z : Bool) (k : KReg) (d : Reg) (new : List Nat) : Ctx :=
  c.wv d (packLanes w (mergeLanes z (c.rk k) 0 (lanes w (c.rv d)) new))

/-- The bytes at a position of collected data. -/
def gotAt (got : List (Nat × List Byte)) (pos : Nat) : List Byte :=
  match got.find? fun p => p.1 == pos with
  | some p => p.2
  | none => []

/-- Collected data from position 0, in rising position below `hi`. -/
def gotBelow (got : List (Nat × List Byte)) (lo hi : Nat) : List Byte :=
  ((List.range (hi - lo)).map fun i => gotAt got (lo + i)).flatten

/-- VGATH writes its lanes (R221): inactive lanes have no data and keep their value or are zeroed. -/
def Ctx.gatherWrite (c : Ctx) (t : ElemType) (z : Bool) (k : KReg) (d : Reg) (got : List (Nat × List Byte)) : Ctx :=
  c.wvMasked t.width z k d ((List.range t.lanes).map fun i => leNat (gotAt got i))

/-- Where the scale bytes of a typed load stand among its collected data. -/
def scalePos : Nat := 4096

/-- The 64 elements of a typed block load and QM (R223). -/
def blockElems (fmt len : Nat) (addr : Addr) (data scales : List Byte) : List FV × Bool :=
  if fmt = 5 ∨ fmt = 6 then (data.map fun b => fdec (fmtOfCode fmt) b.toNat, false)
  else
    let q := fmt == 8
    let s0 := (scales.headD 0).toNat
    let s1 := ((scales.drop 1).headD 0).toNat
    if len = 32 then
      let (v0, b0) := decodeBlock q s0 (nibbles (data.take 16))
      let (v1, b1) := decodeBlock q s1 (nibbles (data.drop 16))
      (v0 ++ v1, b0 || b1)
    else
      let (v, b) := decodeBlock q s0 (nibbles data)
      if len = 128 ∧ q then ((v.drop (if addr.extractLsb' 5 1 = 1 then 64 else 0)).take 64, b) else (v, b)

/-- One element of a typed block load rounded to TYPE (R223). -/
def blockElem (t : ElemType) (v : FV) : Nat × Flags :=
  let (x, f) := fpack (fmtOf t) .rne false v
  (x, f ||| snanFlag [v])

/-- Flags of the elements whose predicate bit is set. -/
def activeFlags (mask : Word) : Nat → List (Nat × Flags) → Flags
  | _, [] => 0
  | i, (_, f) :: xs => (if mask.getLsbD i then f else 0) ||| activeFlags mask (i + 1) xs

/-- Writes a register group from element `e` onward, `n` lanes to a register (R223). -/
def Ctx.groupWrite (w : Nat) (z : Bool) (mask : Word) : Nat → Nat → Reg → List Nat → Ctx → Ctx
  | 0, _, _, _, c => c
  | m + 1, e, r, xs, c =>
    let n := 512 / w
    Ctx.groupWrite w z mask m (e + n) (r + 1) (xs.drop n)
      (c.wv r (packLanes w (mergeLanes z mask e (lanes w (c.rv r)) (xs.take n))))

/-- VLDT writes its register group (R223). -/
def Ctx.blockWrite (c : Ctx) (t : ElemType) (z : Bool) (k : KReg) (d : Reg) (fmt len : Nat) (addr : Addr)
    (got : List (Nat × List Byte)) : Ctx :=
  let data := gotBelow got 0 64
  let scales := gotBelow got scalePos (scalePos + 2)
  let (vs, qm) := blockElems fmt len addr data scales
  let xs := vs.map (blockElem t)
  ((Ctx.groupWrite t.width z (c.rk k) (64 / t.lanes) 0 d (xs.map (·.1)) c).orFlags (activeFlags (c.rk k) 0 xs)).orFlags
    (if qm then flagQM else 0)

end Sys2Proof.Machine
end

