-- ==== Sys2Proof/Machine/Ops.lean ====
section
/-! DEFINITION. The operations every meaning shares: completing an instruction, waiting, ending a handler, taking a handler-level trap
with its report, entering and leaving a user trap (spec/ 05 R83 to R86, R117; 11 R179; 13 R188, R191, R198; 21 R275 to R284). -/

namespace Sys2Proof.Machine

/-- What a meaning answers. -/
abbrev Result := Host.Outcome State Fault Refusal

/-! ### Completing and waiting -/

/-- The executing instruction, of `len` bytes, completes: the context is changed and goes on sequentially. -/
def State.retire (s : State) (len : Nat) (f : Ctx → Ctx) : State := s.modCur fun c => { (f c).seq len with run := .ready }

/-- The executing instruction writes a general register and completes. -/
def State.retireG (s : State) (len : Nat) (d : Reg) (w : Word) : State := s.retire len fun c => c.wr d w

/-- The executing context waits and then issues its instruction again (R188). -/
def State.waitFor (s : State) (c : Cond) : State := s.modCur fun k => { k with run := .wait (.cond c) }

/-! ### Operations that wait at a memory unit (R112, R204) -/

/-- Whether a header names tile `t` of package `pkg` as its sender. -/
def fromTile (h : Header) (pkg t : Nat) : Bool := h.spkg.toNat == pkg && h.stile.toNat == t

/-- The request of another tile that waits in the reserved slot for the wait table (R112). -/
def Landing.parked (l : Landing) : Option Waiter :=
  match l.reserved with
  | some f => match f.body with
    | .request tag op => some { op := op, hdr := f.hdr, tag := tag }
    | _ => none
  | none => none

/-- The waiters of a tile's memory unit, oldest first: those of the table, then the one in the reserved slot. -/
def Tile.waitList (x : Tile) : List Waiter := x.mu.waiters ++ x.land.parked.toList

/-- Whether the table of remote waiters has room (R112; an operation of the tile itself takes no entry, log entry 57). -/
def Tile.waitRoom (x : Tile) (pkg t : Nat) : Bool :=
  (x.mu.waiters.filter fun w => !fromTile w.hdr pkg t).length < Config.remoteWaiters

/-- Takes a waiting request out of the reserved slot into the table when that has room (R112). -/
def Tile.admitWaiter (x : Tile) (pkg t : Nat) : Tile :=
  match x.land.parked with
  | some w =>
    if x.waitRoom pkg t then
      { x with land := { x.land with reserved := none }, mu := { x.mu with waiters := x.mu.waiters ++ [w] } }
    else x
  | none => x

/-- A tile without one of its waiters, the reserved slot's among them. -/
def Tile.dropWaiter (x : Tile) (pkg t : Nat) (w : Waiter) : Tile :=
  if x.mu.waiters.contains w then Tile.admitWaiter { x with mu := { x.mu with waiters := x.mu.waiters.erase w } } pkg t
  else if x.land.parked = some w then { x with land := { x.land with reserved := none } }
  else x

/-! ### Removing what a context waits on (R206, R269, R276) -/

/-- Removes waiting operations of a tile's requests from every memory unit: each is answered as done, without effect. -/
def State.dropWaiters (s : State) (t : Nat) (tags : List Nat) : State :=
  s.tiles.foldl (fun s e =>
    let gone := e.2.waitList.filter fun w => fromTile w.hdr s.pkg t && tags.contains w.tag
    gone.foldl (fun s w =>
      let s1 := s.modTile e.1 fun x => x.dropWaiter s.pkg e.1 w
      if (s1.getTile t).mu.out.any (·.tag == w.tag) then s1.tileReply e.1 w.hdr 9 (.reply w.tag .done) else s1) s) s

/-- The number of a lock name's home among the `n` dies of a partition (R253). -/
def homeNumber (name : Word) (n : Nat) : Nat :=
  let h := (name.extractLsb' 48 14).toNat
  if name.extractLsb' 62 2 = 0 then h % n else (h + (name.extractLsb' 24 24).toNat) % n

/-- The packages of a tile's partition. -/
def State.lockPkgs (s : State) (t : Nat) : List Nat :=
  match s.partOf t with
  | some (_, p) => s.pkgsOf p
  | none => [s.pkg]

/-- The Newel instances of a tile's partition, each as four times its package, and its die. -/
def State.lockHomes (s : State) (t : Nat) : List Nat := (s.lockPkgs t).flatMap fun p => [0, 1, 2, 3].map (4 * p + ·)

/-- The home of a lock name for a tile's partition (R253). -/
def State.lockHome (s : State) (t : Nat) (name : Word) : Nat :=
  (s.lockHomes t).getD (homeNumber name (s.lockHomes t).length) (4 * s.pkg)

/-- The handle of a transaction slot of a tile (R257). -/
def State.handleOf (s : State) (t slot : Nat) (gen : BitVec 8) : Word :=
  BitVec.ofNat 64 (gen.toNat * 2 ^ 40 + (tileAddr (s.jobPkg t s.pkg) (s.jobTile t)).toNat * 256 + slot)

/-- The client with a held-lock record changed, or removed where `f` gives none. -/
def LockClient.modHeld (l : LockClient) (slot : Nat) (name : Word) (f : HeldLock → Option HeldLock) : LockClient :=
  { l with held := l.held.filterMap fun h => if h.slot == slot && h.name == name then f h else some h }

/-- The client with a pending request marked as cancelled. -/
def LockClient.undoPend (l : LockClient) (tag : Nat) : LockClient :=
  { l with pend := updateWhere l.pend (·.tag == tag) fun q => { q with undo := true } }

/-- The record of a request that is given up: an acquire's is removed, a conversion's keeps its mode (R269). -/
def HeldLock.giveUp (h : HeldLock) : Option HeldLock := if h.mode = 0 then none else some { h with want := 0 }

/-- A request of the lock client itself, in the place of one of a transaction. No handler sends it, and it has FTAG 0 (R92; DESIGN CHOICE, log
entry 80). -/
def State.clientRequest (s : State) (t : Nat) (p : LockPend) (form : LockForm) (mode : BitVec 3) (op : LockOp) : State :=
  let tag := (s.getTile t).mu.nextTag
  (s.modTile t fun x =>
    { x with locks := { x.locks with pend := x.locks.pend ++ [{ p with tag := tag, form := form, mode := mode, undo := true }] } }).lockRequest
    t 8 (p.home / 4) (p.home % 4) 0
    { tag := tag, asid := (s.getTile t).regs.asid, name := p.name, ts := p.ts, handle := p.handle, op := op } []

/-- Whether a queued message is lock request `tag`. -/
def Queued.isLock (q : Queued) (tag : Nat) : Bool :=
  match q.msg.body with
  | .lock r => r.tag == tag
  | _ => false

/-- The tile without a lock request that is still to be injected: nothing of it has left the tile. -/
def Tile.unsend (x : Tile) (tag : Nat) : Tile :=
  { x with mu := { x.mu with queue := x.mu.queue.filter fun q => !q.isLock tag, out := x.mu.out.filter (·.tag != tag) }
           locks := { x.locks with pend := x.locks.pend.filter (·.tag != tag) } }

/-- Gives up a waiting acquire or escalation (R265, R269, R270): one still in the tile is taken back, any other is undone when its
answer comes. -/
def Tile.giveUp (x : Tile) (p : LockPend) : Tile :=
  if x.mu.queue.any (·.isLock p.tag) then x.unsend p.tag else { x with locks := x.locks.undoPend p.tag }

/-- Cancels a pending acquire or escalation at its home (R269), unless it is still in the tile. -/
def State.cancelPend (s : State) (t : Nat) (p : LockPend) : State :=
  let s1 := s.modTile t fun x => ({ x with locks := x.locks.modHeld p.slot p.name HeldLock.giveUp } : Tile).giveUp p
  if (s.getTile t).mu.queue.any (·.isLock p.tag) then s1 else s1.clientRequest t p .cancel 0 .cancel

/-- Whether an operation may wait at its home (R112, R204). -/
def opWaits : MemOp → Bool
  | .fe o _ _ => match o with
    | .lddW | .lddWc | .stdWf | .waitf => true
    | _ => false
  | .vldW _ | .ring .rresv .. => true
  | _ => false

/-- Whether a queued message is such an operation, of a request among `tags`. -/
def Queued.waits (tags : List Nat) (q : Queued) : Bool :=
  match q.msg.body with
  | .request tag op => tags.contains tag && opWaits op
  | _ => false

/-- The tile without the waiting operations among `tags` that are still to be injected: nothing of them has left the tile. -/
def Tile.unqueue (x : Tile) (tags : List Nat) : Tile :=
  let gone := (x.mu.queue.filter (Queued.waits tags)).filterMap Queued.tag?
  { x with mu := { x.mu with queue := x.mu.queue.filter fun q => !q.waits tags, out := x.mu.out.filter fun o => !gone.contains o.tag } }

/-- Ends what a context waits for at memory units without effect (R206). -/
def State.dropWaits (s : State) (t c : Nat) : State :=
  match (s.getCtx t c).run with
  | .wait (.replies tags _ _ _ _ _) => (s.modTile t fun x => x.unqueue tags).dropWaiters t tags
  | _ => s

/-! ### Ending a handler (R83) -/

/-- Word 0 of a report. -/
def reportWord0 (lost : BitVec 8) (traps ctx : Nat) (discarded sys advisory committed : Bool) (code : Byte) : Word :=
  BitVec.ofNat 64 (lost.toNat * 2 ^ 56 + traps % 16 * 2 ^ 24 + ctx % 8 * 2 ^ 16 + (if discarded then 2048 else 0)
    + (if sys then 1024 else 0) + (if advisory then 512 else 0) + (if committed then 256 else 0) + code.toNat)

/-- The address of a pool location in tile space (R106): what a report gives for scratchpad data (24, at cycle 44,100; DEDUCED, log
entry 25). -/
def State.spadAddr (s : State) (k : Nat) : Addr :=
  let t := (k - 0x80000000000000) / 0x10000000
  BitVec.ofNat 56 (0x80000000000000 + s.jobPkg t s.pkg % 0x8000 * 0x10000000000 + s.jobTile t % 0x1000 * 0x10000000 + k % 0x10000000)

/-- The range a place is. -/
def Piece.spot (p : Piece) : Spot := { key := p.key, len := p.len, addr := p.addr }

/-- Bytes of the location, at key `k`, that is protected as one: a granule or a line (R285). -/
def lineSize (k : Nat) : Nat := if (poolTile k).isSome then 16 else 64

/-- The address at which ranges reach the uncorrectable location at key `k`: that of the first byte of it they hold. -/
def spotAddr (k : Nat) (l : List Spot) : Addr :=
  match l.find? fun p => k < p.key + p.len && p.key < k + lineSize k with
  | some p => p.addr + BitVec.ofNat 56 (k - p.key)
  | none => 0

/-- The address of consumed data as a report gives it (R275): in tile space for scratchpad, for which `a` tells the byte of the granule;
`a` itself for HBM. -/
def State.dataAddr (s : State) (k : Nat) (a : Addr) : Addr :=
  match poolTile k with
  | some _ => s.spadAddr (k / 16 * 16 + a.toNat % 16)
  | none => a

/-- The record of a consumption that falls on no context any more: tile, context and message of the request (R285). -/
def State.orphanRecord (s : State) (t c : Nat) (pc : Addr) (msgid : Word) (a : Addr) : List Word :=
  [reportWord0 0 0 c false false false false 0x0B, zext64 pc, zext64 a, msgid, s.tileId t, 0, 0, BitVec.ofNat 64 s.cycle]

/-- A context ends before it could raise the MCHECK of an earlier request: the consumption leads to containment all the same (R285). -/
def State.endLate (s : State) (t c : Nat) : State :=
  (s.getCtx t c).late.foldl (fun x e => x.consumeBad t e.2.1 (s.orphanRecord t c e.1 (s.msgidOf t c) (s.dataAddr e.2.1 e.2.2))) s

/-- The handler of a context ends and its message is consumed. -/
def State.endConsumed (s : State) (t c : Nat) : State :=
  ((s.endLate t c).freeSlot t (s.getCtx t c).key).modCtx t c (Ctx.end_ s.cycle)

/-- The handler of a context ends and its message goes back to the head of its queue. -/
def State.endReturned (s : State) (t c : Nat) (f : Entry → Entry) : State :=
  ((s.endLate t c).toHead t (s.getCtx t c).key f).modCtx t c (Ctx.end_ s.cycle)

/-! ### Trap reports (R278, R279) -/

/-- The payload of a report of a context's trap, without LOST. -/
def State.trapRecord (s : State) (t c : Nat) (tr : Trap) (pc : Addr) (insn traps : Nat) (discarded committed : Bool) : List Word :=
  let k := s.getCtx t c
  let h : Header := match (s.getTile t).entry k.key with
    | some e => s.jobHeader t e.hdr
    | none => {}
  [reportWord0 0 traps c discarded k.sys false committed tr.code, zext64 pc, zext64 tr.addr, h.msgid, s.tileId t, h.h0,
   BitVec.ofNat 64 insn, BitVec.ofNat 64 s.cycle]

/-- Reports pass to the outbound queue, in order, as it has room (R279). -/
def Tile.passReports (x : Tile) : Tile :=
  let n := Nat.min x.outRoom x.reports.length
  { x with outq := x.outq ++ x.reports.take n, reports := x.reports.drop n }

/-- A tile sends a report to TRAPT, behind the accesses that its release covers: it enters the report buffer, or is dropped and counted
(R278, R279). -/
def State.report (s : State) (t : Nat) (ftag : BitVec 12) (record : List Word) (after : List Nat) : State :=
  let x := s.getTile t
  if Config.reportRoom ≤ x.reports.length then
    s.setTile t { x with lost := if x.lost = 255 then 255 else x.lost + 1 }
  else
    let trapt := match s.jobOf t with
      | some j => s.realTile t j.trapt
      | none => t
    let h := s.header t 0 0xFE 0 ftag 0 s.pkg trapt
    let ws := match record with
      | w :: ws => (w ||| (zext64 x.lost <<< 56)) :: ws
      | [] => []
    s.setTile t (Tile.passReports { x.sentOne h with lost := 0, reports := x.reports ++ [{ msg := { hdr := h, body := .words ws }, after := after }] })

/-! ### Handler-level traps (R276, R277, R280) -/

/-- A handler-level trap that ends the handler (R276). Where the message goes follows R83, R277 and R280. -/
def State.trapFinal (s : State) (t c : Nat) (tr : Trap) (pc : Addr) (insn : Nat) : State :=
  let k := s.getCtx t c
  let traps := match (s.getTile t).entry k.key with
    | some e => e.traps
    | none => 0
  let s0 := s.dropWaits t c
  if k.cls = 0xFE then
    match s.partOf t with
    | some (pid, _) => (s0.endConsumed t c).modJob pid fun j => { j with lost := j.lost + 1 }
    | none => s0.endConsumed t c
  else
    let discarded := !k.committed && 4 ≤ traps + 1
    let n := if k.committed then traps else traps + 1
    let record := s.trapRecord t c tr pc insn n discarded k.committed
    let s1 := if k.committed || discarded then s0.endConsumed t c
              else s0.endReturned t c fun e => { e with traps := e.traps + 1 }
    if k.sys then s1.modVest fun v => { v with sysTraps := v.sysTraps ++ [record] } else s1.report t k.ftag record ((s0.getTile t).outTags c)

/-- An XLATE goes to the Vestibule first (R117): before a COMMIT the message is held at the head of its queue; after one the handler
ends as a trap after commit. -/
def State.trapXlateFirst (s : State) (t c : Nat) (tr : Trap) (pc : Addr) (insn : Nat) (write : Bool) : State :=
  let k := s.getCtx t c
  if k.committed then
    (s.trapFinal t c tr pc insn).modVest fun v =>
      { v with xlates := v.xlates ++ [{ tile := t, va := tr.addr, write := write, key := none, report := none, after := [], engine := none,
                                        ftag := k.ftag }] }
  else
    let traps := match (s.getTile t).entry k.key with
      | some e => e.traps
      | none => 0
    let record := s.trapRecord t c tr pc insn (traps + 1) (4 ≤ traps + 1) false
    let s0 := s.dropWaits t c
    (s0.endReturned t c fun e => { e with hold := true }).modVest fun v =>
      { v with xlates := v.xlates ++ [{ tile := t, va := tr.addr, write := write, key := some k.key, report := some (c, record),
                                        after := (s0.getTile t).outTags c, engine := none, ftag := k.ftag }] }

/-- MCHECK: the partition is sealed and the context frozen where it stands; the record goes into the containment report (R280,
R285, R289). Before a COMMIT it counts in TRAPS like any handler-level trap (R277; DEDUCED, log entry 18). -/
def State.mcheck (s : State) (t c key : Nat) (a pc : Addr) (insn : Nat) : State :=
  let addr := s.dataAddr key a
  let k := s.getCtx t c
  let traps := match (s.getTile t).entry k.key with
    | some e => e.traps
    | none => 0
  let n := if k.committed then traps else traps + 1
  (s.modEntry t k.key fun e => { e with traps := n }).consumeBad t key (s.trapRecord t c (trapMcheck addr) pc insn n false k.committed)

/-- A context takes a handler-level trap. -/
def State.takeTrap (s : State) (t c : Nat) (tr : Trap) (pc : Addr) (insn : Nat) : State :=
  if tr.code = 0x05 then s.trapXlateFirst t c tr pc insn false else s.trapFinal t c tr pc insn

/-- The executing instruction traps without completing. -/
def State.trap (s : State) (tr : Trap) : State := s.takeTrap s.tile s.ctx tr s.cur.pc s.cur.insn

/-- The executing instruction consumes uncorrectable data at memory key `k`, which it names by address `a`. -/
def State.trapBad (s : State) (k : Nat) (a : Addr) : State := s.mcheck s.tile s.ctx k a s.cur.pc s.cur.insn

/-- Runs `f` on the value of a check, or traps. -/
def State.orTrap {α : Type} (s : State) (x : Except Trap α) (f : α → State) : State :=
  match x with
  | .ok a => f a
  | .error e => s.trap e

/-! ### User-level traps (R179, R191, R282) -/

/-- Whether a user trap can be taken: none is active and UTVEC is set. -/
def Ctx.canUserTrap (c : Ctx) : Bool := !c.ut.act && c.ut.vec != 0

/-- Entry at UTVEC: the return address, the cause, the code and the address are saved (R179, R191). -/
def Ctx.enterUser (c : Ctx) (ret : Addr) (cause ucode : Byte) (a : Addr) : Ctx :=
  { c with ut := { vec := c.ut.vec, pc := ret, act := true, ucode := ucode, cause := cause, addr := a }, pc := c.ut.vec }

/-- TRET: the user trap is inactive and control goes to UTPC (R179). -/
def Ctx.leaveUser (c : Ctx) : Ctx := { c with ut := { c.ut with act := false }, pc := c.ut.pc }

/-- EMPTY at a context (R191): the user trap, or ILLOPERAND where none can be taken. -/
def State.emptyTrap (s : State) (t c : Nat) (ea : Addr) : State :=
  let k := s.getCtx t c
  if k.canUserTrap then s.setCtx t c { k.enterUser k.pc 0x11 0 ea with run := .ready }
  else s.takeTrap t c trapIllOperand k.pc k.insn

/-! ### Committing (R84, R198) -/

/-- What follows once the committed messages are in the outbound queue. -/
def State.finishCommit (s : State) (t c : Nat) : Ending → State
  | .commit len => s.modCtx t c fun k => { k.seq len with run := .ready }
  | .done => s.endConsumed t c
  | .migrate => s.endConsumed t c

/-- Whether the message of an MSEQ waits beyond the queue's 32 messages. -/
def Tile.beyondRoom (x : Tile) (seq : BitVec 16) : Bool :=
  (x.outq.drop Config.outboundRoom).any fun q => q.msg.hdr.mseq == seq && countedKind q.msg.hdr.kind

/-- COMMIT, DONE and MIGRATE: the buffered sends enter the outbound queue in program order with their MSEQ, covering what the context
has outstanding; the context waits while the last has no room. A COMMIT of no send has no effect (R177, log entry 13). -/
def State.commitSends (s : State) (t c : Nat) (e : Ending) : State :=
  let x := s.getTile t
  let k := x.getCtx c
  let ms := s.sendMsgs t k.ftag x.mseq k.sends
  let s1 := s.setTile t
    (((({ x with mseq := x.mseq + BitVec.ofNat 16 ms.length } : Tile).addFig k.ftag ms.length 0).enqueue (x.outTags c) ms).setCtx c
      { k with sends := [], committed := k.committed || k.sends != [] })
  let last := x.mseq + BitVec.ofNat 16 ms.length - 1
  if ms ≠ [] ∧ (s1.getTile t).beyondRoom last then s1.modCtx t c fun k => { k with run := .wait (.room e last) }
  else s1.finishCommit t c e

/-! ### Replies to a waiting context -/

/-- Writes what the collected replies of an instruction give (R189, R190, R192, R204, R219, R221, R223). -/
def Ctx.finish (c : Ctx) (fin : Fin) (got : List (Nat × List Byte)) (val : Option (Word × BitVec 6)) : Ctx :=
  let v := match val with
    | some (w, _) => w
    | none => 0
  match fin with
  | .none => c
  | .load d bytes signed =>
    let n := leNat (gotAt got 0)
    c.wr d (if signed then (BitVec.ofNat (8 * bytes) n).signExtend 64 else BitVec.ofNat 64 n)
  | .word d => c.wr d v
  | .vload d => c.wv d (BitVec.ofNat 512 (leNat (gotAt got 0)))
  | .amo d size =>
    let w := match size with
      | .d => v
      | .w => sext64 (v.extractLsb' 0 32)
    (c.wr d w).orFlags (match val with
      | some (_, f) => f
      | none => 0)
  | .ring d => c.wr d v
  | .gather t z k d => c.gatherWrite t z k d got
  | .block t z k d fmt len addr => c.blockWrite t z k d fmt len addr got

/-- The context of a tile that waits for the reply to request `tag`. -/
def Tile.waiterOf (x : Tile) (tag : Nat) : Option Nat :=
  [0, 1, 2, 3, 4, 5, 6, 7].find? fun c => match (x.getCtx c).run with
    | .wait (.replies tags _ _ _ _ _) => tags.contains tag
    | _ => false

/-- A reply reaches the context that waits for it; when it is the last, the instruction completes or traps. A reply nobody waits for
is absorbed (R276). -/
def State.deliver (s : State) (t tag : Nat) (v : RepVal) : State :=
  match (s.getTile t).waiterOf tag with
  | none => s
  | some c =>
    let k := s.getCtx t c
    match k.run with
    | .wait (.replies tags got val fin ea len) =>
      match v with
      | .empty => s.emptyTrap t c ea
      | .illop => s.trapFinal t c trapIllOperand k.pc k.insn
      | .unmapped => s.takeTrap t c (trapXlate ea) k.pc k.insn
      | .outside => s.trapFinal t c (trapPartition ea) k.pc k.insn
      | .bad a => s.mcheck t c a ea k.pc k.insn
      | .data _ | .val _ _ | .done =>
        let got' := match v with
          | .data ps => got ++ ps
          | _ => got
        let val' := match v with
          | .val w f => some (w, f)
          | _ => val
        let tags' := tags.filter (· != tag)
        if tags' = [] then s.setCtx t c { (k.finish fin got' val').seq len with run := .ready }
        else s.setCtx t c { k with run := .wait (.replies tags' got' val' fin ea len) }
    | _ => s

/-- The executing context waits for replies. -/
def State.awaitReplies (s : State) (tags : List Nat) (fin : Fin) (ea : Addr) (len : Nat) : State :=
  s.modCur fun c => { c with run := .wait (.replies tags [] none fin ea len) }

end Sys2Proof.Machine
end

