-- ==== Sys2Proof/Machine/Home.lean ====
section
/-! DEFINITION. What memory units and memory nodes do: reads, writes, full/empty forms, atomics and rings at their home, the waiters of
a granule or ring, the serving of requests and the landing of replies (spec/ 07 R107, R111 to R113, R121; 13 R188 to R193, R200, R203,
R204; 15 R220 to R222; 21 R285). -/

namespace Sys2Proof.Machine

/-! ### Atomics (R192) -/

/-- The value an atomic writes, if it writes, and its flags; `old`, `b` and `c` have the operation's width. -/
def amoNew (op : AmoOp) (size : AmoSize) (old b c : Nat) : Option Nat × Flags :=
  let n := 8 * size.bytes
  let x := BitVec.ofNat n old
  let y := BitVec.ofNat n b
  match op with
  | .add => (some (x + y).toNat, 0)
  | .and => (some (x &&& y).toNat, 0)
  | .or => (some (x ||| y).toNat, 0)
  | .xor => (some (x ^^^ y).toNat, 0)
  | .min => (some (minS x y).toNat, 0)
  | .max => (some (maxS x y).toNat, 0)
  | .minn => (some (minU x y).toNat, 0)
  | .maxn => (some (maxU x y).toNat, 0)
  | .swap => (some y.toNat, 0)
  | .cas => (if x = BitVec.ofNat n c then some y.toNat else none, 0)
  | .fadd =>
    let (r, f) := fadd (match size with
      | .d => fmtF64
      | .w => fmtF32) .rne x.toNat y.toNat
    (some r, f)

/-- A VSCATA lane's sum (R221). -/
def laneSum (t : ElemType) (old x : Nat) : Nat :=
  if t.isInt then (old + x) % 2 ^ t.width else (fadd (fmtOf t) .rne old x).1

/-! ### Rings (R203) -/

/-- A ring descriptor's fields, and whether it is well formed, for a descriptor at scratchpad offset `off` of a tile with `size`
bytes of scratchpad. -/
structure RingDesc where
  resv  : Word
  head  : Word
  slots : Nat
  base  : Nat
  ok    : Bool
deriving DecidableEq, Repr

/-- Reads a descriptor. -/
def ringDesc (ws : List Word) (off size : Nat) : RingDesc :=
  let w := fun i => ws.getD i 0
  let n := ((w 2).extractLsb' 32 17).toNat
  let base := ((w 2).extractLsb' 0 21).toNat
  { resv := w 0, head := w 1, slots := n, base := base
    ok := (w 2).extractLsb' 49 15 == 0 && (w 2).extractLsb' 21 11 == 0 && w 3 == 0 && w 4 == 0 && w 5 == 0 && w 6 == 0 && w 7 == 0
      && base % 16 == 0 && 1 ≤ n && n ≤ 65536 && base + 16 * n ≤ size && (base + 16 * n ≤ off || off + 64 ≤ base)
      && (w 0 - w 1).toNat ≤ n }

/-- The granule of ticket `t`'s slot in the pool of `tile`. -/
def RingDesc.granule (r : RingDesc) (tile : Nat) (t : Word) : Nat := (poolBase tile + r.base) / 16 + t.toNat % r.slots

/-- The granules of `n` tickets from `t`. -/
def RingDesc.granules (r : RingDesc) (tile : Nat) (t : Word) (n : Nat) : List Nat :=
  (List.range n).map fun i => r.granule tile (t + BitVec.ofNat 64 i)

/-- Consecutive full slots from ticket `t`, at most `n`. -/
def State.fullRun (s : State) (r : RingDesc) (tile : Nat) (t : Word) : Nat → Nat
  | 0 => 0
  | n + 1 => if s.full (r.granule tile t) then s.fullRun r tile (t + 1) n + 1 else 0

/-! ### One operation at its home -/

/-- What an operation at its home comes to: it must wait; or it is done, with its reply (none where the reply follows a held counter
update), and whether waiters are to be served. -/
inductive Perf where
  | wait
  | done (s : State) (reply : Option RepVal) (wake : Bool)

/-- The first uncorrectable location that reading ranges meets. -/
def State.badParts (s : State) (ps : List (Nat × Nat)) : Option Nat := ps.findSome? fun p => s.badIn p.1 p.2

/-- A full/empty operation on the 8 bytes at `a` (R190, R180). -/
def State.performFe (s : State) (op : FeOp) (a : Nat) (w : Word) : Perf :=
  let g := granule a
  let full := s.full g
  let get := fun (clear : Bool) =>
    match s.badIn a 8 with
    | some b => Perf.done s (some (.bad b)) false
    | none => .done (if clear then s.clearFull g else s) (some (.val (s.read64 a) 0)) clear
  let put := fun (_ : Unit) =>
    match s.badPartly a 8 with
    | some b => Perf.done s (some (.bad b)) false
    | none => .done ((s.writeNat a 8 w.toNat).setFull g) (some .done) true
  match op with
  | .lddW => if full then get false else .wait
  | .lddWc => if full then get true else .wait
  | .lddT => if full then get false else .done s (some .empty) false
  | .lddTc => if full then get true else .done s (some .empty) false
  | .fetest => .done s (some (.val (boolWord full) 0)) false
  | .stdF => put ()
  | .stdWf => if full then .wait else put ()
  | .feset => .done (s.setFull g) (some .done) true
  | .feclr => .done (s.clearFull g) (some .done) true
  | .waitf => if full then .done s (some .done) false else .wait

/-- A RING operation on the descriptor at `a` (R204). `held` tells that an earlier RRESV on it waits. -/
def State.performRing (s : State) (op : RingOp) (a : Nat) (x y : Word) (held : Bool) : Perf :=
  match s.badIn a 64, poolTile a with
  | some b, _ => .done s (some (.bad b)) false
  | none, none => .done s (some .illop) false
  | none, some t =>
    let r := ringDesc (wordsOf 8 (s.read a 64)) (a - poolBase t) (s.scratch t)
    if r.ok = false then .done s (some .illop) false
    else
      match op with
      | .rresv =>
        if x = 0 ∨ r.slots < x.toNat then .done s (some (.val (BitVec.allOnes 64) 0)) false
        else if held ∨ r.slots < (r.resv - r.head).toNat + x.toNat then .wait
        else .done (s.writeNat a 8 (r.resv + x).toNat) (some (.val r.resv 0)) true
      | .rpubl =>
        if y = 0 ∨ r.slots < y.toNat then .done s (some .illop) false
        else .done (s.setFulls (r.granules t x y.toNat)) (some .done) true
      | .rhead =>
        .done s (some (.val (BitVec.ofNat 64 (s.fullRun r t r.head (Nat.min 64 r.slots))) 0)) false
      | .rcons =>
        if s.fullRun r t r.head r.slots < x.toNat then .done s (some .illop) false
        else .done ((s.clearFulls (r.granules t r.head x.toNat)).writeNat (a + 8) 8 (r.head + x).toNat) (some .done) true

/-- A plain write of ranges (R189, R200): a partial write of an uncorrectable granule or line consumes it. -/
def State.performWrite (s : State) (h : Header) (parts : List (Nat × List Byte)) (full : Bool) (cnt : Option Word) (tag : Nat) : Perf :=
  match parts.findSome? fun p => s.badPartly p.1 p.2.length with
  | some b => .done s (some (.bad b)) false
  | none =>
    let s1 := parts.foldl (fun s p =>
      let s' := s.writeAt h.colour p.1 p.2
      if full then s'.setFulls (granules p.1 p.2.length) else s') s
    match cnt, parts.head?.bind fun p => poolTile p.1 with
    | some cid, some t =>
      let m := replyTo h 9 (s1.getTile t).snap.colour s.pkg t (s1.getTile t).mseq (.reply tag .done)
      .done (s1.dataUpdate t cid.toNat 1 h.ftag (some m)) none full
    | _, _ => .done s1 (some .done) full

/-- Whether an old-colour access at `k` reaches a granule that has a pre-image for the running snapshot (R305). -/
def State.preImaged (s : State) (c : BitVec 1) (k : Nat) : Bool :=
  match s.groupOfPage k with
  | none => false
  | some gid =>
    match s.oldAt gid (homeDie k) c, (s.group gid).bind (·.running) with
    | true, some q => ((s.getDie (homeDie k)).memory.preOf gid q.sid (k / 0x10000)).isSome
    | _, _ => false

/-- The colour in which an atomic is performed: an old one on a granule with a pre-image is performed on live memory only (R305). -/
def State.atomicColour (s : State) (c : BitVec 1) (k : Nat) : BitVec 1 := if s.preImaged c k then ~~~c else c

/-- An atomic (R192). -/
def State.performAmo (s : State) (colour : BitVec 1) (op : AmoOp) (size : AmoSize) (a : Nat) (b d : Word) : Perf :=
  match s.badIn a size.bytes with
  | some x => .done s (some (.bad x)) false
  | none =>
    let c := s.atomicColour colour a
    let m := 2 ^ (8 * size.bytes)
    let old := leNat (s.readAt c a size.bytes)
    let (new, f) := amoNew op size old (b.toNat % m) (d.toNat % m)
    let s1 := match new with
      | some v => s.writeAt c a (leBytes size.bytes v)
      | none => s
    .done s1 (some (.val (BitVec.ofNat 64 old) f)) false

/-- The lanes of a VSCATA at one home, in lane order (R221, R222). -/
def State.performLanes (s : State) (c : BitVec 1) (t : ElemType) (ls : List (Nat × Word)) : Perf :=
  match s.badParts (ls.map fun l => (l.1, t.width / 8)) with
  | some x => .done s (some (.bad x)) false
  | none =>
    .done (ls.foldl (fun s l =>
      let cl := s.atomicColour c l.1
      s.writeAt cl l.1 (leBytes (t.width / 8) (laneSum t (leNat (s.readAt cl l.1 (t.width / 8))) l.2.toNat))) s) (some .done) false

/-- An operation at its home (R113): indivisible. -/
def State.perform (s : State) (h : Header) (tag : Nat) (held : Bool) (op : MemOp) : Perf :=
  match op with
  | .read ps =>
    match s.badParts (ps.map fun p => (p.key, p.len)) with
    | some b => .done s (some (.bad b)) false
    | none => .done s (some (.data (ps.map fun p => (p.pos, s.readAt h.colour p.key p.len)))) false
  | .fe o a w => s.performFe o a w
  | .vldW a =>
    if (granules a 64).all s.full then
      match s.badIn a 64 with
      | some b => .done s (some (.bad b)) false
      | none => .done s (some (.data [(0, s.read a 64)])) false
    else .wait
  | .write ps full cnt => s.performWrite h ps full cnt tag
  | .amo o size a b c => s.performAmo h.colour o size a b c
  | .addLanes t ls => s.performLanes h.colour t ls
  | .ring o a x y => s.performRing o a x y held

/-- Whether an operation is an RRESV on descriptor `a`. -/
def isRresv (op : MemOp) (a : Nat) : Bool :=
  match op with
  | .ring .rresv b _ _ => a == b
  | _ => false

/-- Whether earlier waiters hold an operation back: an RRESV behind an RRESV of its ring (R204). -/
def heldBack (ws : List Waiter) (op : MemOp) : Bool :=
  match op with
  | .ring .rresv a _ _ => ws.any fun w => isRresv w.op a
  | _ => false

/-- The kind of the reply to an operation (R205). -/
def replyKind (op : MemOp) : BitVec 4 :=
  match op with
  | .read _ | .vldW _ | .amo .. => 8
  | .fe o _ _ => match o with
    | .lddW | .lddWc | .lddT | .lddTc | .fetest => 8
    | _ => 9
  | _ => 9

/-- A home consumes uncorrectable data for a request of another package: its own package learns of it here (R285, R288). A requester of
this package is told by the reply. -/
def State.consumedFor (s : State) (h : Header) (v : RepVal) : State :=
  match v with
  | .bad k => if h.spkg.toNat = s.pkg then s else s.consumeBad Config.vestibuleNode k [0x0B, 0, 0, h.msgid, zext64 h.spkg * 0x1000 + zext64 h.stile, 0, 0, 0]
  | _ => s

/-- A home's answer goes to its requester: to a context of the same tile at once unless it sent a request flit, otherwise by a reply
(R189, R205). -/
def State.answer (s : State) (t : Nat) (h : Header) (op : MemOp) (tag : Nat) (v : RepVal) : State :=
  if h.spkg.toNat = s.pkg ∧ h.stile.toNat = t ∧ (s.getTile t).mu.out.all (·.tag != tag) then s.deliver t tag v
  else
    (s.tileReply t h (replyKind op) (.reply tag v)).consumedFor h v

/-- The first waiter of a list that can be performed, with those before it. -/
def State.nextWaiter (s : State) : List Waiter → List Waiter → Option (Waiter × Perf)
  | _, [] => none
  | before, w :: ws =>
    match s.perform w.hdr w.tag (heldBack before w.op) w.op with
    | .wait => s.nextWaiter (before ++ [w]) ws
    | p => some (w, p)

/-- A waiter that can be performed now, at tile `t`. -/
def State.canServe (s : State) (t : Nat) : Bool := (s.nextWaiter [] (s.getTile t).waitList).isSome

/-- Serves the waiters of a tile's memory unit, oldest first, until none can be performed (R112, R204). -/
def State.serveWaiters (s : State) (t : Nat) : Nat → State
  | 0 => s
  | n + 1 =>
    match s.nextWaiter [] (s.getTile t).waitList with
    | some (w, .done s1 v _) =>
      let s2 := s1.modTile t fun x => x.dropWaiter s.pkg t w
      (match v with
        | some r => s2.answer t w.hdr w.op w.tag r
        | none => s2).serveWaiters t n
    | _ => s

/-- Serves the waiters of a tile after a change. -/
def State.wake (s : State) (t : Nat) : State := s.serveWaiters t (s.getTile t).waitList.length

/-! ### Requests arriving at a memory unit (R107, R112, R200, R204) -/

/-- Whether the context that sent a request still waits for its reply. -/
def State.stillWaits (s : State) (h : Header) (tag : Nat) : Bool :=
  h.spkg.toNat != s.pkg || ((s.getTile h.stile.toNat).waiterOf tag).isSome

/-- A request at a tile's memory unit; none where it is refused. A wait of the tile's own takes none of the 32 entries of R112 (DESIGN CHOICE,
log entry 57). -/
def State.serveAtTile (s : State) (t : Nat) (f : Flit) (tag : Nat) (op : MemOp) : Option State :=
  if (s.partOf t).isNone then some (s.tileReply t f.hdr 9 (.reply tag .outside))
  else
    let x := s.getTile t
    match s.perform f.hdr tag (heldBack x.waitList op) op with
    | .done s1 v wake =>
      let s2 := match v with
        | some r => s1.answer t f.hdr op tag r
        | none => s1
      some (if wake then s2.wake t else s2)
    | .wait =>
      if s.stillWaits f.hdr tag = false then some (s.tileReply t f.hdr 9 (.reply tag .done))
      else if fromTile f.hdr s.pkg t ∨ x.waitRoom s.pkg t then
        some (s.setTile t { x with mu := { x.mu with waiters := x.mu.waiters ++ [{ op := op, hdr := f.hdr, tag := tag }] } })
      else if f.age = 4095 ∧ x.land.reservedFree then
        some (s.setTile t { x with land := { x.land with reserved := some f } })
      else none

/-! ### Requests arriving at a memory node (R108, R121, R305) -/

/-- Leases granted at a die's home that an access from another die conflicts with (R121); an X lease held as S counts as S (R306). -/
def Newel.conflicts (w : Newel) (pkg die : Nat) (keys : List Nat) (write : Bool) : List HomeLease :=
  w.home.filter fun l => (l.pkg != pkg || l.die != die) && (write || l.mode == 7 && l.shut == []) && keys.any fun k => k / 0x200000 == l.region

/-- Recalls leases: a kind-10 flit to the Newel instance of each holding die not yet asked (R121), with MSEQ 0 (DESIGN CHOICE, log entry
79). -/
def State.recall (s : State) (d : Nat) (ls : List HomeLease) : State :=
  let ask := ls.filter fun l => !l.recalled
  s.modNewel d fun w =>
    { w with
      home := updateWhere w.home ls.contains fun l => { l with recalled := true }
      out := w.out ++ ask.map fun l =>
        { hdr := { kind := 10, dpkg := BitVec.ofNat 15 l.pkg, dtile := BitVec.ofNat 12 (Config.newelNode l.die),
                   spkg := BitVec.ofNat 15 s.pkg, stile := BitVec.ofNat 12 (Config.newelNode d) }
          body := .lockReply (.recall l.region l.serial) } }

/-- The part of an atomic request that reached granules with a pre-image: what the memory node logs (R305; each lane of a VSCATA is an
access of its own, log entry 24). -/
def State.loggedPart (s : State) (c : BitVec 1) (op : MemOp) : Option MemOp :=
  match op with
  | .amo _ _ a _ _ => if s.preImaged c a then some op else none
  | .addLanes t ls =>
    match ls.filter fun l => s.preImaged c l.1 with
    | [] => none
    | l :: r => some (.addLanes t (l :: r))
  | _ => none

/-- The colour of a memory node's reply (R305): that of the request, but new for an atomic on a granule with a pre-image, which is
also logged. -/
def State.replyColour (s : State) (d : Nat) (f : Flit) (tag : Nat) (op : MemOp) : State × BitVec 1 :=
  match (opTouches op).1.head?.bind s.groupOfPage with
  | none => (s, f.hdr.colour)
  | some gid =>
    let ns := s.nodeSnap gid (Config.memoryNode d)
    if s.oldAt gid d f.hdr.colour = false then (s, ns.colour)
    else
      match s.loggedPart f.hdr.colour op with
      | some part => (s.logFlits gid (Config.memoryNode d) ({ hdr := f.hdr, body := .request tag part } : Msg).flits, ns.colour)
      | none => (s, f.hdr.colour)

/-- A request at a die's memory node: performed, or held while the conflicting leases on all its regions are recalled. One of them at a
time wakes it. -/
def State.serveAtMemory (s : State) (d : Nat) (f : Flit) (tag : Nat) (op : MemOp) : State :=
  let (keys, write) := opTouches op
  let die := dieOfTile f.hdr.stile.toNat
  match (s.getDie d).newel.conflicts f.hdr.spkg.toNat die keys write with
  | l :: ls =>
    (s.recall d (l :: ls)).modNewel d fun w =>
      { w with waiting := w.waiting ++ [{ region := l.region, pkg := f.hdr.spkg.toNat, die := die, mode := 0, flit := f }] }
  | [] =>
    match s.perform f.hdr tag false op with
    | .done s1 v _ =>
      let (s2, c) := s1.replyColour d f tag op
      match v with
      | some r =>
        let s3 := s2.modMemory d fun m =>
          { m with out := m.out ++ [replyTo f.hdr (replyKind op) c s.pkg (Config.memoryNode d) f.hdr.mseq (.reply tag r)] }
        s3.consumedFor f.hdr r
      | none => s2
    | .wait => s

/-! ### Replies arriving (R188, R200, R276, R285) -/

/-- A GET's data lands: each granule is written, then FULL set; waiters are served; GET.N counts when every part has landed (R200). -/
def State.landGet (s : State) (t : Nat) (o : Outst) (ge : GetEnd) (ps : List (Nat × List Byte)) : State :=
  let s1 := ps.foldl (fun s p => (s.write (ge.dst + p.1) p.2).setFulls (granules (ge.dst + p.1) p.2.length)) s
  let s2 := s1.wake t
  match ge.cnt with
  | none => s2
  | some cid =>
    let waiting := match ge.mate with
      | some m => (s2.getTile t).mu.out.any (·.tag == m)
      | none => false
    if waiting then s2 else s2.dataUpdate t cid 1 o.ftag none

/-- The engine command, matrix or copy and its number, that waits for the reply to request `tag`. -/
def Tile.cmdOf (x : Tile) (tag : Nat) : Option (Bool × Nat) :=
  match x.matrix.cmds.find? (·.tags.contains tag), x.copy.cmds.find? (·.tags.contains tag) with
  | some k, _ => some (true, k.seq)
  | none, some k => some (false, k.seq)
  | none, none => none

/-- The tile with an engine command changed. -/
def Tile.modCmd (x : Tile) (matrix : Bool) (seq : Nat) (f : Cmd → Cmd) : Tile :=
  if matrix then { x with matrix := { x.matrix with cmds := updateWhere x.matrix.cmds (·.seq == seq) f } }
  else { x with copy := { x.copy with cmds := updateWhere x.copy.cmds (·.seq == seq) f } }

/-- An engine command meets uncorrectable data: it stops for good, and containment follows (R285). -/
def State.killCmd (s : State) (t : Nat) (matrix : Bool) (seq k : Nat) : State :=
  (s.modTile t fun x => x.modCmd matrix seq fun c => { c with dead := true }).consumeBad t k []

/-- A reply reaches an engine command. -/
def State.engineReply (s : State) (t : Nat) (matrix : Bool) (seq tag : Nat) (v : RepVal) : State :=
  let s1 := s.modTile t fun x => x.modCmd matrix seq fun c => { c with tags := c.tags.filter (· != tag) }
  match v with
  | .data ps => s1.modTile t fun x => x.modCmd matrix seq fun c => { c with got := c.got ++ ps }
  | .bad a => s1.killCmd t matrix seq a
  | .unmapped => s1.modTile t fun x => x.modCmd matrix seq fun c => { c with fail := 0x07 }
  | .outside => s1.modTile t fun x => x.modCmd matrix seq fun c => { c with fail := 0x06 }
  | .val _ _ | .done | .empty | .illop => s1

/-- Whether a context has an instruction still to issue: it is not idle, and no REQUEUE has ended its handler (R83). -/
def Ctx.issuesAgain (c : Ctx) : Bool :=
  match c.run with
  | .idle | .wait .rearrive => false
  | _ => true

/-- A reply completes a tile's request: the entry is freed and its data goes where it belongs. -/
def State.finishReply (s : State) (t tag : Nat) (v : RepVal) : State :=
  match (s.getTile t).mu.out.find? (·.tag == tag) with
  | none => s.deliver t tag v
  | some o =>
    let s1 := s.modTile t fun x => { x with mu := { x.mu with out := x.mu.out.filter (·.tag != tag) } }
    match (s1.getTile t).cmdOf tag with
    | some (matrix, seq) => s1.engineReply t matrix seq tag v
    | none =>
    match v with
    | .bad a =>
      let at_ := spotAddr a o.spots
      match (s1.getTile t).waiterOf tag with
      | some c => s1.mcheck t c a at_ (s1.getCtx t c).pc (s1.getCtx t c).insn
      | none =>
        if (s1.getCtx t o.ctx).gen = o.gen ∧ (s1.getCtx t o.ctx).issuesAgain then
          s1.modCtx t o.ctx fun k => { k with late := k.late ++ [(o.pc, a, at_)] }
        else s1.consumeBad t a (s1.orphanRecord t o.ctx o.pc o.msgid (s.dataAddr a at_))
    | .data ps =>
      match o.get with
      | some ge => s1.landGet t o ge ps
      | none => s1.deliver t tag v
    | _ => s1.deliver t tag v

/-! ### Leases in the way of a fetch or a page walk (R121) -/

/-- The leases that reads of places on this package by tile `t` meet, with the die of each home. -/
def State.readConflicts (s : State) (t : Nat) (keys : List Nat) : List (Nat × HomeLease) :=
  [0, 1, 2, 3].flatMap fun d =>
    ((s.getDie d).newel.conflicts s.pkg (dieOfTile t) (keys.filter fun k => homeDie k == d) false).map fun l => (d, l)

/-- Recalls those leases. -/
def State.recallFor (s : State) (t : Nat) (keys : List Nat) : State :=
  (s.readConflicts t keys).foldl (fun s e => s.recall e.1 [e.2]) s

/-- The places a tile's page walks read to translate ranges of addresses. -/
def State.walkKeys (s : State) (t : Nat) (as : List (Addr × Nat)) : List Nat :=
  as.flatMap fun a => if inTileSpace a.1 then [] else (pageParts a.1.toNat a.2).flatMap fun p => s.tableKeys t p.1

/-- Runs `f` on the value of an access's checks, or traps; where the page walks they rest on meet a lease, it is recalled and the context
waits. ALIGN and PARTITION come before any walk (R109). -/
def State.orLease {α : Type} (s : State) (t : Nat) (as : List (Addr × Nat)) (x : Except Trap α) (f : α → State) : State :=
  let keys := s.walkKeys t as
  let early := match x with
    | .error e => e.code == 0x04 || e.code == 0x07
    | .ok _ => false
  if early || s.readConflicts t keys == [] then s.orTrap x f else (s.recallFor t keys).waitFor (.leases keys)

/-! ### Accesses of an instruction -/

/-- The kind of a request (R68, R205). -/
def requestKind (op : MemOp) : BitVec 4 :=
  match op with
  | .read _ | .vldW _ => 1
  | .fe o _ _ => match o with
    | .stdF | .stdWf | .feset | .feclr => 2
    | _ => 1
  | .write .. => 2
  | .amo .. | .addLanes .. | .ring .. => 3

/-- The granules a request touches at its home (R188). -/
def opGranules (op : MemOp) : List Nat :=
  match op with
  | .read ps => ps.flatMap fun p => granules p.key p.len
  | .fe _ a _ => [granule a]
  | .vldW a => granules a 64
  | .write ps _ _ => ps.flatMap fun p => granules p.1 p.2.length
  | .amo _ _ a _ _ => [granule a]
  | .addLanes _ ls => ls.map fun l => granule l.1
  | .ring _ a _ _ => granules a 64

/-- Whether a place is the executing tile's own pool. -/
def State.isOwn (s : State) (p : Piece) : Bool := p.pkg == s.pkg && p.node == s.tile

/-- The header local operations carry: the executing tile's own. -/
def State.ownHeader (s : State) : Header :=
  { ftag := s.cur.ftag, colour := s.me.snap.colour, spkg := BitVec.ofNat 15 s.pkg, stile := BitVec.ofNat 12 s.tile,
    dpkg := BitVec.ofNat 15 s.pkg, dtile := BitVec.ofNat 12 s.tile }

/-- The outcome of a local operation reaches the executing instruction; `sp` is the range it reaches. -/
def State.completeOwn (s : State) (len : Nat) (fin : Fin) (ea : Addr) (sp : Spot) (v : RepVal) : State :=
  match v with
  | .data ps => s.retire len fun c => c.finish fin ps none
  | .val w f => s.retire len fun c => c.finish fin [] (some (w, f))
  | .done => s.retire len fun c => c.finish fin [] none
  | .empty => s.emptyTrap s.tile s.ctx ea
  | .illop => s.trap trapIllOperand
  | .unmapped => s.trap (trapXlate ea)
  | .outside => s.trap (trapPartition ea)
  | .bad k => s.trapBad k (spotAddr k [sp])

/-- Whether an operation may write data or FULL. -/
def opWrites : MemOp → Bool
  | .read _ | .vldW _ | .ring .rhead .. => false
  | .fe o _ _ => match o with
    | .lddW | .lddT | .fetest | .waitf => false
    | _ => true
  | _ => true

/-- Whether an operation is an atomic, whose injection is a release whatever its order (R125). -/
def opAtomic : MemOp → Bool
  | .amo .. | .addLanes .. => true
  | _ => false

/-- What an access waits for at its home: a release, and an atomic that is injected, for everything the context has outstanding (R125,
R188); any other write for what it has outstanding that reads (R124). -/
def State.coverTags (s : State) (p : Piece) (op : MemOp) (rel : Bool) : List Nat :=
  if rel || opAtomic op && !s.isOwn p then s.me.outTags s.ctx else if opWrites op then s.me.readTags s.ctx else []

/-- Whether an operation tests FULL and finds a granule empty: it waits at its home, or says so (R190, R219). -/
def State.findsEmpty (s : State) (op : MemOp) : Bool :=
  match op with
  | .fe o a _ => match o with
    | .lddW | .lddWc | .lddT | .lddTc | .fetest | .waitf => !s.full (granule a)
    | _ => false
  | .vldW a => !(granules a 64).all s.full
  | _ => false

/-- What an operation on the executing tile's own scratchpad waits for: no earlier access of the context to its granules is outstanding
(R188). A plain load does not wait for a GET that lands there (R200), nor does a test of FULL before it has landed. -/
def State.ownWait (s : State) (op : MemOp) : Option Cond :=
  let gs := opGranules op
  match op with
  | .read _ => if s.me.granuleBusy s.ctx gs then some (.granules gs) else none
  | _ =>
    if s.findsEmpty op then if s.me.granuleBusy s.ctx gs then some (.granules gs) else none
    else if s.me.endsBusy s.ctx gs then some (.ends gs) else none

/-- An operation on the executing tile's own scratchpad (R189): at once, or waiting at the memory unit. -/
def State.accessOwn (s : State) (len : Nat) (p : Piece) (op : MemOp) (ea : Addr) (fin : Fin) : State :=
  let tag := s.me.mu.nextTag
  match s.perform s.ownHeader tag (heldBack s.me.waitList op) op with
  | .done s1 v wake => (if wake then s1.wake s.tile else s1).completeOwn len fin ea p.spot (v.getD .done)
  | .wait =>
    (s.modMe fun x =>
      { x with mu := { x.mu with nextTag := tag + 1,
                                 waiters := x.mu.waiters ++ [{ op := op, hdr := s.ownHeader, tag := tag,
                                                                 pages := p.page.toList }] } }).awaitReplies [tag] fin ea len

/-- An operation carried to its home (R188): one request, once there is room; it is injected after what it covers. -/
def State.accessFar (s : State) (len : Nat) (p : Piece) (op : MemOp) (ea : Addr) (fin : Fin) (wait rel : Bool) : State :=
  if s.me.roomFor s.ctx 1 = false then s.waitFor (.requests 1)
  else
    let tag := s.me.mu.nextTag
    let s1 := s.request s.tile s.ctx
      { kind := requestKind op, pkg := p.pkg, node := p.node, op := op, grs := (opGranules op), pages := p.page.toList, spots := [p.spot],
        get := none }
      (s.coverTags p op rel)
    if wait then s1.awaitReplies [tag] fin ea len else s1.retire len id

/-- An operation at its home, once no earlier access of the context to its granules is outstanding (R188). One on the executing tile's
own scratchpad is performed at once (R189), and so issues only once the reads it must follow are performed (R124); but a release that
covers accesses still outstanding goes to the tile's own memory unit as a request, behind them (log entry 56). -/
def State.access (s : State) (len : Nat) (p : Piece) (op : MemOp) (ea : Addr) (fin : Fin) (wait rel : Bool) : State :=
  if s.isOwn p && (s.coverTags p op rel == [] || !rel) then
    if s.coverTags p op rel ≠ [] then s.waitFor .reads
    else match s.ownWait op with
      | some c => s.waitFor c
      | none => s.accessOwn len p op ea fin
  else if s.me.endsBusy s.ctx (opGranules op) then s.waitFor (.ends (opGranules op))
  else s.accessFar len p op ea fin wait rel

/-- A checked scalar or vector access of one place: the checks of R109, then the operation made from its memory key. -/
def State.accessAt (s : State) (len : Nat) (ea : Addr) (n align : Nat) (need : Need) (op : Nat → MemOp) (fin : Fin)
    (wait rel : Bool) : State :=
  s.orLease s.tile [(ea, n)] (s.resolve1 s.tile ea n align need) fun p =>
    (s.touch s.tile ea n).access len p (op p.key) ea fin wait rel

end Sys2Proof.Machine
end

