-- ==== Sys2Proof/Machine/Amo.lean ====
section
/-! DEFINITION. Atomics (spec/ 13 R192, R193). -/

namespace Sys2Proof.Machine

/-- An atomic (R192, R193): the context waits unless it is the no-return form; with D = g0 the old value and the flags are
discarded. -/
def State.amoAt (s : State) (op : AmoOp) (o : Order) (sz : AmoSize) (d : Reg) (a b c : Word) : State :=
  let wait := o.acquires || d != 0
  s.accessAt 4 (addrOf a) sz.bytes sz.bytes needWrite (fun k => .amo op sz k b c) (if d != 0 then .amo d sz else .none) wait o.releases

/-- R192: the atomic ADD. -/
def execAmoAdd (o : Order) (sz : AmoSize) (d a b : Reg) (s : State) : Result :=
  .next (s.amoAt .add o sz d (s.cur.rd a) (s.cur.rd b) 0)

/-- R192: the atomic AND. -/
def execAmoAnd (o : Order) (sz : AmoSize) (d a b : Reg) (s : State) : Result :=
  .next (s.amoAt .and o sz d (s.cur.rd a) (s.cur.rd b) 0)

/-- R192: the atomic OR. -/
def execAmoOr (o : Order) (sz : AmoSize) (d a b : Reg) (s : State) : Result :=
  .next (s.amoAt .or o sz d (s.cur.rd a) (s.cur.rd b) 0)

/-- R192: the atomic XOR. -/
def execAmoXor (o : Order) (sz : AmoSize) (d a b : Reg) (s : State) : Result :=
  .next (s.amoAt .xor o sz d (s.cur.rd a) (s.cur.rd b) 0)

/-- R192: the atomic MIN. -/
def execAmoMin (o : Order) (sz : AmoSize) (d a b : Reg) (s : State) : Result :=
  .next (s.amoAt .min o sz d (s.cur.rd a) (s.cur.rd b) 0)

/-- R192: the atomic MAX. -/
def execAmoMax (o : Order) (sz : AmoSize) (d a b : Reg) (s : State) : Result :=
  .next (s.amoAt .max o sz d (s.cur.rd a) (s.cur.rd b) 0)

/-- R192: the atomic MINN. -/
def execAmoMinn (o : Order) (sz : AmoSize) (d a b : Reg) (s : State) : Result :=
  .next (s.amoAt .minn o sz d (s.cur.rd a) (s.cur.rd b) 0)

/-- R192: the atomic MAXN. -/
def execAmoMaxn (o : Order) (sz : AmoSize) (d a b : Reg) (s : State) : Result :=
  .next (s.amoAt .maxn o sz d (s.cur.rd a) (s.cur.rd b) 0)

/-- R192: the atomic SWAP. -/
def execAmoSwap (o : Order) (sz : AmoSize) (d a b : Reg) (s : State) : Result :=
  .next (s.amoAt .swap o sz d (s.cur.rd a) (s.cur.rd b) 0)

/-- R192: the atomic CAS. -/
def execAmoCas (o : Order) (sz : AmoSize) (d a b c : Reg) (s : State) : Result :=
  .next (s.amoAt .cas o sz d (s.cur.rd a) (s.cur.rd b) (s.cur.rd c))

/-- R192: the atomic FADD. -/
def execAmoFadd (o : Order) (sz : AmoSize) (d a b : Reg) (s : State) : Result :=
  .next (s.amoAt .fadd o sz d (s.cur.rd a) (s.cur.rd b) 0)

end Sys2Proof.Machine
end

