-- ==== Sys2Proof/Machine/Engine.lean ====
section
/-! DEFINITION. What both engines share: command records and their post checks, posting, requests an engine sends, and completion with
its NOTIFY (spec/ 17 R229, R230, R239, R241, R245 to R248). -/

namespace Sys2Proof.Machine

/-! ### Records -/

/-- Word `i` of a command record. -/
def recWord (r : List Word) (i : Nat) : Word := r.getD i 0

/-- Bits [hi:lo] of a word of a record, as a number. -/
def recField (r : List Word) (i hi lo : Nat) : Nat := (recWord r i).toNat / 2 ^ lo % 2 ^ (hi - lo + 1)

/-- OP (R229, R241). -/
def recOp (r : List Word) : Nat := recField r 0 7 0

/-- NOTIFY (R229). -/
def recNotify (r : List Word) : Bool := recField r 0 8 8 == 1

/-- Whether a matrix opcode is an MMA command (R230). -/
def isMma (op : Nat) : Bool := 1 ≤ op && op ≤ 0x0B

/-- The zero fields of the notify word (R229). -/
def notifyZeros (r : List Word) : Bool := if recNotify r then recField r 7 39 27 == 0 else recWord r 7 == 0

/-- The words, of 1 to 6, that a matrix command uses (R230). -/
def matrixUses (op : Nat) : List Nat :=
  match op with
  | 0x06 | 0x07 => [1, 2, 3, 4, 5, 6]
  | 0x0A | 0x0B => [1, 2, 3, 4, 5]
  | 0x11 => [1, 2]
  | 0x12 => [1, 2, 3, 5]
  | 0x13 => [1]
  | 0x10 | 0x20 => []
  | _ => [1, 2, 3, 4]

/-- The post checks of a matrix record but for its notify word (R230, R247): an assigned OP, flags within the OP's set, and every zero
field zero. -/
def matrixFieldsOk (r : List Word) : Bool :=
  let op := recOp r
  (isMma op || (0x10 ≤ op && op ≤ 0x13) || op == 0x20)
    && recField r 0 15 12 == 0
    && (recField r 0 31 24 == 0 || op == 0x11 || op == 0x12)
    && (recField r 0 9 9 == 0 || op == 0x0A || op == 0x0B)
    && (recField r 0 10 10 == 0 || isMma op)
    && (recField r 0 11 11 == 0 || (0x10 ≤ op && op ≤ 0x13))
    && [1, 2, 3, 4, 5, 6].all (fun i => (matrixUses op).contains i || recWord r i == 0)
    && (op != 0x20 || (recField r 0 63 32 == 0 && recField r 0 23 16 == 0))
    && (!isMma op || (recField r 2 62 32 == 0 && recField r 4 62 32 == 0))
    && ((op != 0x11 && op != 0x12) || recField r 2 63 32 == 0)
    && (op != 0x11 || recField r 0 31 28 == 0)
    && (op != 0x12 || (recField r 0 31 31 == 0 && recField r 3 63 32 == 0))
    && (op != 0x13 || recField r 1 63 7 == 0)

/-- Source and destination formats of a copy record (R243). -/
def copySrcFmt (r : List Word) : Nat := recField r 1 63 60
def copyDstFmt (r : List Word) : Nat := recField r 2 63 60

/-- The post checks of a copy record but for its notify word (R241, R247). -/
def copyFieldsOk (r : List Word) : Bool :=
  let op := recOp r
  1 ≤ op && op ≤ 5
    && recField r 0 31 18 == 0 && recField r 0 15 11 == 0 && recField r 0 17 16 != 3
    && recField r 3 63 48 == 0
    && (op != 3 || (recWord r 1 == 0 && recField r 4 31 0 == 0))
    && (op ≥ 3 || recWord r 5 == 0)
    && (recWord r 6 == 0 || ((copySrcFmt r == 7 || copySrcFmt r == 8) && 1 ≤ copyDstFmt r && copyDstFmt r ≤ 6))

/-- The post checks of a record but for its notify word. -/
def recFieldsOk (matrix : Bool) (r : List Word) : Bool := if matrix then matrixFieldsOk r else copyFieldsOk r

/-- The check of a NOTIFY's tile address at post (R247). -/
def State.notifyDest (s : State) (t : Nat) (r : List Word) : Except Trap Unit :=
  if recNotify r then (s.destOf t (BitVec.ofNat 64 (recField r 7 26 0))).map (fun _ => ()) else .ok ()

/-! ### Posting -/

/-- An engine of a tile. -/
def Tile.engine (x : Tile) (matrix : Bool) : Engine := if matrix then x.matrix else x.copy

/-- The tile with an engine changed. -/
def Tile.modEngine (x : Tile) (matrix : Bool) (f : Engine → Engine) : Tile :=
  if matrix then { x with matrix := f x.matrix } else { x with copy := f x.copy }

/-- Room in the chain or the copy engine (R247). -/
def Engine.hasRoom (e : Engine) (matrix : Bool) : Bool := e.cmds.length < (if matrix then Config.chainRoom else Config.copyRoom)

/-- A command enters an engine with the next sequence number (R246). -/
def Engine.post (e : Engine) (r : List Word) (ftag : BitVec 12) (p0 bad notify : Bool) : Engine :=
  { e with
    last := e.last + 1
    cmds := e.cmds ++ [{ seq := e.last + 1, record := r, ftag := ftag, p0 := p0, bad := bad, notify := notify, leave := .notAsked,
                         waited := 0, dead := false, xlate := false, denied := false, rows := [], fail := 0, tags := [], got := [],
                         result := none }] }

/-- A counter action posts the record at its OFFSET (R90, R246): a record that fails the post checks is marked, and notifies only if
its notify word passes them. -/
def State.postCounter (s : State) (t : Nat) (matrix : Bool) (a : Action) : State :=
  let k := poolBase t + actionOffset a.word
  match s.badIn k 64 with
  | some b => s.consumeBad t b []
  | none =>
    let r := wordsOf 8 (s.read k 64)
    let noteOk := notifyZeros r && (match s.notifyDest t r with
      | .ok _ => true
      | .error _ => false)
    s.modTile t fun x =>
      x.modEngine matrix fun e => e.post r a.ftag false (!(recFieldsOk matrix r && noteOk)) (recNotify r && noteOk)

/-! ### Requests of an engine -/

/-- The requests of a command that a later write of its own follows: those of its outstanding writes that reach a granule of it (R242). -/
def Tile.cmdWrites (x : Tile) (matrix : Bool) (seq : Nat) (op : MemOp) : List Nat :=
  let mine := ((x.engine matrix).cmds.filter (·.seq == seq)).flatMap (·.tags)
  if requestKind op = 1 then []
  else (x.mu.out.filter fun o => !o.reads && mine.contains o.tag && o.grs.any (opGranules op).contains).map (·.tag)

/-- Sends a request of an engine command; its tag is the memory unit's next one. Writes of one command to one granule are performed in
order. -/
def State.engineRequest (s : State) (t : Nat) (matrix : Bool) (seq : Nat) (ftag : BitVec 12) (p : Piece) (op : MemOp) : State :=
  let x := s.getTile t
  let tag := x.mu.nextTag
  let h := (s.header t (requestKind op) 0 0 ftag 0 p.pkg p.node).sized (.request tag op)
  s.setTile t
    (({ x.sentOne h with
        mu := { x.mu with
          nextTag := tag + 1
          out := x.mu.out ++ [{ tag := tag, ctx := 8, gen := 0, grs := opGranules op, pages := p.page.toList, spots := [], get := none,
                                reads := requestKind op == 1, pc := 0, msgid := 0, ftag := ftag, lock := false }]
          queue := x.mu.queue ++ [{ msg := { hdr := h, body := .request tag op }, after := x.cmdWrites matrix seq op }] } } : Tile).modCmd
      matrix seq
      fun c => { c with tags := c.tags ++ [tag] })

/-- Whether a place is a tile's own pool. -/
def State.isAt (s : State) (t : Nat) (p : Piece) : Bool := p.pkg == s.pkg && p.node == t

/-- An engine write of one range: at once on the tile's own scratchpad, a request elsewhere; `full` sets FULL with the data. -/
def State.engineWrite (s : State) (t : Nat) (matrix : Bool) (seq : Nat) (ftag : BitVec 12) (full : Bool) (p : Piece)
    (bs : List Byte) : State :=
  if s.isAt t p then
    match s.badPartly p.key bs.length with
    | some b => s.killCmd t matrix seq b
    | none =>
      let s1 := s.write p.key bs
      if full then (s1.setFulls (granules p.key bs.length)).wake t else s1
  else s.engineRequest t matrix seq ftag p (.write [(p.key, bs)] full none)

/-- A range in runs of at most 256 bytes, what one message carries (R65). -/
def cutRange : Nat → Nat → Nat → List (Nat × Nat)
  | 0, _, _ => []
  | f + 1, k, n => if n ≤ 256 then [(k, n)] else (k, 256) :: cutRange f (k + 256) (n - 256)

/-- A place as an engine reaches it: its own scratchpad whole, any other in requests of one message each. -/
def State.cutPiece (s : State) (t : Nat) (p : Piece) : List Piece :=
  if s.isAt t p then [p]
  else (cutRange (p.len / 256 + 1) p.key p.len).map fun r => { p with key := r.1, len := r.2, addr := p.addr + BitVec.ofNat 56 (r.1 - p.key) }

/-- Writes bytes over pieces, one after the other. -/
def State.writePieces (s : State) (t : Nat) (matrix : Bool) (seq : Nat) (ftag : BitVec 12) (full : Bool) :
    List Piece → List Byte → State
  | [], _ => s
  | p :: ps, bs => (s.engineWrite t matrix seq ftag full p (bs.take p.len)).writePieces t matrix seq ftag full ps (bs.drop p.len)

/-- Writes bytes over the pieces of a range. -/
def State.engineWrites (s : State) (t : Nat) (matrix : Bool) (seq : Nat) (ftag : BitVec 12) (full : Bool) (ps : List Piece)
    (bs : List Byte) : State :=
  s.writePieces t matrix seq ftag full (ps.flatMap (s.cutPiece t)) bs

/-! ### Completion (R239, R245) -/

/-- The command of an engine with a number. -/
def Engine.cmd (e : Engine) (seq : Nat) : Option Cmd := e.cmds.find? (·.seq == seq)

/-- The status word (R248). -/
def statusWord (waited code : Nat) (flags : Flags) : Word :=
  BitVec.ofNat 64 (Nat.min waited (2 ^ 24 - 1) * 2 ^ 16 + code * 256 + flags.toNat)

/-- The status of a completed command is kept, and a nonzero code counted (R239, R248). -/
def Engine.settle (e : Engine) (k : Cmd) (code : Nat) (flags : Flags) : Engine :=
  { e with
    status := ((k.seq, statusWord k.waited code flags) :: e.status).take Config.statusKept
    errs := if code = 0 ∨ e.errs = 255 then e.errs else e.errs + 1 }

/-- Gives back a command's power leave (R250, R353). -/
def State.dropLeave (s : State) (t : Nat) (matrix : Bool) (seq : Nat) : State :=
  let mine := fun (q : LeaveReq) => q.tile == t && q.matrix == matrix && q.seq == seq
  s.modDie (dieOfTile t) fun d =>
    { d with gov := { d.gov with held := d.gov.held.filter fun q => !mine q, fifo := d.gov.fifo.filter fun q => !mine q } }

/-- Performs a command's NOTIFY (R239): an update of the tile's own counter, or a kind-4 increment. -/
def State.notify (s : State) (t : Nat) (k : Cmd) : State :=
  if k.notify = false then s
  else
    let cid := recField k.record 7 47 40
    let amount : Word := ((recWord k.record 7).extractLsb' 48 16).signExtend 64
    match s.destOf t (BitVec.ofNat 64 (recField k.record 7 26 0)) with
    | .error _ => s
    | .ok (pkg, tile) =>
      if pkg = s.pkg ∧ tile = t then s.modTile t fun x => { x with cnt := x.cnt.update cid amount k.ftag }
      else s.sendNow t (s.header t 4 0 0 k.ftag 0 pkg tile) (.incr (BitVec.ofNat 64 cid) amount) []

/-- Whether a completion's NOTIFY is local and must wait for the action queue (R90), behind other updates that do. -/
def State.notifyWaits (s : State) (t : Nat) (k : Cmd) : Bool :=
  k.notify && !((s.getTile t).cnt.hasRoom && (s.getTile t).cnt.held.isEmpty) &&
    (match s.destOf t (BitVec.ofNat 64 (recField k.record 7 26 0)) with
      | .ok (pkg, tile) => pkg == s.pkg && tile == t
      | .error _ => false)

/-- Holds a NOTIFY that must wait (R90). -/
def Tile.holdNotify (x : Tile) (matrix : Bool) (k : Cmd) : Tile :=
  { x with cnt := { x.cnt with
      held := x.cnt.held ++ [{ cid := recField k.record 7 47 40, amount := ((recWord k.record 7).extractLsb' 48 16).signExtend 64,
                               ftag := k.ftag, reply := none, seq := if matrix then some k.seq else none }] } }

/-- Whether a command has run and its writes are performed, so that it can complete. -/
def Cmd.finished (k : Cmd) : Bool := k.result.isSome && k.tags.isEmpty && !k.dead

/-- What follows a completion (R239): the status is recorded, NOTIFY performed, the completed number advanced. Where the NOTIFY must wait
for the action queue (R90), the array's completed number advances behind it. -/
def State.cmdEffects (s : State) (t : Nat) (matrix : Bool) (k : Cmd) (r : RunResult) : State :=
  let code := if k.fail ≠ 0 then k.fail else r.code
  let s1 := s.modTile t fun x => x.modEngine matrix fun e => e.settle k code r.flags
  let advance := fun (s : State) => s.modTile t fun x => x.modEngine matrix fun e => e.advance k.seq
  if s1.notifyWaits t k then
    let s2 := s1.modTile t fun x => x.holdNotify matrix k
    if matrix then s2 else advance s2
  else advance (s1.notify t k)

/-- Whether the effects of a matrix command's completion wait behind those of an earlier one (R239). -/
def Tile.effectsHeld (x : Tile) : Bool := x.cnt.held.any fun h => h.seq.isSome

/-- The effects of complete matrix commands, in turn, as far as none is held. -/
def State.runEnded (s : State) (t : Nat) : Nat → State
  | 0 => s
  | n + 1 =>
    match (s.getTile t).effectsHeld, (s.getTile t).matrix.ended with
    | false, k :: ks =>
      let s1 := s.modTile t fun x => { x with matrix := { x.matrix with ended := ks } }
      (match k.result with
        | some r => s1.cmdEffects t true k r
        | none => s1).runEnded t n
    | _, _ => s

/-- A command completes (R239, R245, R302): accumulator cells are written back, it leaves its engine and gives back its power leave, and its
effects follow: a matrix command's behind those of every earlier one. -/
def State.completeCmd (s : State) (t : Nat) (matrix : Bool) (k : Cmd) : State :=
  match k.result with
  | none => s
  | some r =>
    let s1 := r.cells.foldl (fun s c => s.write c.1 c.2) s
    let s2 := s1.modTile t fun x => x.modEngine matrix fun e => { e with cmds := e.cmds.filter (·.seq != k.seq) }
    let s3 := if matrix && ((s2.getTile t).effectsHeld || !(s2.getTile t).matrix.ended.isEmpty) then
        s2.modTile t fun x => { x with matrix := { x.matrix with ended := x.matrix.ended ++ [k] } }
      else s2.cmdEffects t matrix k r
    s3.dropLeave t matrix k.seq

/-- A tile whose partition runs: its engines work unless it is sealed or frozen with nothing started (R99, R289). -/
def State.enginesRun (s : State) (t : Nat) : Bool := !s.sealedTile t && (s.jobOf t).isSome

/-! ### Leave (R250, R353) -/

/-- Adds a request to a governor's queue: those of native P0 go ahead of all others (R250). -/
def Governor.ask (g : Governor) (q : LeaveReq) : Governor :=
  if q.p0 then { g with fifo := g.fifo.filter (·.p0) ++ [q] ++ g.fifo.filter fun x => !x.p0 } else { g with fifo := g.fifo ++ [q] }

/-- A command asks its die's governor for leave. -/
def State.askLeave (s : State) (t : Nat) (matrix : Bool) (k : Cmd) (mw : Nat) : State :=
  let pid := match s.partOf t with
    | some (pid, _) => pid
    | none => 0
  (s.modTile t fun x => x.modCmd matrix k.seq fun c => { c with leave := .queued s.cycle }).modDie (dieOfTile t) fun d =>
    { d with gov := d.gov.ask { tile := t, matrix := matrix, seq := k.seq, mw := mw, pid := pid, p0 := k.p0 } }

/-- Asks the Vestibule to back a page for a command, which waits (R117, R238, R244). -/
def State.askXlate (s : State) (t : Nat) (matrix : Bool) (k : Cmd) (va : Addr) (write : Bool) : State :=
  (s.modTile t fun x => x.modCmd matrix k.seq fun c => { c with xlate := true }).modVest fun v =>
    { v with xlates := v.xlates ++ [{ tile := t, va := va, write := write, key := none, report := none, after := [], engine := some (matrix, k.seq),
                                      ftag := k.ftag }] }

/-- A command goes on, unless the page walks for its addresses meet a lease: that is recalled, and the command tries again (R121). -/
def State.engineLease (s : State) (t : Nat) (as : List (Addr × Nat)) (f : State) : State :=
  if s.readConflicts t (s.walkKeys t as) == [] then f else s.recallFor t (s.walkKeys t as)

/-- Ends a command with a code before it changes anything. -/
def State.failCmd (s : State) (t : Nat) (matrix : Bool) (seq code : Nat) : State :=
  s.modTile t fun x => x.modCmd matrix seq fun c => { c with result := some { code := code, flags := 0, cells := [] } }

/-! ### Codes (R248) -/

def codeBadCmd : Nat := 0x01
def codeBadAcc : Nat := 0x02
def codeBadAddr : Nat := 0x03
def codeBadSparse : Nat := 0x04

/-- The code of a failed address check, and its place in the order of R109. -/
def codeOfTrap (e : Trap) : Nat :=
  if e.code = 0x04 then 0x05 else if e.code = 0x07 then 0x06 else if e.code = 0x05 then 0x07 else 0x08

end Sys2Proof.Machine
end

