-- ==== Sys2Proof/Machine/Int.lean ====
section
/-! DEFINITION. The INT family: integer and pointer arithmetic and bit fields (spec/ 11 R166 to R168). -/

namespace Sys2Proof.Machine

/-- The count of a 64-bit shift or rotation: bits [5:0]. -/
def shiftCount (b : Word) : Nat := (b.extractLsb' 0 6).toNat

/-- The count of a 32-bit shift: bits [4:0]. -/
def shiftCountW (b : Word) : Nat := (b.extractLsb' 0 5).toNat

/-- Bits [31:0]. -/
def low32 (a : Word) : Word32 := a.extractLsb' 0 32

/-- R166: the sum modulo 2^64. -/
def execAdd (d a b : Reg) (s : State) : Result :=
  .next (s.retireG 4 d (s.cur.rd a + s.cur.rd b))

/-- R166: the difference modulo 2^64. -/
def execSub (d a b : Reg) (s : State) : Result :=
  .next (s.retireG 4 d (s.cur.rd a - s.cur.rd b))

/-- R166: the low half of the product. -/
def execMul (d a b : Reg) (s : State) : Result :=
  .next (s.retireG 4 d (s.cur.rd a * s.cur.rd b))

/-- R166: the high half of the signed product. -/
def execMulh (d a b : Reg) (s : State) : Result :=
  .next (s.retireG 4 d (mulHighS (s.cur.rd a) (s.cur.rd b)))

/-- R166: the high half of the unsigned product. -/
def execMulhn (d a b : Reg) (s : State) : Result :=
  .next (s.retireG 4 d (mulHighU (s.cur.rd a) (s.cur.rd b)))

/-- R166: the signed quotient of R39. -/
def execDiv (d a b : Reg) (s : State) : Result :=
  .next (s.retireG 4 d (sdivTrunc (s.cur.rd a) (s.cur.rd b)))

/-- R166: the unsigned quotient of R39. -/
def execDivn (d a b : Reg) (s : State) : Result :=
  .next (s.retireG 4 d (udivOnes (s.cur.rd a) (s.cur.rd b)))

/-- R166: the signed remainder of R39. -/
def execRem (d a b : Reg) (s : State) : Result :=
  .next (s.retireG 4 d (sremTrunc (s.cur.rd a) (s.cur.rd b)))

/-- R166: the unsigned remainder of R39. -/
def execRemn (d a b : Reg) (s : State) : Result :=
  .next (s.retireG 4 d (uremSelf (s.cur.rd a) (s.cur.rd b)))

/-- R166: bitwise AND. -/
def execAnd (d a b : Reg) (s : State) : Result :=
  .next (s.retireG 4 d (s.cur.rd a &&& s.cur.rd b))

/-- R166: bitwise OR. -/
def execOr (d a b : Reg) (s : State) : Result :=
  .next (s.retireG 4 d (s.cur.rd a ||| s.cur.rd b))

/-- R166: bitwise XOR. -/
def execXor (d a b : Reg) (s : State) : Result :=
  .next (s.retireG 4 d (s.cur.rd a ^^^ s.cur.rd b))

/-- R166: a AND NOT b. -/
def execAndn (d a b : Reg) (s : State) : Result :=
  .next (s.retireG 4 d (s.cur.rd a &&& ~~~(s.cur.rd b)))

/-- R166: a OR NOT b. -/
def execOrn (d a b : Reg) (s : State) : Result :=
  .next (s.retireG 4 d (s.cur.rd a ||| ~~~(s.cur.rd b)))

/-- R166: shift left by b[5:0]. -/
def execShl (d a b : Reg) (s : State) : Result :=
  .next (s.retireG 4 d (s.cur.rd a <<< shiftCount (s.cur.rd b)))

/-- R166: logical shift right by b[5:0]. -/
def execShr (d a b : Reg) (s : State) : Result :=
  .next (s.retireG 4 d (s.cur.rd a >>> shiftCount (s.cur.rd b)))

/-- R166: arithmetic shift right by b[5:0]. -/
def execSar (d a b : Reg) (s : State) : Result :=
  .next (s.retireG 4 d ((s.cur.rd a).sshiftRight (shiftCount (s.cur.rd b))))

/-- R166: rotation left by b[5:0]. -/
def execRol (d a b : Reg) (s : State) : Result :=
  .next (s.retireG 4 d (rotl (s.cur.rd a) (shiftCount (s.cur.rd b))))

/-- R166: signed minimum. -/
def execMin (d a b : Reg) (s : State) : Result :=
  .next (s.retireG 4 d (minS (s.cur.rd a) (s.cur.rd b)))

/-- R166: signed maximum. -/
def execMax (d a b : Reg) (s : State) : Result :=
  .next (s.retireG 4 d (maxS (s.cur.rd a) (s.cur.rd b)))

/-- R166: unsigned minimum. -/
def execMinn (d a b : Reg) (s : State) : Result :=
  .next (s.retireG 4 d (minU (s.cur.rd a) (s.cur.rd b)))

/-- R166: unsigned maximum. -/
def execMaxn (d a b : Reg) (s : State) : Result :=
  .next (s.retireG 4 d (maxU (s.cur.rd a) (s.cur.rd b)))

/-- R166: 1 if a = b. -/
def execSeq (d a b : Reg) (s : State) : Result :=
  .next (s.retireG 4 d (boolWord (s.cur.rd a == s.cur.rd b)))

/-- R166: 1 if a differs from b. -/
def execSne (d a b : Reg) (s : State) : Result :=
  .next (s.retireG 4 d (boolWord (s.cur.rd a != s.cur.rd b)))

/-- R166: 1 if a < b signed. -/
def execSlt (d a b : Reg) (s : State) : Result :=
  .next (s.retireG 4 d (boolWord ((s.cur.rd a).slt (s.cur.rd b))))

/-- R166: 1 if a ≤ b signed. -/
def execSle (d a b : Reg) (s : State) : Result :=
  .next (s.retireG 4 d (boolWord ((s.cur.rd a).sle (s.cur.rd b))))

/-- R166: 1 if a < b unsigned. -/
def execSltn (d a b : Reg) (s : State) : Result :=
  .next (s.retireG 4 d (boolWord ((s.cur.rd a).ult (s.cur.rd b))))

/-- R166: 1 if a ≤ b unsigned. -/
def execSlen (d a b : Reg) (s : State) : Result :=
  .next (s.retireG 4 d (boolWord ((s.cur.rd a).ule (s.cur.rd b))))

/-- R166: a if c is nonzero, else b. -/
def execSel (d a b c : Reg) (s : State) : Result :=
  .next (s.retireG 4 d (if s.cur.rd c ≠ 0 then s.cur.rd a else s.cur.rd b))

/-- R166: leading zero bits. -/
def execClz (d a : Reg) (s : State) : Result :=
  .next (s.retireG 4 d (BitVec.ofNat 64 (clz (s.cur.rd a))))

/-- R166: trailing zero bits. -/
def execCtz (d a : Reg) (s : State) : Result :=
  .next (s.retireG 4 d (BitVec.ofNat 64 (ctz (s.cur.rd a))))

/-- R166: one bits. -/
def execPopc (d a : Reg) (s : State) : Result :=
  .next (s.retireG 4 d (BitVec.ofNat 64 (popc (s.cur.rd a))))

/-- R166: the bits reversed. -/
def execBrev (d a : Reg) (s : State) : Result :=
  .next (s.retireG 4 d (brev (s.cur.rd a)))

/-- R166: a × b + c. -/
def execMuladd (d a b c : Reg) (s : State) : Result :=
  .next (s.retireG 4 d (s.cur.rd a * s.cur.rd b + s.cur.rd c))

/-- R166: 32-bit sum, sign-extended. -/
def execAddw (d a b : Reg) (s : State) : Result :=
  .next (s.retireG 4 d (sext64 (low32 (s.cur.rd a) + low32 (s.cur.rd b))))

/-- R166: 32-bit difference, sign-extended. -/
def execSubw (d a b : Reg) (s : State) : Result :=
  .next (s.retireG 4 d (sext64 (low32 (s.cur.rd a) - low32 (s.cur.rd b))))

/-- R166: 32-bit product, sign-extended. -/
def execMulw (d a b : Reg) (s : State) : Result :=
  .next (s.retireG 4 d (sext64 (low32 (s.cur.rd a) * low32 (s.cur.rd b))))

/-- R166: 32-bit shift left by b[4:0]. -/
def execShlw (d a b : Reg) (s : State) : Result :=
  .next (s.retireG 4 d (sext64 (low32 (s.cur.rd a) <<< shiftCountW (s.cur.rd b))))

/-- R166: 32-bit logical shift right by b[4:0]. -/
def execShrw (d a b : Reg) (s : State) : Result :=
  .next (s.retireG 4 d (sext64 (low32 (s.cur.rd a) >>> shiftCountW (s.cur.rd b))))

/-- R166: 32-bit arithmetic shift right by b[4:0]. -/
def execSarw (d a b : Reg) (s : State) : Result :=
  .next (s.retireG 4 d (sext64 ((low32 (s.cur.rd a)).sshiftRight (shiftCountW (s.cur.rd b)))))

/-- R167: the address plus b modulo 2^56, the tag kept. -/
def execPadd (d a b : Reg) (s : State) : Result :=
  .next (s.retireG 4 d (ptrAdd (s.cur.rd a) (s.cur.rd b)))

/-- R167: the address minus b modulo 2^56, the tag kept. -/
def execPsub (d a b : Reg) (s : State) : Result :=
  .next (s.retireG 4 d (ptrSub (s.cur.rd a) (s.cur.rd b)))

/-- R167: the tag replaced by b[7:0]; other bits set in b raise ILLOPERAND. -/
def execPtag (d a b : Reg) (s : State) : Result :=
  if (s.cur.rd b).extractLsb' 8 56 ≠ 0 then .next (s.trap trapIllOperand)
  else .next (s.retireG 4 d ((s.cur.rd b).extractLsb' 0 8 ++ (s.cur.rd a).extractLsb' 0 56))

/-- R167: the tag byte. -/
def execPfmt (d a : Reg) (s : State) : Result :=
  .next (s.retireG 4 d (zext64 (tagOf (s.cur.rd a))))

/-- R168: the field, zero-extended; an illegal control word raises ILLOPERAND. -/
def execBfx (d a c : Reg) (s : State) : Result :=
  if bfOk (s.cur.rd c) then .next (s.retireG 4 d (bfx (s.cur.rd a) (s.cur.rd c))) else .next (s.trap trapIllOperand)

/-- R168: the field, sign-extended; an illegal control word raises ILLOPERAND. -/
def execBfxs (d a c : Reg) (s : State) : Result :=
  if bfOk (s.cur.rd c) then .next (s.retireG 4 d (bfxs (s.cur.rd a) (s.cur.rd c))) else .next (s.trap trapIllOperand)

/-- R168: a with the field replaced by the low bits of b; an illegal control word raises ILLOPERAND. -/
def execBfi (d a b c : Reg) (s : State) : Result :=
  if bfOk (s.cur.rd c) then .next (s.retireG 4 d (bfi (s.cur.rd a) (s.cur.rd b) (s.cur.rd c))) else .next (s.trap trapIllOperand)

end Sys2Proof.Machine
end

