-- ==== Sys2Proof/Machine/Topology.lean ====
section
/-! DEFINITION. Physical places: cores, the mapping table, routers and torus directions (spec/ 01 R14, R18 to R23, 27 R341 to R347). -/

namespace Sys2Proof.Machine

/-! ### The mapping table (R19, R20) -/

/-- The core of rank `j` among the cores from `c` on that are not defective. -/
def nthGood (bad : List Nat) : Nat → Nat → Nat → Option Nat
  | 0, _, _ => none
  | n + 1, c, j =>
    if bad.contains c then nthGood bad n (c + 1) j
    else
      match j with
      | 0 => some c
      | i + 1 => nthGood bad n (c + 1) i

/-- Defective cores of a die. -/
def Fabric.badCores (f : Fabric) (d : Nat) : List Nat := (f.defects.filter fun e => e.1 == d).map (·.2)

/-- The core index of a logical tile on its die: where live migration put it, or by the rule of R20; none for an absent tile (R21). -/
def Fabric.coreOf (f : Fabric) (t : Nat) : Option Nat :=
  match mget f.moved t with
  | some c => some c
  | none =>
    if (f.badCores (dieOfTile t)).isEmpty then some (t % Config.tilesPerDie)
    else nthGood (f.badCores (dieOfTile t)) Config.coresPerDie 0 (t % Config.tilesPerDie)

/-- Whether a logical tile has no core (R21). -/
def Fabric.absent (f : Fabric) (t : Nat) : Bool := (f.coreOf t).isNone

/-- The logical tiles of a die. -/
def dieTiles (d : Nat) : List Nat := (List.range Config.tilesPerDie).map (Config.tilesPerDie * d + ·)

/-- The standby spares of a die: good cores no tile uses and none has left (R19, R20). -/
def Fabric.spares (f : Fabric) (d : Nat) : List Nat :=
  let used := (dieTiles d).filterMap f.coreOf
  (List.range Config.coresPerDie).filter fun c =>
    !(f.badCores d).contains c && !used.contains c && !f.retired.contains (d, c)

/-! ### Routers (R14) -/

/-- A router's number: its row and column on the package torus. -/
def routerOf (x y : Nat) : Nat := y * Config.cols + x

/-- Column and row of a router. -/
def routerX (r : Nat) : Nat := r % Config.cols
def routerY (r : Nat) : Nat := r / Config.cols

/-- The router of a die's core. -/
def coreRouter (d core : Nat) : Nat := routerOf (16 * (d % 2) + core % 16) (19 * (d / 2) + core / 16)

/-- The die a router is on. -/
def routerDie (r : Nat) : Nat := (if routerY r < 19 then 0 else 2) + (if routerX r < 16 then 0 else 1)

/-- The core index of a router within its die. -/
def routerCore (r : Nat) : Nat := 16 * (routerY r % 19) + routerX r % 16

/-- The router of a logical tile. -/
def Fabric.tileRouter (f : Fabric) (t : Nat) : Option Nat := (f.coreOf t).map (coreRouter (dieOfTile t))

/-- The logical tile whose core stands at a router. -/
def Fabric.tileAt (f : Fabric) (r : Nat) : Option Nat :=
  (dieTiles (routerDie r)).find? fun t => f.coreOf t == some (routerCore r)

/-- The router a node's unit hangs on: a tile's own; the first core of its die for a Newel instance and a memory node; the first of
all for the Vestibule (log entry 12). -/
def Fabric.nodeRouter (f : Fabric) (n : Nat) : Option Nat :=
  if n < Config.tiles then f.tileRouter n
  else if 0xF00 ≤ n ∧ n < 0xF04 then some (coreRouter (n - 0xF00) 0)
  else if 0xF80 ≤ n ∧ n < 0xF84 then some (coreRouter (n - 0xF80) 0)
  else if n = Config.vestibuleNode then some 0
  else none

/-! ### Ports and routes (R16, R345, R347) -/

/-- The first attachment router of a port: 0 bridge, 1 X+, 2 X−, 3 Y+, 4 Y−, 5 Z+, 6 Z−. -/
def portRouter (p : Nat) : Nat :=
  match p with
  | 0 => routerOf 0 0 | 1 => routerOf 8 0 | 2 => routerOf 16 0 | 3 => routerOf 24 0
  | 4 => routerOf 0 37 | 5 => routerOf 8 37 | _ => routerOf 16 37

/-- Hops from `a` to `b` going up a ring of `n`. -/
def ringUp (n a b : Nat) : Nat := (b + n - a) % n

/-- The distance of two places of a ring. -/
def ringDist (n a b : Nat) : Nat := Nat.min (ringUp n a b) (ringUp n b a)

/-- The distance of two routers. -/
def routerDist (a b : Nat) : Nat :=
  ringDist Config.cols (routerX a) (routerX b) + ringDist Config.rows (routerY a) (routerY b)

/-- The attachment router of a port nearest to a router. -/
def nearestAttach (p r : Nat) : Nat :=
  (List.range 8).foldl (fun b i => if routerDist r (portRouter p + i) < routerDist r b then portRouter p + i else b) (portRouter p)

/-- The port that stands at an attachment router. -/
def portAt (r : Nat) : Option Nat := [0, 1, 2, 3, 4, 5, 6].find? fun p => portRouter p ≤ r && r < portRouter p + 8

/-- Dimension-order port towards a package (R347): X, then Y, then Z, the shorter way, + on a tie. -/
def defaultPort (me dst : Nat) : Nat :=
  let dim := fun (sh : Nat) => (me / sh % 16, dst / sh % 16)
  let pick := fun (ab : Nat × Nat) (plus : Nat) =>
    if ringUp 16 ab.1 ab.2 ≤ ringUp 16 ab.2 ab.1 then plus else plus + 1
  if (dim 1).1 ≠ (dim 1).2 then pick (dim 1) 1
  else if (dim 16).1 ≠ (dim 16).2 then pick (dim 16) 3
  else pick (dim 256) 5

/-- The port towards another package, by the route table (R347). -/
def State.portTo (s : State) (pkg : Nat) : Nat := (mget s.fabric.routes pkg).getD (defaultPort s.pkg pkg)

/-- The port a flit for another package leaves by: one for the host goes to the bridge package of its sender's group, and there into the bridge
(R351). -/
def State.portFor (s : State) (h : Header) : Nat :=
  let bridge := h.spkg.toNat / 16 * 16
  if h.dpkg.toNat ≠ Config.hostPackage then s.portTo h.dpkg.toNat
  else if s.pkg = bridge then 0
  else s.portTo bridge

/-- The router a flit makes for (R342): its node's, or the nearest attachment router of its port. -/
def State.targetOf (s : State) (r : Nat) (h : Header) : Option Nat :=
  if h.dpkg.toNat = s.pkg then s.fabric.nodeRouter h.dtile.toNat
  else some (nearestAttach (s.portFor h) r)

/-- The next router one hop away: 0 N, 1 E, 2 S, 3 W. North is the row below, as rows count from 0 (log entry 12). -/
def hop (r dir : Nat) : Nat :=
  let x := routerX r
  let y := routerY r
  match dir with
  | 0 => routerOf x ((y + Config.rows - 1) % Config.rows)
  | 1 => routerOf ((x + 1) % Config.cols) y
  | 2 => routerOf x ((y + 1) % Config.rows)
  | _ => routerOf ((x + Config.cols - 1) % Config.cols) y

/-- The productive outputs at router `r` for target `t`, X before Y (R342): + is east or south, the rising coordinate. -/
def productive (r t : Nat) : List Nat :=
  let ex := ringUp Config.cols (routerX r) (routerX t)
  let wx := ringUp Config.cols (routerX t) (routerX r)
  let sy := ringUp Config.rows (routerY r) (routerY t)
  let ny := ringUp Config.rows (routerY t) (routerY r)
  (if ex = 0 then [] else [if ex ≤ wx then 1 else 3]) ++ (if sy = 0 then [] else [if sy ≤ ny then 2 else 0])

/-- TILEPHYS (R23). -/
def State.tilePhys (s : State) (t : Nat) : Word :=
  let core := (s.fabric.coreOf t).getD 0
  let r := coreRouter (dieOfTile t) core
  BitVec.ofNat 64 ((s.getTile t).regs.migcnt.toNat * 2 ^ 24 + dieOfTile t * 2 ^ 20 + core * 2 ^ 11 + routerY r * 2 ^ 5 + routerX r)

end Sys2Proof.Machine
end

