-- ==== Sys2Proof/Machine/Ctrl.lean ====
section
/-! DEFINITION. The CTRL family: handler endings, YIELD, user traps, WAITF, MIGRATE, MFS and MTS (spec/ 11 R177 to R181, 13 R199). -/

namespace Sys2Proof.Machine

/-! ### Control -/

/-- R177: ends the handler and commits its buffered sends (R83, R84, R198). -/
def execDone  (s : State) : Result :=
  .next (s.commitSends s.tile s.ctx .done)

/-- R177: injects the buffered sends; the handler goes on (R84, R198). -/
def execCommit  (s : State) : Result :=
  .next (s.commitSends s.tile s.ctx (.commit 4))

/-- YIELD (R178): the context moves behind every other context of its tile in the issue rotation. -/
def State.yieldAt (s : State) (len : Nat) : State :=
  (s.retire len id).modMe fun x => { x with rot := x.rot.filter (· != s.ctx) ++ [s.ctx] }

/-- R178: the context goes behind every other ready context. -/
def execYield  (s : State) : Result :=
  .next (s.yieldAt 4)

/-- R177: ends the handler, discarding its buffered sends and consuming the message (R83). -/
def execAbort  (s : State) : Result :=
  .next (s.endConsumed s.tile s.ctx)

/-- REQUEUE (R83): the slot is freed and the message is a local arrival, placed behind the ejections of the cycle (R74); the context is kept
until that succeeds. -/
def State.requeue (s : State) : State :=
  if s.cur.committed then s.trap trapIllOperand
  else
    match s.me.entry s.cur.key with
    | none => s.endConsumed s.tile s.ctx
    | some e =>
      ((s.freeSlot s.tile s.cur.key).modCur fun c => { c with run := .wait .rearrive, sends := [] }).keepArrival s.tile
        { entry := { e with ctx := none }, ctx := some s.ctx }

/-- R83: ends the handler; its message arrives again locally. -/
def execRequeue  (s : State) : Result :=
  .next s.requeue

/-- R179: the user trap with cause USER: end-of-body tests come first, and UTPC takes the PC they give (R176). A next PC that passes a body's
end abandons that level here and not at TRET (R175; DEDUCED, log entry 33). -/
def execTrap (e : BitVec 8) (s : State) : Result :=
  if s.cur.canUserTrap then
    .next (s.modCur fun c => { (c.seq 4).enterUser (c.seq 4).pc 0x10 e 0 with run := .ready })
  else .next (s.trap trapIllOperand)

/-- R179: return from the user trap to UTPC; a level whose body that leaves is abandoned (R175). -/
def execTret  (s : State) : Result :=
  if s.cur.ut.act then .next (s.modCur fun c => { c.leaveUser.goto c.ut.pc with run := .ready })
  else .next (s.trap trapIllOperand)

/-- R177: no effect. -/
def execNop  (s : State) : Result :=
  .next (s.retire 4 id)

/-- R180: waits until the granule of gA is full. -/
def execWaitf (a : Reg) (s : State) : Result :=
  .next (s.accessAt 4 (addrOf (s.cur.rd a)) 8 8 ⟨false, true⟩ (fun k => .fe .waitf k 0) .none true false)

/-- Whether job code may name a class here (R71). -/
def State.classOk (s : State) (t : Nat) (cls : BitVec 8) : Bool :=
  match s.jobOf t with
  | some j => j.classOk cls
  | none => false

/-- MIGRATE (R96, R97, R199): the checks in their order, then the commit of the buffered sends with the migrating context last. -/
def State.migrateTo (s : State) (cls : BitVec 8) (w : Word) : State :=
  let c := s.cur
  if w.extractLsb' 27 37 ≠ 0 ∨ s.classOk s.tile cls = false then s.trap trapIllOperand
  else if c.loop0.act ∨ c.loop1.act ∨ c.ut.act then s.trap trapMigrate
  else
    s.orTrap (s.destOf s.tile w) fun dst =>
      if Config.sendRoom ≤ c.sends.length then s.trap trapSendOvf
      else
        let words := zext64 (c.pc + 4) :: (c.g.toList.drop 1)
        let dest := (tileAddr dst.1 dst.2).extractLsb' 0 27
        (s.modCur fun k => { k with sends := k.sends ++ [{ kind := 6, cls := cls, dests := [dest], words := words }] }).commitSends
          s.tile s.ctx .migrate

/-- R199: sends the context to the tile of gA as a message of a class, ending the handler. -/
def execMigrate (cls : BitVec 8) (a : Reg) (s : State) : Result :=
  .next (s.migrateTo cls (s.cur.rd a))

/-! ### State registers (R137, R181) -/

/-- Registers an MFS or MTS may name only at system privilege (R137). -/
def StateReg.privileged (e : StateReg) : Bool :=
  match e with
  | .asid | .xbase | .errinj | .sysctl => true
  | _ => false

/-- Registers an MTS may not name (R137). -/
def StateReg.readOnly (e : StateReg) : Bool :=
  match e with
  | .pc | .ctxid | .tileid | .tilephys | .qstat | .spillst | .snapst | .partw | .engst => true
  | _ => false

/-- LCn (R172). -/
def Loop.lc (l : Loop) : Word := (0 : BitVec 31) ++ BitVec.ofBool l.act ++ l.count

/-- UTCAUSE (R282). -/
def UserTrap.word (u : UserTrap) : Word := (0 : BitVec 47) ++ BitVec.ofBool u.act ++ u.ucode ++ u.cause

/-- QSTAT (R78). -/
def Tile.qstat (x : Tile) (now : Nat) : Word :=
  BitVec.ofNat 64 ((if x.land.reservedFree then 0 else 2 ^ 28)
    + (x.ctxs.toList.filter fun c => c.idleAt now).length * 2 ^ 24
    + x.land.occ 3 * 2 ^ 18 + x.land.occ 2 * 2 ^ 12 + x.land.occ 1 * 2 ^ 6 + x.land.occ 0)

/-- SPILLST (R78). -/
def Tile.spillst (x : Tile) : Word :=
  let s := fun p => (x.land.records p).length
  let f := fun p => if x.land.ring p ≠ 0 ∧ x.land.ring p ≤ s p then 2 ^ (48 + p) else 0
  BitVec.ofNat 64 (f 0 + f 1 + f 2 + f 3 + s 3 * 2 ^ 36 + s 2 * 2 ^ 24 + s 1 * 2 ^ 12 + s 0)

/-- SNAPST (R299). -/
def State.snapst (s : State) (t : Nat) : Word :=
  let x := s.getTile t
  BitVec.ofNat 64 (x.sid.toNat * 2 ^ 32 + x.uncop.length * 2 ^ 12 + (if x.snap.logOn then 4 else 0)
    + (if x.uncop = [] then 0 else 2) + x.snap.colour.toNat)

/-- Whether a command waits for leave (R249, R250). -/
def Cmd.wantsLeave (k : Cmd) : Bool :=
  match k.leave with
  | .queued _ => true
  | _ => false

/-- ENGST (R249). -/
def Tile.engst (x : Tile) : Word :=
  let mlv := match x.matrix.cmds with
    | k :: _ => k.wantsLeave
    | [] => false
  BitVec.ofNat 64 (x.copy.errs.toNat * 2 ^ 56 + x.matrix.errs.toNat * 2 ^ 48 + (if x.copy.cmds.any (·.wantsLeave) then 2 ^ 41 else 0)
    + (if mlv then 2 ^ 40 else 0) + x.copy.cmds.length * 2 ^ 32 + x.matrix.cmds.length * 2 ^ 24)

/-- The value MFS returns (R137, R181). -/
def State.stateReg (s : State) (e : StateReg) : Word :=
  let c := s.cur
  let r := s.me.regs
  match e with
  | .pc => zext64 c.pc
  | .lc0 => c.loop0.lc | .lb0 => zext64 c.loop0.lb | .le0 => zext64 c.loop0.le
  | .lc1 => c.loop1.lc | .lb1 => zext64 c.loop1.lb | .le1 => zext64 c.loop1.le
  | .fpm => zext64 c.fpm | .fpf => zext64 c.fpf
  | .utvec => zext64 c.ut.vec | .utpc => zext64 c.ut.pc | .utcause => c.ut.word | .utaddr => zext64 c.ut.addr
  | .txh => c.txh | .srng => c.srng
  | .ctxid => BitVec.ofNat 64 s.ctx
  | .tileid => s.tileId s.tile
  | .tilephys => s.tilePhys s.tile
  | .jobid => r.jobid
  | .qstat => s.me.qstat s.cycle
  | .qdepth => zext64 r.qdepth
  | .agelim => zext64 r.agelim | .promo => zext64 r.promo | .hlimit => zext64 r.hlimit
  | .spillst => s.me.spillst
  | .snapst => s.snapst s.tile
  | .partw => (0 : BitVec 42) ++ r.pid ++ (0 : BitVec 11) ++ r.accq
  | .ctxres => zext64 r.ctxres
  | .engst => s.me.engst
  | .asid => zext64 r.asid
  | .xbase => r.xpkg ++ (0 : BitVec 9) ++ r.xroot ++ (0 : BitVec 10)
  | .errinj => (0 : BitVec 48) ++ r.errCnt ++ (0 : BitVec 7) ++ BitVec.ofBool r.errEn
  | .sysctl => (0 : BitVec 24) ++ r.cec ++ (0 : BitVec 8) ++ r.gold ++ (0 : BitVec 8) ++ r.scrdiv ++ (0 : BitVec 3) ++ BitVec.ofBool r.scrub

/-- R181: gD := the state register; PRIVILEGED for a system register at job privilege. -/
def execMfs (d : Reg) (e : StateReg) (s : State) : Result :=
  if StateReg.privileged e && !s.cur.sys then .next (s.trap trapPrivileged)
  else .next (s.retireG 4 d (s.stateReg e))

/-- Bits an MTS may set: the fields it writes, and the read-only fields it ignores (R12, R51, R54, R57, R73, R80, R103, R116, R138, R172,
R282, R286, R355, R359). -/
def StateReg.writable (e : StateReg) : Word :=
  match e with
  | .lc0 | .lc1 => 0x1FFFFFFFF
  | .lb0 | .le0 | .lb1 | .le1 | .utvec | .utpc => 0x00FFFFFFFFFFFFFE
  | .fpm => 0x3
  | .fpf => 0x3F
  | .utcause => 0x1FFFF
  | .utaddr => 0x00FFFFFFFFFFFFFF
  | .txh => 0x0000FF07FFFFFFFF
  | .srng | .jobid | .agelim | .errinj => 0xFFFFFFFFFFFFFFFF
  | .qdepth => 0xFFFFFF
  | .promo | .hlimit => 0xFFFFFFFF
  | .ctxres => 0x7
  | .asid => 0xFFFF
  | .xbase => 0xFFFE00FFFFFFFC00
  | .sysctl => 0x000000FF00FF00F1
  | .pc | .ctxid | .tileid | .tilephys | .qstat | .spillst | .snapst | .partw | .engst => 0

/-- Whether an MTS to QDEPTH is legal beside its reserved bits (R73): the sum, and no message but the writer's own. -/
def State.qdepthOk (s : State) (w : Word) : Bool :=
  let sum := (w.extractLsb' 0 6).toNat + (w.extractLsb' 6 6).toNat + (w.extractLsb' 12 6).toNat + (w.extractLsb' 18 6).toNat
  let budget := match s.partOf s.tile with
    | some (_, p) => p.landing
    | none => 63
  sum ≤ 63 && sum ≤ budget && s.me.land.slots.all (fun e => e.key == s.cur.key) && s.me.land.spill.isEmpty
    && s.me.land.reserved.isNone

/-- The context after an MTS to one of its registers. LBn and LEn are written once the instruction has completed (R172). -/
def Ctx.writeReg (c : Ctx) (e : StateReg) (w : Word) : Ctx :=
  match e with
  | .lc0 => { c with loop0 := { c.loop0 with count := w.extractLsb' 0 32 } }
  | .lc1 => { c with loop1 := { c.loop1 with count := w.extractLsb' 0 32 } }
  | .fpm => { c with fpm := w.extractLsb' 0 2 }
  | .fpf => { c with fpf := w.extractLsb' 0 6 }
  | .utvec => { c with ut := { c.ut with vec := addrOf w } }
  | .utpc => { c with ut := { c.ut with pc := addrOf w } }
  | .utcause => { c with ut := { c.ut with ucode := w.extractLsb' 8 8, cause := w.extractLsb' 0 8 } }
  | .utaddr => { c with ut := { c.ut with addr := addrOf w } }
  | .txh => { c with txh := w }
  | .srng => { c with srng := rngSeed w }
  | _ => c

/-- The bounds of a loop body written by an MTS that has completed (R172). -/
def Ctx.writeBound (c : Ctx) (e : StateReg) (w : Word) : Ctx :=
  match e with
  | .lb0 => { c with loop0 := { c.loop0 with lb := addrOf w } }
  | .le0 => { c with loop0 := { c.loop0 with le := addrOf w } }
  | .lb1 => { c with loop1 := { c.loop1 with lb := addrOf w } }
  | .le1 => { c with loop1 := { c.loop1 with le := addrOf w } }
  | _ => c

/-- The tile registers after an MTS to one of them. -/
def TileRegs.writeReg (r : TileRegs) (e : StateReg) (w : Word) : TileRegs :=
  match e with
  | .jobid => { r with jobid := w }
  | .qdepth => { r with qdepth := w.extractLsb' 0 24 }
  | .agelim => { r with agelim := w.extractLsb' 0 32 }
  | .promo => { r with promo := w.extractLsb' 0 32 }
  | .hlimit => { r with hlimit := w.extractLsb' 0 32 }
  | .ctxres => { r with ctxres := w.extractLsb' 0 3 }
  | .asid => { r with asid := w.extractLsb' 0 16 }
  | .xbase => { r with xpkg := w.extractLsb' 49 15, xroot := w.extractLsb' 10 30 }
  | .errinj => { r with errEn := w.extractLsb' 0 1 == 1 }
  | .sysctl => { r with scrdiv := w.extractLsb' 4 4, scrub := w.extractLsb' 0 1 == 1 }
  | _ => r

/-- MTS (R137, R181): PRIVILEGED, then ILLOPERAND for a read-only register or a value its field checks refuse, then the write. -/
def State.writeStateReg (s : State) (e : StateReg) (w : Word) : State :=
  if StateReg.privileged e && !s.cur.sys then s.trap trapPrivileged
  else if StateReg.readOnly e then s.trap trapIllOperand
  else if w &&& ~~~(StateReg.writable e) ≠ 0 ∨ (e = .qdepth ∧ s.qdepthOk w = false) then s.trap trapIllOperand
  else (s.modMe fun x => { x with regs := x.regs.writeReg e w }).modCur fun c =>
    { ((c.writeReg e w).seq 4).writeBound e w with run := .ready }

/-- R181: the state register := gA under its field checks. -/
def execMts (e : StateReg) (a : Reg) (s : State) : Result :=
  .next (s.writeStateReg e (s.cur.rd a))

end Sys2Proof.Machine
end

