-- ==== Sys2Proof/Machine/Sending.lean ====
section
/-! DEFINITION. SEND, SENDX and SENDG (spec/ 13 R195 to R197). -/

namespace Sys2Proof.Machine

/-- The payload registers of SEND and SENDG (R195). -/
def Ctx.payload (c : Ctx) (p : Reg) (n : Nat) : List Word := (List.range n).map fun i => c.rd (p + BitVec.ofNat 4 i)

/-- Adds an entry to the send buffer, or SENDOVF (R84). -/
def State.bufferSend (s : State) (cls : BitVec 8) (dests : List (BitVec 27)) (words : List Word) : State :=
  if Config.sendRoom ≤ s.cur.sends.length then s.trap trapSendOvf
  else s.retire 4 fun c => { c with sends := c.sends ++ [{ kind := 0, cls := cls, dests := dests, words := words }] }

/-- A checked destination as a tile address. -/
def destBits (d : Nat × Nat) : BitVec 27 := (tileAddr d.1 d.2).extractLsb' 0 27

/-- The checks of a send's destination and class (R187, R71, R30). -/
def State.sendDest (s : State) (cls : BitVec 8) (w : Word) : Except Trap (Nat × Nat) :=
  if w.extractLsb' 27 37 ≠ 0 ∨ s.classOk s.tile cls = false then .error trapIllOperand else s.destOf s.tile w

/-- R195: buffers a kind-0 message of N register words. -/
def execSend (cls : BitVec 8) (a p : Reg) (n : BitVec 4) (s : State) : Result :=
  .next (s.orTrap (s.sendDest cls (s.cur.rd a)) fun dst => s.bufferSend cls [destBits dst] (s.cur.payload p n.toNat))

/-- The place of a local address of the executing tile (R187, R186). -/
def State.localPiece (s : State) (w : Word) (n align : Nat) : Except Trap Piece :=
  if s.isLocal s.tile w = false then .error trapIllOperand else s.resolve1 s.tile (addrOf w) n align needRead

/-- SENDX after its destination is checked: the length, the source, the copy (R196). -/
def State.sendCopy (s : State) (cls : BitVec 8) (dst : Nat × Nat) (len : Nat) (src : Word) : State :=
  if len < 8 ∨ 256 < len ∨ len % 8 ≠ 0 then s.trap trapIllOperand
  else
    s.orTrap (s.localPiece src len 8) fun p =>
      if Config.sendRoom ≤ s.cur.sends.length then s.trap trapSendOvf
      else if s.me.endsBusy s.ctx (granules p.key len) then s.waitFor (.ends (granules p.key len))
      else match s.badIn p.key len with
      | some b => s.trapBad b (spotAddr b [p.spot])
      | none => s.bufferSend cls [destBits dst] (wordsOf (len / 8) (s.read p.key len))

/-- R196: buffers a message copied from local scratchpad. -/
def execSendx (cls : BitVec 8) (a b c : Reg) (s : State) : Result :=
  .next (s.orTrap (s.sendDest cls (s.cur.rd a)) fun dst => s.sendCopy cls dst (s.cur.rd c).toNat (s.cur.rd b))

/-- The destinations of a multicast descriptor's valid entries, checked in order (R197). -/
def State.castDests (s : State) : List Word → Except Trap (List (BitVec 27))
  | [] => .ok []
  | w :: ws =>
    if w.extractLsb' 63 1 = 0 then s.castDests ws
    else
      match s.destOf s.tile (w.extractLsb' 0 27 |>.setWidth 64), s.castDests ws with
      | .ok d, .ok ds => .ok (destBits d :: ds)
      | .error e, _ => .error e
      | _, .error e => .error e

/-- A multicast descriptor: its destinations, or ILLOPERAND for no valid entry or a reserved bit (R197). -/
def State.castList (s : State) (ws : List Word) : Except Trap (List (BitVec 27)) :=
  if ws.any (fun w => w.extractLsb' 27 36 != 0) ∨ ws.all (fun w => w.extractLsb' 63 1 == 0) then .error trapIllOperand
  else s.castDests ws

/-- R197: buffers one message for each valid entry of a multicast descriptor. -/
def execSendg (cls : BitVec 8) (a p : Reg) (n : BitVec 4) (s : State) : Result :=
  if s.classOk s.tile cls = false then .next (s.trap trapIllOperand)
  else
    .next (s.orTrap (s.localPiece (s.cur.rd a) 64 64) fun q =>
      if s.me.endsBusy s.ctx (granules q.key 64) then s.waitFor (.ends (granules q.key 64))
      else match s.badIn q.key 64 with
      | some b => s.trapBad b (spotAddr b [q.spot])
      | none => s.orTrap (s.castList (wordsOf 8 (s.read q.key 64))) fun ds => s.bufferSend cls ds (s.cur.payload p n.toNat))

end Sys2Proof.Machine
end

