-- ==== Sys2Proof/Machine/Eng.lean ====
section
/-! DEFINITION. The ENG instructions: posting records, waiting for completions and reading statuses (spec/ 17 R246 to R248). -/

namespace Sys2Proof.Machine

/-- A checked record enters its engine once what the context has outstanding is performed and there is room; the record is kept
while the context waits (R129, R247). -/
def State.enterRecord (s : State) (matrix : Bool) (d : Reg) (r : List Word) : State :=
  let s1 := s.modCur fun c => { c with held := some r }
  if s.me.outTags s.ctx ≠ [] then s1.waitFor .drained
  else if (s.me.engine matrix).hasRoom matrix = false then s1.waitFor (.postRoom matrix)
  else
    let n := (s.me.engine matrix).last + 1
    ((s.modMe fun x => x.modEngine matrix fun e => e.post r s.cur.ftag (s.cur.prio == 0) false (recNotify r)).modCur fun c =>
      { c with held := none, posts := c.posts ++ [(matrix, n)] }).retireG 4 d (BitVec.ofNat 64 n)

/-- MPOST and CPOST (R247): the record is read and checked once, when the instruction first issues. -/
def State.postRecord (s : State) (matrix : Bool) (d : Reg) (w : Word) : State :=
  match s.cur.held with
  | some r => s.enterRecord matrix d r
  | none =>
    s.orTrap (s.localPiece w 64 64) fun p =>
      if s.me.endsBusy s.ctx (granules p.key 64) then s.waitFor (.ends (granules p.key 64))
      else match s.badIn p.key 64 with
      | some b => s.trapBad b (spotAddr b [p.spot])
      | none =>
        let r := wordsOf 8 (s.read p.key 64)
        if (recFieldsOk matrix r && notifyZeros r) = false then s.trap trapIllOperand
        else s.orTrap (s.notifyDest s.tile r) fun _ => s.enterRecord matrix d r

/-- MWAIT and CWAIT (R247): waits until the completed number has reached n. -/
def State.engineWait (s : State) (matrix : Bool) (n : Word) : State :=
  let e := s.me.engine matrix
  if e.last < n.toNat then s.trap trapIllOperand
  else if n.toNat ≤ e.done then s.retire 4 id
  else s.waitFor (.engine matrix n.toNat)

/-- The status word of a posted command (R248): kept, expired, or pending. -/
def Engine.statusOf (e : Engine) (n : Nat) : Word :=
  match e.status.find? (·.1 == n) with
  | some p => p.2
  | none => if n ≤ e.done || e.beyond.contains n then 0xFE00 else 0xFF00

/-- MSTAT and CSTAT (R247, R248). -/
def State.engineStat (s : State) (matrix : Bool) (d : Reg) (n : Word) : State :=
  let e := s.me.engine matrix
  if n = 0 ∨ e.last < n.toNat then s.trap trapIllOperand else s.retireG 4 d (e.statusOf n.toNat)

/-- R247: posts a matrix command record. -/
def execMpost (d a : Reg) (s : State) : Result := .next (s.postRecord true d (s.cur.rd a))

/-- R247: the completed number of the array. -/
def execMseq (d : Reg) (s : State) : Result := .next (s.retireG 4 d (BitVec.ofNat 64 s.me.matrix.done))

/-- R247: waits for a matrix command's completion. -/
def execMwait (a : Reg) (s : State) : Result := .next (s.engineWait true (s.cur.rd a))

/-- R247: the status word of a matrix command. -/
def execMstat (d a : Reg) (s : State) : Result := .next (s.engineStat true d (s.cur.rd a))

/-- R247: posts a copy command record. -/
def execCpost (d a : Reg) (s : State) : Result := .next (s.postRecord false d (s.cur.rd a))

/-- R247: the completed number of the copy engine (R245). -/
def execCseq (d : Reg) (s : State) : Result := .next (s.retireG 4 d (BitVec.ofNat 64 s.me.copy.done))

/-- R247: waits until the copy engine's completed number has reached n. -/
def execCwait (a : Reg) (s : State) : Result := .next (s.engineWait false (s.cur.rd a))

/-- R247: the status word of a copy command. -/
def execCstat (d a : Reg) (s : State) : Result := .next (s.engineStat false d (s.cur.rd a))

end Sys2Proof.Machine
end

