-- ==== Sys2Proof/WellFormed.lean ====
section
/-! DEFINITION. Which terms of `Instr` are instructions: the field limits and the accepted TYPE sets of spec/ 09 R142 to
R156 and spec/ 15 R209, R216, R223, R224. A bit pattern that breaks one of them raises ILLEGAL (R156). -/

namespace Sys2Proof

/-- SEND and SENDG (R150): N at most 8, P + N − 1 at most 15, P = 0 when N = 0. -/
def okSend (p : Reg) (n : BitVec 4) : Bool :=
  if n = 0 then p == 0 else n.toNat ≤ 8 && p.toNat + n.toNat ≤ 16

/-- TYPE 0 to 11 (R209). -/
def t0to11 (t : ElemType) : Bool := t != .e4m3 && t != .e5m2
/-- TYPE 8 to 11 (R209). -/
def t8to11 (t : ElemType) : Bool := t == .f16 || t == .bf16 || t == .f32 || t == .f64
/-- TYPE 0, 2, 4, 6 and 8 to 11 (R209). -/
def tSignedOrFloat (t : ElemType) : Bool := t.isSigned || t8to11 t
/-- TYPE 4 to 7, 10 and 11 (R209). -/
def tGather (t : ElemType) : Bool :=
  t == .s32 || t == .n32 || t == .s64 || t == .n64 || t == .f32 || t == .f64
/-- TYPE 8, 9 and 10 (R209). -/
def tBlock (t : ElemType) : Bool := t == .f16 || t == .bf16 || t == .f32
/-- The destination formats that allow stochastic rounding (R56, R217). -/
def tStochastic (t : ElemType) : Bool := t == .f16 || t == .bf16 || t == .e4m3 || t == .e5m2

/-- VCVT (R216, R217): no `.hi` between equal widths, stochastic rounding only to the narrow floating formats. -/
def okVcvt (hi : Bool) (r : VRnd) (t s : ElemType) : Bool :=
  (!hi || t.width != s.width) && (r != .sr || tStochastic t)

/-- The size of VLDT's register group (R223). -/
def vldtGroup (t : ElemType) : Nat := if t = .f32 then 4 else 2
/-- VLDT (R223): TYPE 8, 9 or 10, and VD a multiple of the group size. -/
def okVldt (t : ElemType) (d : Reg) : Bool := tBlock t && d.toNat % vldtGroup t == 0

/-- Whether an instruction is one the decoder can answer; events are always well formed. -/
def Instr.wellFormed : Instr → Bool
  | .cMov d a => d != 0 || a != 0
  | .loop0 _ len => len != 0
  | .loop1 _ len => len != 0
  | .send _ _ p n => okSend p n
  | .sendg _ _ p n => okSend p n
  | .vadd t _ _ _ _ _ => t0to11 t
  | .vsub t _ _ _ _ _ => t0to11 t
  | .vmul t _ _ _ _ _ => t0to11 t
  | .vmin t _ _ _ _ _ => t0to11 t
  | .vmax t _ _ _ _ _ => t0to11 t
  | .vabs t _ _ _ _ => tSignedOrFloat t
  | .vneg t _ _ _ _ => tSignedOrFloat t
  | .vadds t _ _ _ _ _ => t.isInt
  | .vsubs t _ _ _ _ _ => t.isInt
  | .vmulh t _ _ _ _ _ => t.isInt
  | .vdiv t _ _ _ _ _ => t0to11 t
  | .vsqrt t _ _ _ _ => t8to11 t
  | .vavg t _ _ _ _ _ => t.isInt
  | .vfma t _ _ _ _ _ => t8to11 t
  | .vfms t _ _ _ _ _ => t8to11 t
  | .vnfma t _ _ _ _ _ => t8to11 t
  | .vmac t _ _ _ _ _ => t.isInt
  | .vdot2 t _ _ _ _ _ => t == .f16 || t == .bf16
  | .vdot4 t _ _ _ _ _ => t == .e4m3 || t == .e5m2
  | .vdot4i t _ _ _ _ _ => t == .s8 || t == .n8
  | .vshl t _ _ _ _ _ => t.isInt
  | .vshr t _ _ _ _ _ => t.isInt
  | .vsar t _ _ _ _ _ => t.isInt
  | .vrol t _ _ _ _ _ => t.isInt
  | .vcmpUn t _ _ _ _ => !t.isInt
  | .viota t _ _ _ => t.isInt
  | .vcvt hi _ r t s _ _ _ _ => okVcvt hi r t s
  | .vgath t _ _ _ _ _ => tGather t
  | .vscat t _ _ _ _ => tGather t
  | .vscata t _ _ _ _ => tGather t
  | .vldt t _ d _ _ _ => okVldt t d
  | .vstq t _ d _ _ => tBlock t && d.toNat % 4 == 0
  | .cAdd _ _ | .cSub _ _ | .cAnd _ _ | .cOr _ _ | .cAddi _ _ | .cMovi _ _ | .cLdd _ _ _ | .cStd _ _ _ | .cBz _ _
  | .cBnz _ _ | .cDone | .cYield | .cNop | .cRet | .cCommit | .add _ _ _ | .sub _ _ _ | .mul _ _ _ | .mulh _ _ _
  | .mulhn _ _ _ | .div _ _ _ | .divn _ _ _ | .rem _ _ _ | .remn _ _ _ | .and _ _ _ | .or _ _ _ | .xor _ _ _
  | .andn _ _ _ | .orn _ _ _ | .shl _ _ _ | .shr _ _ _ | .sar _ _ _ | .rol _ _ _ | .min _ _ _ | .max _ _ _
  | .minn _ _ _ | .maxn _ _ _ | .seq _ _ _ | .sne _ _ _ | .slt _ _ _ | .sle _ _ _ | .sltn _ _ _ | .slen _ _ _
  | .sel _ _ _ _ | .clz _ _ | .ctz _ _ | .popc _ _ | .brev _ _ | .muladd _ _ _ _ | .padd _ _ _ | .psub _ _ _
  | .ptag _ _ _ | .pfmt _ _ | .bfx _ _ _ | .bfxs _ _ _ | .bfi _ _ _ _ | .addw _ _ _ | .subw _ _ _ | .mulw _ _ _
  | .shlw _ _ _ | .shrw _ _ _ | .sarw _ _ _ | .addi _ _ _ | .andi _ _ _ | .ori _ _ _ | .xori _ _ _ | .slti _ _ _
  | .sltni _ _ _ | .shli _ _ _ | .shri _ _ _ | .sari _ _ _ | .roli _ _ _ | .shliW _ _ _ | .shriW _ _ _ | .sariW _ _ _
  | .roliW _ _ _ | .movw _ _ _ | .movk _ _ _ | .movn _ _ _ | .paddi _ _ _ | .adr _ _ | .fmoviF64H _ _
  | .fmoviF32H _ _ | .fmoviF64Bf _ _ | .fmoviF32Bf _ _ | .b _ | .bl _ | .bcEq _ _ _ | .bcNe _ _ _ | .bcLt _ _ _
  | .bcGe _ _ _ | .bcLtn _ _ _ | .bcGen _ _ _ | .bcAny _ _ _ | .bcNone _ _ _ | .fbcEq _ _ _ _ | .fbcNe _ _ _ _
  | .fbcLt _ _ _ _ | .fbcLe _ _ _ _ | .fbcUn _ _ _ _ | .fbcOrd _ _ _ _ | .jr _ | .jlr _ _ | .done | .commit | .yield
  | .abort | .requeue | .trap _ | .tret | .nop | .waitf _ | .migrate _ _ | .mfs _ _ | .mts _ _ | .ldbs _ _ _
  | .ldbz _ _ _ | .ldhs _ _ _ | .ldhz _ _ _ | .ldws _ _ _ | .ldwz _ _ _ | .ldd _ _ _ | .stb _ _ _ | .sth _ _ _
  | .stw _ _ _ | .std _ _ _ | .lddW _ _ _ | .lddWc _ _ _ | .lddT _ _ _ | .lddTc _ _ _ | .fetest _ _ _ | .stdF _ _ _
  | .stdWf _ _ _ | .feset _ _ | .feclr _ _ | .amoAdd _ _ _ _ _ | .amoAnd _ _ _ _ _ | .amoOr _ _ _ _ _
  | .amoXor _ _ _ _ _ | .amoMin _ _ _ _ _ | .amoMax _ _ _ _ _ | .amoMinn _ _ _ _ _ | .amoMaxn _ _ _ _ _
  | .amoSwap _ _ _ _ _ | .amoCas _ _ _ _ _ _ | .amoFadd _ _ _ _ _ | .fence _ | .fenceAcq _ | .fenceRel _ | .fenceEng
  | .sendx _ _ _ _ | .get _ _ _ | .getN _ _ _ _ | .put _ _ _ | .putF _ _ _ | .putN _ _ _ _ | .putFn _ _ _ _
  | .carm _ _ _ | .cadd _ _ _ | .crd _ _ | .cdis _ | .cinc _ _ _ | .msgld _ _ | .msghd _ _ | .msgid _ | .msglen _
  | .rresv _ _ _ | .rpubl _ _ _ | .rhead _ _ | .rcons _ _ | .fadd _ _ _ _ _ | .fsub _ _ _ _ _ | .fmul _ _ _ _ _
  | .fdiv _ _ _ _ _ | .fsqrt _ _ _ _ | .fmin _ _ _ _ | .fmax _ _ _ _ | .fabs _ _ _ | .fneg _ _ _ | .fcpys _ _ _ _
  | .ffma _ _ _ _ _ _ | .ffms _ _ _ _ _ _ | .fnfma _ _ _ _ _ _ | .fnfms _ _ _ _ _ _ | .feq _ _ _ _ | .flt _ _ _ _
  | .fle _ _ _ _ | .fun _ _ _ _ | .fclass _ _ _ | .fcvtp _ _ _ _ | .ftos _ _ _ _ | .fton _ _ _ _ | .stof _ _ _ _
  | .ntof _ _ _ _ | .frint _ _ _ _ | .vand _ _ _ _ _ _ | .vor _ _ _ _ _ _ | .vxor _ _ _ _ _ _ | .vandn _ _ _ _ _ _
  | .vnot _ _ _ _ _ | .vcmpEq _ _ _ _ _ | .vcmpNe _ _ _ _ _ | .vcmpLt _ _ _ _ _ | .vcmpLe _ _ _ _ _
  | .vcmpGt _ _ _ _ _ | .vcmpGe _ _ _ _ _ | .vbcast _ _ _ _ _ | .vperm _ _ _ _ _ _ | .vsel _ _ _ _ _ | .vext _ _ _ _
  | .vins _ _ _ _ | .vzipl _ _ _ _ _ _ | .vziph _ _ _ _ _ _ | .vuzpe _ _ _ _ _ _ | .vuzpo _ _ _ _ _ _
  | .vcmprs _ _ _ _ _ | .vsldn _ _ _ _ _ _ | .vrsum _ _ _ _ | .vrsumt _ _ _ _ | .vrmin _ _ _ _ | .vrmax _ _ _ _
  | .vrand _ _ _ _ | .vror _ _ _ _ | .vrxor _ _ _ _ | .vld _ _ _ | .vldW _ _ _ | .vldb _ _ _ | .vst _ _ _
  | .vstF _ _ _ | .kand _ _ _ | .kor _ _ _ | .kxor _ _ _ | .kandn _ _ _ | .knot _ _ | .kfromg _ _ | .ktog _ _
  | .kpopc _ _ | .kfirst _ _ | .mpost _ _ | .mseq _ | .mwait _ | .mstat _ _ | .cpost _ _ | .cseq _ | .cwait _
  | .cstat _ _ | .txbeg _ _ | .txcommit _ | .txend _ | .lkacq _ _ _ | .lkacqm _ _ _ _ | .lktry _ _ _ | .lkcvt _ _ _
  | .lkrel _ _ | .lkmat _ _ | .lease _ _ _ | .leaser _ _ | .lkqry _ _ _ | .snap _ | .snapq _ _ | .resumeq _ | .trig
  | .time _ | .cycle _ | .xinv _ _ | .inject _ _ | .xinvComplete _ _ | .routerCycle | .handlerMessageArrival _
  | .localArrivalRetry _ | .galleryRecordRead _ | .dispatch _ | .hlimitExpiry _ _ | .ageReport _ _ | .xlateResolution
  | .getRequest _ | .putRequest _ | .atomicRequest _ | .ringRequest _ | .counterIncrement _ | .replyData _
  | .replyStatus _ | .forwardedFlit _ | .commitRoomWaitEnd _ _ | .counterActionLaunch _ | .counterActionMpost _
  | .counterActionCpost _ | .counterActionSend _ | .counterActionSetfull _ | .heldUpdateApply _ | .mmaBf16 _
  | .mmaF16 _ | .mmaE4m3 _ | .mmaE5m2 _ | .mmaE4e5 _ | .mmaMxf4 _ | .mmaQ4o _ | .mmaF32 _ | .mmaF64 _ | .mmaSpBf16 _
  | .mmaSpE4m3 _ | .aclr _ | .aload _ | .astore _ | .aadd _ | .mark _ | .matrixCommandComplete _ | .copy1d _ _
  | .copy2d _ _ | .fill _ _ | .gatherrows _ _ | .scatterrows _ _ | .copyCommandComplete _ _ | .leaveGrant _
  | .governorPowerCheck _ _ _ | .lockAcquireRequest _ | .lockConvertRequest _ | .lockReleaseRequest _
  | .lockCancelRequest _ | .lockGrantArrival _ | .woundArrival _ | .woundgraceExpiry _ _ | .txendConfirm _ _
  | .lkmatComplete _ _ | .leaseRequest _ | .leaseRecall _ | .leaseReleaseAtHome _ | .migratetile _ | .migrationStream
  | .migrationRemap | .migrationResume | .forwardingEntryRetire _ | .snapshotMarker _ | .backgroundBlockCopy _
  | .snapshotCountReport _ | .snapshotDrain _ | .snapqAnswer | .rollbackStep | .sealComplete _ | .packageLoss _
  | .doorbell _ | .reconcilePass _ | .loadjob _ | .unloadjob _ | .unloadjobKeep _ | .launch _ | .waittag _
  | .signal _ | .snapshot _ | .rollbackLocal _ | .rollbackRemote _ | .rollbackParked _ | .rollbackDiscard _
  | .partitionCreate _ | .partitionDestroy _ | .createq _ | .destroyq _ | .attest _ | .injecterr _ | .launchSweep _
  | .trigArrival | .hostinRecord _ _ | .egressDelivery | .linkFrameReceive _ _ | .frameAck _ _ | .frameRetryTimeout _
  | .laneRetire _ _ | .portDownSequenceReply _ _ | .routeTableUpdate _ | .laneTurnaround _ _
  | .laneRecalibration _ _ _ | .telemetrySample _ _ | .hbmPatrolScrub _ | .sramScrub _ _ | .thermalLimit _
  | .powerRemoval | .deviceReset _ | .illegalInstruction _ | .fetchFault _ _ | .softError _ _ | .hostWrite _ _
  | .egressRingConsumed _ _ | .thermalLimitCleared _ | .portTrained _ _ _ _ => true

end Sys2Proof
end

