-- ==== Sys2Proof/Decode.lean ====
section
/-! DEFINITION. Decoding of instruction bytes and, after it, encoding (spec/ 09 R139 to R156). A 32-bit word is first cut
into the six fields of the R format (R143); every other format regroups them. -/

namespace Sys2Proof

/-- The fields of the R format (R143); W[15:14] is 0b11 and is not held. -/
structure Fields where
  fn  : BitVec 8
  c   : BitVec 4
  b   : BitVec 4
  maj : BitVec 6
  d   : BitVec 4
  a   : BitVec 4
deriving DecidableEq, Repr

/-- The four nibbles of a 16-bit instruction (R141). -/
structure HalfFields where
  op : BitVec 4
  d  : BitVec 4
  a  : BitVec 4
  n  : BitVec 4
deriving DecidableEq, Repr

/-- The word of R143 that holds the fields. -/
def Fields.pack (f : Fields) : Word32 := f.fn ++ f.c ++ f.b ++ 0b11#2 ++ f.maj ++ f.d ++ f.a
/-- The fields of a word (R143). -/
def Fields.ofWord (w : Word32) : Fields :=
  { fn := w.extractLsb' 24 8, c := w.extractLsb' 20 4, b := w.extractLsb' 16 4, maj := w.extractLsb' 8 6,
    d := w.extractLsb' 4 4, a := w.extractLsb' 0 4 }
/-- The halfword of R141 that holds the nibbles. -/
def HalfFields.pack (f : HalfFields) : Half := f.op ++ f.d ++ f.a ++ f.n
/-- The nibbles of a halfword (R141). -/
def HalfFields.ofHalf (h : Half) : HalfFields :=
  { op := h.extractLsb' 12 4, d := h.extractLsb' 8 4, a := h.extractLsb' 4 4, n := h.extractLsb' 0 4 }

/-- IMM16 (R143), and the 16-bit length field of LOOP. -/
def Fields.imm16 (f : Fields) : BitVec 16 := f.fn ++ f.c ++ f.b
/-- DISP12 and OFF12 (R143). -/
def Fields.imm12 (f : Fields) : BitVec 12 := f.fn ++ f.c
/-- E = W[23:16] of CTRL and MSG (R177, R202). -/
def Fields.e (f : Fields) : BitVec 8 := f.c ++ f.b
/-- OFF24 (R143). -/
def Fields.off24 (f : Fields) : BitVec 24 := f.d ++ f.a ++ f.imm16
/-- OFF20 (R143). -/
def Fields.off20 (f : Fields) : BitVec 20 := f.a ++ f.imm16
/-- FN4 of the V format (R209). -/
def Fields.fn4 (f : Fields) : BitVec 4 := f.fn.extractLsb' 4 4
/-- TYPE of the V format (R209). -/
def Fields.ty (f : Fields) : Option ElemType := ElemType.ofCode (f.fn.extractLsb' 0 4)
/-- Z of the V format (R209). -/
def Fields.z (f : Fields) : Bool := f.c.extractLsb' 3 1 == 1
/-- K of the V format (R209). -/
def Fields.k (f : Fields) : KReg := f.c.extractLsb' 0 3
/-- OP of FOP and AMO, FN[4:0] (R151, R192). -/
def Fields.op5 (f : Fields) : BitVec 5 := f.fn.extractLsb' 0 5

/-- The instruction, if a field that must be zero is (R144). -/
def need (ok : Bool) (i : Instr) : Option Instr := if ok then some i else none

/-- A predicate register field; 8 or more is ILLEGAL (R156). -/
def kregOf (x : BitVec 4) : Option KReg := if x.extractLsb' 3 1 = 0 then some (x.extractLsb' 0 3) else none

/-- INT (R146). -/
def decInt (f : Fields) : Option Instr :=
  match f.fn.toNat with
  | 0x00 => need (f.c == 0) (.add f.d f.a f.b)
  | 0x01 => need (f.c == 0) (.sub f.d f.a f.b)
  | 0x02 => need (f.c == 0) (.mul f.d f.a f.b)
  | 0x03 => need (f.c == 0) (.mulh f.d f.a f.b)
  | 0x04 => need (f.c == 0) (.mulhn f.d f.a f.b)
  | 0x05 => need (f.c == 0) (.div f.d f.a f.b)
  | 0x06 => need (f.c == 0) (.divn f.d f.a f.b)
  | 0x07 => need (f.c == 0) (.rem f.d f.a f.b)
  | 0x08 => need (f.c == 0) (.remn f.d f.a f.b)
  | 0x10 => need (f.c == 0) (.and f.d f.a f.b)
  | 0x11 => need (f.c == 0) (.or f.d f.a f.b)
  | 0x12 => need (f.c == 0) (.xor f.d f.a f.b)
  | 0x13 => need (f.c == 0) (.andn f.d f.a f.b)
  | 0x14 => need (f.c == 0) (.orn f.d f.a f.b)
  | 0x18 => need (f.c == 0) (.shl f.d f.a f.b)
  | 0x19 => need (f.c == 0) (.shr f.d f.a f.b)
  | 0x1A => need (f.c == 0) (.sar f.d f.a f.b)
  | 0x1B => need (f.c == 0) (.rol f.d f.a f.b)
  | 0x20 => need (f.c == 0) (.min f.d f.a f.b)
  | 0x21 => need (f.c == 0) (.max f.d f.a f.b)
  | 0x22 => need (f.c == 0) (.minn f.d f.a f.b)
  | 0x23 => need (f.c == 0) (.maxn f.d f.a f.b)
  | 0x28 => need (f.c == 0) (.seq f.d f.a f.b)
  | 0x29 => need (f.c == 0) (.sne f.d f.a f.b)
  | 0x2A => need (f.c == 0) (.slt f.d f.a f.b)
  | 0x2B => need (f.c == 0) (.sle f.d f.a f.b)
  | 0x2C => need (f.c == 0) (.sltn f.d f.a f.b)
  | 0x2D => need (f.c == 0) (.slen f.d f.a f.b)
  | 0x30 => some (.sel f.d f.a f.b f.c)
  | 0x38 => need (f.c == 0 && f.b == 0) (.clz f.d f.a)
  | 0x39 => need (f.c == 0 && f.b == 0) (.ctz f.d f.a)
  | 0x3A => need (f.c == 0 && f.b == 0) (.popc f.d f.a)
  | 0x3B => need (f.c == 0 && f.b == 0) (.brev f.d f.a)
  | 0x3C => some (.muladd f.d f.a f.b f.c)
  | 0x40 => need (f.c == 0) (.padd f.d f.a f.b)
  | 0x41 => need (f.c == 0) (.psub f.d f.a f.b)
  | 0x42 => need (f.c == 0) (.ptag f.d f.a f.b)
  | 0x43 => need (f.c == 0 && f.b == 0) (.pfmt f.d f.a)
  | 0x48 => need (f.b == 0) (.bfx f.d f.a f.c)
  | 0x49 => need (f.b == 0) (.bfxs f.d f.a f.c)
  | 0x4A => some (.bfi f.d f.a f.b f.c)
  | 0x50 => need (f.c == 0) (.addw f.d f.a f.b)
  | 0x51 => need (f.c == 0) (.subw f.d f.a f.b)
  | 0x52 => need (f.c == 0) (.mulw f.d f.a f.b)
  | 0x53 => need (f.c == 0) (.shlw f.d f.a f.b)
  | 0x54 => need (f.c == 0) (.shrw f.d f.a f.b)
  | 0x55 => need (f.c == 0) (.sarw f.d f.a f.b)
  | _ => none

/-- SHI (R147): IMM16[5:0] the count, [7:6] the kind, [8] W, [15:9] zero. -/
def decShi (f : Fields) : Option Instr :=
  match f.fn.toNat, (f.c.extractLsb' 2 2).toNat with
  | 0x00, 0 => some (.shli f.d f.a (f.c.extractLsb' 0 2 ++ f.b))
  | 0x00, 1 => some (.shri f.d f.a (f.c.extractLsb' 0 2 ++ f.b))
  | 0x00, 2 => some (.sari f.d f.a (f.c.extractLsb' 0 2 ++ f.b))
  | 0x00, 3 => some (.roli f.d f.a (f.c.extractLsb' 0 2 ++ f.b))
  | 0x01, 0 => need (f.c.extractLsb' 1 1 == 0) (.shliW f.d f.a (f.c.extractLsb' 0 1 ++ f.b))
  | 0x01, 1 => need (f.c.extractLsb' 1 1 == 0) (.shriW f.d f.a (f.c.extractLsb' 0 1 ++ f.b))
  | 0x01, 2 => need (f.c.extractLsb' 1 1 == 0) (.sariW f.d f.a (f.c.extractLsb' 0 1 ++ f.b))
  | 0x01, 3 => need (f.c.extractLsb' 1 1 == 0) (.roliW f.d f.a (f.c.extractLsb' 0 1 ++ f.b))
  | _, _ => none

/-- FMOVI (R147, R155): A selects the form. -/
def decFmovi (f : Fields) : Option Instr :=
  match f.a.toNat with
  | 0 => some (.fmoviF64H f.d f.imm16)
  | 1 => some (.fmoviF32H f.d f.imm16)
  | 2 => some (.fmoviF64Bf f.d f.imm16)
  | 3 => some (.fmoviF32Bf f.d f.imm16)
  | _ => none

/-- BC (R148): COND selects the condition. -/
def decBc (f : Fields) : Option Instr :=
  match f.b.toNat with
  | 0 => some (.bcEq f.d f.a f.imm12)
  | 1 => some (.bcNe f.d f.a f.imm12)
  | 2 => some (.bcLt f.d f.a f.imm12)
  | 3 => some (.bcGe f.d f.a f.imm12)
  | 4 => some (.bcLtn f.d f.a f.imm12)
  | 5 => some (.bcGen f.d f.a f.imm12)
  | 6 => some (.bcAny f.d f.a f.imm12)
  | 7 => some (.bcNone f.d f.a f.imm12)
  | _ => none

/-- FBC (R148): COND[2:0] the condition, COND[3] the precision. -/
def decFbc (f : Fields) : Option Instr :=
  match (f.b.extractLsb' 0 3).toNat with
  | 0 => some (.fbcEq (.ofBit (f.b.extractLsb' 3 1)) f.d f.a f.imm12)
  | 1 => some (.fbcNe (.ofBit (f.b.extractLsb' 3 1)) f.d f.a f.imm12)
  | 2 => some (.fbcLt (.ofBit (f.b.extractLsb' 3 1)) f.d f.a f.imm12)
  | 3 => some (.fbcLe (.ofBit (f.b.extractLsb' 3 1)) f.d f.a f.imm12)
  | 4 => some (.fbcUn (.ofBit (f.b.extractLsb' 3 1)) f.d f.a f.imm12)
  | 5 => some (.fbcOrd (.ofBit (f.b.extractLsb' 3 1)) f.d f.a f.imm12)
  | _ => none

/-- JMP (R148). -/
def decJmp (f : Fields) : Option Instr :=
  match f.fn.toNat with
  | 0x00 => need (f.c == 0 && f.b == 0 && f.d == 0) (.jr f.a)
  | 0x01 => need (f.c == 0 && f.b == 0) (.jlr f.d f.a)
  | _ => none

/-- LOOP (R148, R173): A[0] the level, A[3:1] zero. -/
def decLoop (f : Fields) : Option Instr :=
  match f.a.toNat with
  | 0 => some (.loop0 f.d f.imm16)
  | 1 => some (.loop1 f.d f.imm16)
  | _ => none

/-- CTRL (R148, R177). -/
def decCtrl (f : Fields) : Option Instr :=
  match f.fn.toNat with
  | 0x00 => need (f.c == 0 && f.b == 0 && f.d == 0 && f.a == 0) (.done)
  | 0x01 => need (f.c == 0 && f.b == 0 && f.d == 0 && f.a == 0) (.commit)
  | 0x02 => need (f.c == 0 && f.b == 0 && f.d == 0 && f.a == 0) (.yield)
  | 0x03 => need (f.c == 0 && f.b == 0 && f.d == 0 && f.a == 0) (.abort)
  | 0x04 => need (f.c == 0 && f.b == 0 && f.d == 0 && f.a == 0) (.requeue)
  | 0x05 => need (f.d == 0 && f.a == 0) (.trap f.e)
  | 0x06 => need (f.c == 0 && f.b == 0 && f.d == 0 && f.a == 0) (.tret)
  | 0x07 => need (f.c == 0 && f.b == 0 && f.d == 0 && f.a == 0) (.nop)
  | 0x08 => need (f.c == 0 && f.b == 0 && f.d == 0) (.waitf f.a)
  | 0x10 => need (f.d == 0) (.migrate f.e f.a)
  | 0x20 => (StateReg.ofIndex f.e).bind fun r => need (f.a == 0) (.mfs f.d r)
  | 0x21 => (StateReg.ofIndex f.e).bind fun r => need (f.d == 0) (.mts r f.a)
  | _ => none

/-- LD (R149). -/
def decLd (f : Fields) : Option Instr :=
  match f.b.toNat with
  | 0 => some (.ldbs f.d f.a f.imm12)
  | 1 => some (.ldbz f.d f.a f.imm12)
  | 2 => some (.ldhs f.d f.a f.imm12)
  | 3 => some (.ldhz f.d f.a f.imm12)
  | 4 => some (.ldws f.d f.a f.imm12)
  | 5 => some (.ldwz f.d f.a f.imm12)
  | 6 => some (.ldd f.d f.a f.imm12)
  | _ => none

/-- ST (R149). -/
def decSt (f : Fields) : Option Instr :=
  match f.b.toNat with
  | 0 => some (.stb f.d f.a f.imm12)
  | 1 => some (.sth f.d f.a f.imm12)
  | 2 => some (.stw f.d f.a f.imm12)
  | 3 => some (.std f.d f.a f.imm12)
  | _ => none

/-- LDFE (R149). -/
def decLdfe (f : Fields) : Option Instr :=
  match f.b.toNat with
  | 0 => some (.lddW f.d f.a f.imm12)
  | 1 => some (.lddWc f.d f.a f.imm12)
  | 2 => some (.lddT f.d f.a f.imm12)
  | 3 => some (.lddTc f.d f.a f.imm12)
  | 4 => some (.fetest f.d f.a f.imm12)
  | _ => none

/-- STFE (R149). -/
def decStfe (f : Fields) : Option Instr :=
  match f.b.toNat with
  | 0 => some (.stdF f.d f.a f.imm12)
  | 1 => some (.stdWf f.d f.a f.imm12)
  | 2 => need (f.d == 0) (.feset f.a f.imm12)
  | 3 => need (f.d == 0) (.feclr f.a f.imm12)
  | _ => none

/-- AMO (R149, R192): FN[4:0] the operation, [5] the size, [7:6] the order. -/
def decAmo (f : Fields) : Option Instr :=
  match f.op5.toNat with
  | 0 => need (f.c == 0) (.amoAdd (.ofCode (f.fn.extractLsb' 6 2)) (.ofBit (f.fn.extractLsb' 5 1)) f.d f.a f.b)
  | 1 => need (f.c == 0) (.amoAnd (.ofCode (f.fn.extractLsb' 6 2)) (.ofBit (f.fn.extractLsb' 5 1)) f.d f.a f.b)
  | 2 => need (f.c == 0) (.amoOr (.ofCode (f.fn.extractLsb' 6 2)) (.ofBit (f.fn.extractLsb' 5 1)) f.d f.a f.b)
  | 3 => need (f.c == 0) (.amoXor (.ofCode (f.fn.extractLsb' 6 2)) (.ofBit (f.fn.extractLsb' 5 1)) f.d f.a f.b)
  | 4 => need (f.c == 0) (.amoMin (.ofCode (f.fn.extractLsb' 6 2)) (.ofBit (f.fn.extractLsb' 5 1)) f.d f.a f.b)
  | 5 => need (f.c == 0) (.amoMax (.ofCode (f.fn.extractLsb' 6 2)) (.ofBit (f.fn.extractLsb' 5 1)) f.d f.a f.b)
  | 6 => need (f.c == 0) (.amoMinn (.ofCode (f.fn.extractLsb' 6 2)) (.ofBit (f.fn.extractLsb' 5 1)) f.d f.a f.b)
  | 7 => need (f.c == 0) (.amoMaxn (.ofCode (f.fn.extractLsb' 6 2)) (.ofBit (f.fn.extractLsb' 5 1)) f.d f.a f.b)
  | 8 => need (f.c == 0) (.amoSwap (.ofCode (f.fn.extractLsb' 6 2)) (.ofBit (f.fn.extractLsb' 5 1)) f.d f.a f.b)
  | 9 => some (.amoCas (.ofCode (f.fn.extractLsb' 6 2)) (.ofBit (f.fn.extractLsb' 5 1)) f.d f.a f.b f.c)
  | 10 => need (f.c == 0) (.amoFadd (.ofCode (f.fn.extractLsb' 6 2)) (.ofBit (f.fn.extractLsb' 5 1)) f.d f.a f.b)
  | _ => none

/-- FENCE (R149, R194). -/
def decFence (f : Fields) : Option Instr :=
  match f.fn.toNat with
  | 0 => (Scope.ofCode f.b).bind fun s => need (f.c == 0 && f.d == 0 && f.a == 0) (.fence s)
  | 1 => (Scope.ofCode f.b).bind fun s => need (f.c == 0 && f.d == 0 && f.a == 0) (.fenceAcq s)
  | 2 => (Scope.ofCode f.b).bind fun s => need (f.c == 0 && f.d == 0 && f.a == 0) (.fenceRel s)
  | 3 => need (f.c == 0 && f.b == 0 && f.d == 0 && f.a == 0) .fenceEng
  | _ => none

/-- GET (R150). -/
def decGet (f : Fields) : Option Instr :=
  match f.fn.toNat with
  | 0x00 => need (f.d == 0) (.get f.a f.b f.c)
  | 0x01 => some (.getN f.d f.a f.b f.c)
  | _ => none

/-- PUT (R150). -/
def decPut (f : Fields) : Option Instr :=
  match f.fn.toNat with
  | 0x00 => need (f.d == 0) (.put f.a f.b f.c)
  | 0x01 => need (f.d == 0) (.putF f.a f.b f.c)
  | 0x02 => some (.putN f.d f.a f.b f.c)
  | 0x03 => some (.putFn f.d f.a f.b f.c)
  | _ => none

/-- CNT (R150). -/
def decCnt (f : Fields) : Option Instr :=
  match f.fn.toNat with
  | 0x00 => need (f.d == 0) (.carm f.a f.b f.c)
  | 0x01 => need (f.c == 0) (.cadd f.d f.a f.b)
  | 0x02 => need (f.c == 0 && f.b == 0) (.crd f.d f.a)
  | 0x03 => need (f.c == 0 && f.b == 0 && f.d == 0) (.cdis f.a)
  | 0x04 => need (f.d == 0) (.cinc f.a f.b f.c)
  | _ => none

/-- MSG (R150, R202). -/
def decMsg (f : Fields) : Option Instr :=
  match f.fn.toNat with
  | 0 => need (f.c.extractLsb' 1 3 == 0 && f.a == 0) (.msgld f.d (f.c.extractLsb' 0 1 ++ f.b))
  | 1 => need (f.c == 0 && f.b.extractLsb' 1 3 == 0 && f.a == 0) (.msghd f.d (f.b.extractLsb' 0 1))
  | 2 => need (f.c == 0 && f.b == 0 && f.a == 0) (.msgid f.d)
  | 3 => need (f.c == 0 && f.b == 0 && f.a == 0) (.msglen f.d)
  | _ => none

/-- RING (R150). -/
def decRing (f : Fields) : Option Instr :=
  match f.fn.toNat with
  | 0x00 => need (f.c == 0) (.rresv f.d f.a f.b)
  | 0x01 => need (f.d == 0) (.rpubl f.a f.b f.c)
  | 0x02 => need (f.c == 0 && f.b == 0) (.rhead f.d f.a)
  | 0x03 => need (f.c == 0 && f.d == 0) (.rcons f.a f.b)
  | _ => none

/-- FOP (R151, R182): FN[4:0] the operation, [6:5] the rounding, [7] the precision. -/
def decFop (f : Fields) : Option Instr :=
  match f.op5.toNat with
  | 0 => (Rnd.ofCode (f.fn.extractLsb' 5 2)).bind fun r => need (f.c == 0) (.fadd (.ofBit (f.fn.extractLsb' 7 1)) r f.d f.a f.b)
  | 1 => (Rnd.ofCode (f.fn.extractLsb' 5 2)).bind fun r => need (f.c == 0) (.fsub (.ofBit (f.fn.extractLsb' 7 1)) r f.d f.a f.b)
  | 2 => (Rnd.ofCode (f.fn.extractLsb' 5 2)).bind fun r => need (f.c == 0) (.fmul (.ofBit (f.fn.extractLsb' 7 1)) r f.d f.a f.b)
  | 3 => (Rnd.ofCode (f.fn.extractLsb' 5 2)).bind fun r => need (f.c == 0) (.fdiv (.ofBit (f.fn.extractLsb' 7 1)) r f.d f.a f.b)
  | 4 => (Rnd.ofCode (f.fn.extractLsb' 5 2)).bind fun r => need (f.c == 0 && f.b == 0) (.fsqrt (.ofBit (f.fn.extractLsb' 7 1)) r f.d f.a)
  | 5 => need (f.fn.extractLsb' 5 2 == 0 && f.c == 0) (.fmin (.ofBit (f.fn.extractLsb' 7 1)) f.d f.a f.b)
  | 6 => need (f.fn.extractLsb' 5 2 == 0 && f.c == 0) (.fmax (.ofBit (f.fn.extractLsb' 7 1)) f.d f.a f.b)
  | 7 => need (f.fn.extractLsb' 5 2 == 0 && f.c == 0 && f.b == 0) (.fabs (.ofBit (f.fn.extractLsb' 7 1)) f.d f.a)
  | 8 => need (f.fn.extractLsb' 5 2 == 0 && f.c == 0 && f.b == 0) (.fneg (.ofBit (f.fn.extractLsb' 7 1)) f.d f.a)
  | 9 => need (f.fn.extractLsb' 5 2 == 0 && f.c == 0) (.fcpys (.ofBit (f.fn.extractLsb' 7 1)) f.d f.a f.b)
  | 10 => (Rnd.ofCode (f.fn.extractLsb' 5 2)).bind fun r => some (.ffma (.ofBit (f.fn.extractLsb' 7 1)) r f.d f.a f.b f.c)
  | 11 => (Rnd.ofCode (f.fn.extractLsb' 5 2)).bind fun r => some (.ffms (.ofBit (f.fn.extractLsb' 7 1)) r f.d f.a f.b f.c)
  | 12 => (Rnd.ofCode (f.fn.extractLsb' 5 2)).bind fun r => some (.fnfma (.ofBit (f.fn.extractLsb' 7 1)) r f.d f.a f.b f.c)
  | 13 => (Rnd.ofCode (f.fn.extractLsb' 5 2)).bind fun r => some (.fnfms (.ofBit (f.fn.extractLsb' 7 1)) r f.d f.a f.b f.c)
  | 14 => need (f.fn.extractLsb' 5 2 == 0 && f.c == 0) (.feq (.ofBit (f.fn.extractLsb' 7 1)) f.d f.a f.b)
  | 15 => need (f.fn.extractLsb' 5 2 == 0 && f.c == 0) (.flt (.ofBit (f.fn.extractLsb' 7 1)) f.d f.a f.b)
  | 16 => need (f.fn.extractLsb' 5 2 == 0 && f.c == 0) (.fle (.ofBit (f.fn.extractLsb' 7 1)) f.d f.a f.b)
  | 17 => need (f.fn.extractLsb' 5 2 == 0 && f.c == 0) (.fun (.ofBit (f.fn.extractLsb' 7 1)) f.d f.a f.b)
  | 18 => need (f.fn.extractLsb' 5 2 == 0 && f.c == 0 && f.b == 0) (.fclass (.ofBit (f.fn.extractLsb' 7 1)) f.d f.a)
  | 19 => (Rnd.ofCode (f.fn.extractLsb' 5 2)).bind fun r => need (f.c == 0 && f.b == 0) (.fcvtp (.ofBit (f.fn.extractLsb' 7 1)) r f.d f.a)
  | 20 => (Rnd.ofCode (f.fn.extractLsb' 5 2)).bind fun r => need (f.c == 0 && f.b == 0) (.ftos (.ofBit (f.fn.extractLsb' 7 1)) r f.d f.a)
  | 21 => (Rnd.ofCode (f.fn.extractLsb' 5 2)).bind fun r => need (f.c == 0 && f.b == 0) (.fton (.ofBit (f.fn.extractLsb' 7 1)) r f.d f.a)
  | 22 => (Rnd.ofCode (f.fn.extractLsb' 5 2)).bind fun r => need (f.c == 0 && f.b == 0) (.stof (.ofBit (f.fn.extractLsb' 7 1)) r f.d f.a)
  | 23 => (Rnd.ofCode (f.fn.extractLsb' 5 2)).bind fun r => need (f.c == 0 && f.b == 0) (.ntof (.ofBit (f.fn.extractLsb' 7 1)) r f.d f.a)
  | 24 => (Rnd.ofCode (f.fn.extractLsb' 5 2)).bind fun r => need (f.c == 0 && f.b == 0) (.frint (.ofBit (f.fn.extractLsb' 7 1)) r f.d f.a)
  | _ => none

/-- VARI (R152, R209). -/
def decVari (f : Fields) : Option Instr :=
  match f.fn4.toNat, f.ty with
  | 0, some t => some (.vadd t f.z f.d f.a f.b f.k)
  | 1, some t => some (.vsub t f.z f.d f.a f.b f.k)
  | 2, some t => some (.vmul t f.z f.d f.a f.b f.k)
  | 3, some t => some (.vmin t f.z f.d f.a f.b f.k)
  | 4, some t => some (.vmax t f.z f.d f.a f.b f.k)
  | 5, some t => need (f.b == 0) (.vabs t f.z f.d f.a f.k)
  | 6, some t => need (f.b == 0) (.vneg t f.z f.d f.a f.k)
  | 7, some t => some (.vadds t f.z f.d f.a f.b f.k)
  | 8, some t => some (.vsubs t f.z f.d f.a f.b f.k)
  | 9, some t => some (.vmulh t f.z f.d f.a f.b f.k)
  | 10, some t => some (.vdiv t f.z f.d f.a f.b f.k)
  | 11, some t => need (f.b == 0) (.vsqrt t f.z f.d f.a f.k)
  | 12, some t => some (.vavg t f.z f.d f.a f.b f.k)
  | _, _ => none

/-- VFMA (R152, R209). -/
def decVfma (f : Fields) : Option Instr :=
  match f.fn4.toNat, f.ty with
  | 0, some t => some (.vfma t f.z f.d f.a f.b f.k)
  | 1, some t => some (.vfms t f.z f.d f.a f.b f.k)
  | 2, some t => some (.vnfma t f.z f.d f.a f.b f.k)
  | 3, some t => some (.vmac t f.z f.d f.a f.b f.k)
  | 4, some t => some (.vdot2 t f.z f.d f.a f.b f.k)
  | 5, some t => some (.vdot4 t f.z f.d f.a f.b f.k)
  | 6, some t => some (.vdot4i t f.z f.d f.a f.b f.k)
  | _, _ => none

/-- VLOG (R152, R209). -/
def decVlog (f : Fields) : Option Instr :=
  match f.fn4.toNat, f.ty with
  | 0, some t => some (.vand t f.z f.d f.a f.b f.k)
  | 1, some t => some (.vor t f.z f.d f.a f.b f.k)
  | 2, some t => some (.vxor t f.z f.d f.a f.b f.k)
  | 3, some t => some (.vandn t f.z f.d f.a f.b f.k)
  | 4, some t => some (.vshl t f.z f.d f.a f.b f.k)
  | 5, some t => some (.vshr t f.z f.d f.a f.b f.k)
  | 6, some t => some (.vsar t f.z f.d f.a f.b f.k)
  | 7, some t => some (.vrol t f.z f.d f.a f.b f.k)
  | 8, some t => need (f.b == 0) (.vnot t f.z f.d f.a f.k)
  | _, _ => none

/-- VCMP (R152, R209). -/
def decVcmp (f : Fields) : Option Instr :=
  match f.fn4.toNat, f.ty with
  | 0, some t => need (f.d.extractLsb' 3 1 == 0 && !f.z) (.vcmpEq t (f.d.extractLsb' 0 3) f.a f.b f.k)
  | 1, some t => need (f.d.extractLsb' 3 1 == 0 && !f.z) (.vcmpNe t (f.d.extractLsb' 0 3) f.a f.b f.k)
  | 2, some t => need (f.d.extractLsb' 3 1 == 0 && !f.z) (.vcmpLt t (f.d.extractLsb' 0 3) f.a f.b f.k)
  | 3, some t => need (f.d.extractLsb' 3 1 == 0 && !f.z) (.vcmpLe t (f.d.extractLsb' 0 3) f.a f.b f.k)
  | 4, some t => need (f.d.extractLsb' 3 1 == 0 && !f.z) (.vcmpGt t (f.d.extractLsb' 0 3) f.a f.b f.k)
  | 5, some t => need (f.d.extractLsb' 3 1 == 0 && !f.z) (.vcmpGe t (f.d.extractLsb' 0 3) f.a f.b f.k)
  | 6, some t => need (f.d.extractLsb' 3 1 == 0 && !f.z) (.vcmpUn t (f.d.extractLsb' 0 3) f.a f.b f.k)
  | _, _ => none

/-- VPRM (R152, R209). -/
noncomputable def decVprm (f : Fields) : Option Instr :=
  match f.fn4.toNat, f.ty with
  | 0, some t => need (f.b == 0) (.vbcast t f.z f.d f.a f.k)
  | 1, some t => some (.vperm t f.z f.d f.a f.b f.k)
  | 2, some t => need (!f.z) (.vsel t f.d f.a f.b f.k)
  | 3, some t => need (!f.z && f.k == 0) (.vext t f.d f.a f.b)
  | 4, some t => need (!f.z && f.k == 0) (.vins t f.d f.a f.b)
  | 5, some t => some (.vzipl t f.z f.d f.a f.b f.k)
  | 6, some t => some (.vziph t f.z f.d f.a f.b f.k)
  | 7, some t => some (.vuzpe t f.z f.d f.a f.b f.k)
  | 8, some t => some (.vuzpo t f.z f.d f.a f.b f.k)
  | 9, some t => need (f.b == 0 && f.a == 0) (.viota t f.z f.d f.k)
  | 10, some t => need (f.b == 0) (.vcmprs t f.z f.d f.a f.k)
  | 11, some t => some (.vsldn t f.z f.d f.a f.b f.k)
  | _, _ => none

/-- VRED (R152, R209). -/
noncomputable def decVred (f : Fields) : Option Instr :=
  match f.fn4.toNat, f.ty with
  | 0, some t => need (!f.z && f.b == 0) (.vrsum t f.d f.a f.k)
  | 1, some t => need (!f.z && f.b == 0) (.vrsumt t f.d f.a f.k)
  | 2, some t => need (!f.z && f.b == 0) (.vrmin t f.d f.a f.k)
  | 3, some t => need (!f.z && f.b == 0) (.vrmax t f.d f.a f.k)
  | 4, some t => need (!f.z && f.b == 0) (.vrand t f.d f.a f.k)
  | 5, some t => need (!f.z && f.b == 0) (.vror t f.d f.a f.k)
  | 6, some t => need (!f.z && f.b == 0) (.vrxor t f.d f.a f.k)
  | _, _ => none

/-- VGS (R152, R209). -/
noncomputable def decVgs (f : Fields) : Option Instr :=
  match f.fn4.toNat, f.ty with
  | 0, some t => some (.vgath t f.z f.d f.a f.b f.k)
  | 1, some t => need (!f.z) (.vscat t f.d f.a f.b f.k)
  | 2, some t => need (!f.z) (.vscata t f.d f.a f.b f.k)
  | 3, some t => some (.vldt t f.z f.d f.a f.b f.k)
  | 4, some t => need (f.k == 0) (.vstq t f.z f.d f.a f.b)
  | _, _ => none

/-- VCVT (R152, R216): FN4[1:0] the rounding, [2] `.sat`, [3] `.hi`; VB holds the source TYPE. -/
noncomputable def decVcvt (f : Fields) : Option Instr :=
  match VRnd.ofCode (f.fn.extractLsb' 4 2), f.ty, ElemType.ofCode f.b with
  | some r, some t, some s =>
    some (.vcvt (f.fn.extractLsb' 7 1 == 1) (f.fn.extractLsb' 6 1 == 1) r t s f.z f.k f.d f.a)
  | _, _, _ => none

/-- VMEM (R152, R219). -/
noncomputable def decVmem (f : Fields) : Option Instr :=
  match f.b.toNat with
  | 0 => some (.vld f.d f.a f.imm12)
  | 1 => some (.vldW f.d f.a f.imm12)
  | 2 => some (.vldb f.d f.a f.imm12)
  | 4 => some (.vst f.d f.a f.imm12)
  | 5 => some (.vstF f.d f.a f.imm12)
  | _ => none

/-- KOP (R152, R225). -/
noncomputable def decKop (f : Fields) : Option Instr :=
  match f.fn.toNat with
  | 0x00 => (kregOf f.d).bind fun d => (kregOf f.a).bind fun a => (kregOf f.b).bind fun b => need (f.c == 0) (.kand d a b)
  | 0x01 => (kregOf f.d).bind fun d => (kregOf f.a).bind fun a => (kregOf f.b).bind fun b => need (f.c == 0) (.kor d a b)
  | 0x02 => (kregOf f.d).bind fun d => (kregOf f.a).bind fun a => (kregOf f.b).bind fun b => need (f.c == 0) (.kxor d a b)
  | 0x03 => (kregOf f.d).bind fun d => (kregOf f.a).bind fun a => (kregOf f.b).bind fun b => need (f.c == 0) (.kandn d a b)
  | 0x04 => (kregOf f.d).bind fun d => (kregOf f.a).bind fun a => need (f.c == 0 && f.b == 0) (.knot d a)
  | 0x05 => (kregOf f.d).bind fun d => need (f.c == 0 && f.b == 0) (.kfromg d f.a)
  | 0x06 => (kregOf f.a).bind fun a => need (f.c == 0 && f.b == 0) (.ktog f.d a)
  | 0x07 => (kregOf f.a).bind fun a => need (f.c == 0 && f.b == 0) (.kpopc f.d a)
  | 0x08 => (kregOf f.a).bind fun a => need (f.c == 0 && f.b == 0) (.kfirst f.d a)
  | _ => none

/-- ENG (R153, R247). -/
noncomputable def decEng (f : Fields) : Option Instr :=
  match f.fn.toNat with
  | 0x00 => need (f.c == 0 && f.b == 0) (.mpost f.d f.a)
  | 0x01 => need (f.c == 0 && f.b == 0 && f.a == 0) (.mseq f.d)
  | 0x02 => need (f.c == 0 && f.b == 0 && f.d == 0) (.mwait f.a)
  | 0x03 => need (f.c == 0 && f.b == 0) (.mstat f.d f.a)
  | 0x04 => need (f.c == 0 && f.b == 0) (.cpost f.d f.a)
  | 0x05 => need (f.c == 0 && f.b == 0 && f.a == 0) (.cseq f.d)
  | 0x06 => need (f.c == 0 && f.b == 0 && f.d == 0) (.cwait f.a)
  | 0x07 => need (f.c == 0 && f.b == 0) (.cstat f.d f.a)
  | _ => none

/-- LOCK (R153, R267). -/
noncomputable def decLock (f : Fields) : Option Instr :=
  match f.fn.toNat with
  | 0x00 => need (f.c == 0 && f.b == 0) (.txbeg f.d f.a)
  | 0x01 => need (f.c == 0 && f.b == 0 && f.a == 0) (.txcommit f.d)
  | 0x02 => need (f.c == 0 && f.b == 0 && f.a == 0) (.txend f.d)
  | 0x03 => need (f.c == 0) (.lkacq f.d f.a f.b)
  | 0x04 => some (.lkacqm f.d f.a f.b f.c)
  | 0x05 => need (f.c == 0) (.lktry f.d f.a f.b)
  | 0x06 => need (f.c == 0) (.lkcvt f.d f.a f.b)
  | 0x07 => need (f.c == 0 && f.b == 0) (.lkrel f.d f.a)
  | 0x08 => need (f.c == 0 && f.b == 0) (.lkmat f.d f.a)
  | 0x09 => need (f.c == 0) (.lease f.d f.a f.b)
  | 0x0A => need (f.c == 0 && f.b == 0) (.leaser f.d f.a)
  | 0x0B => need (f.c == 0) (.lkqry f.d f.a f.b)
  | _ => none

/-- SYS (R153). -/
noncomputable def decSys (f : Fields) : Option Instr :=
  match f.fn.toNat with
  | 0x00 => need (f.c == 0 && f.b == 0 && f.a == 0) (.snap f.d)
  | 0x01 => need (f.c == 0 && f.b == 0) (.snapq f.d f.a)
  | 0x02 => need (f.c == 0 && f.b == 0 && f.a == 0) (.resumeq f.d)
  | 0x03 => need (f.c == 0 && f.b == 0 && f.d == 0 && f.a == 0) (.trig)
  | 0x04 => need (f.c == 0 && f.b == 0 && f.a == 0) (.time f.d)
  | 0x05 => need (f.c == 0 && f.b == 0 && f.a == 0) (.cycle f.d)
  | 0x08 => need (f.c == 0 && f.d == 0) (.xinv f.a f.b)
  | 0x0A => need (f.c == 0 && f.d == 0) (.inject f.a f.b)
  | _ => none

/-- The instruction the fields name, before the checks of `Instr.wellFormed`, by major opcode (R145). -/
noncomputable def decodeMajor (f : Fields) : Option Instr :=
  match f.maj.toNat with
  | 0x00 => decInt f
  | 0x01 => some (.addi f.d f.a f.imm16)
  | 0x02 => some (.andi f.d f.a f.imm16)
  | 0x03 => some (.ori f.d f.a f.imm16)
  | 0x04 => some (.xori f.d f.a f.imm16)
  | 0x05 => some (.slti f.d f.a f.imm16)
  | 0x06 => some (.sltni f.d f.a f.imm16)
  | 0x07 => decShi f
  | 0x08 => need (f.a.extractLsb' 2 2 == 0) (.movw f.d f.imm16 (f.a.extractLsb' 0 2))
  | 0x09 => need (f.a.extractLsb' 2 2 == 0) (.movk f.d f.imm16 (f.a.extractLsb' 0 2))
  | 0x0A => need (f.a.extractLsb' 2 2 == 0) (.movn f.d f.imm16 (f.a.extractLsb' 0 2))
  | 0x0B => some (.paddi f.d f.a f.imm16)
  | 0x0C => some (.adr f.d f.off20)
  | 0x0D => decFmovi f
  | 0x10 => some (.b f.off24)
  | 0x11 => some (.bl f.off24)
  | 0x12 => decBc f
  | 0x13 => decFbc f
  | 0x14 => decJmp f
  | 0x15 => decLoop f
  | 0x16 => decCtrl f
  | 0x18 => decLd f
  | 0x19 => decSt f
  | 0x1A => decLdfe f
  | 0x1B => decStfe f
  | 0x1C => decAmo f
  | 0x1D => decFence f
  | 0x20 => need (f.c == 0) (.send f.fn f.a f.d f.b)
  | 0x21 => need (f.d == 0) (.sendx f.fn f.a f.b f.c)
  | 0x22 => need (f.c == 0) (.sendg f.fn f.a f.d f.b)
  | 0x23 => decGet f
  | 0x24 => decPut f
  | 0x25 => decCnt f
  | 0x26 => decMsg f
  | 0x27 => decRing f
  | 0x28 => decFop f
  | 0x30 => decVari f
  | 0x31 => decVfma f
  | 0x32 => decVlog f
  | 0x33 => decVcmp f
  | 0x34 => decVprm f
  | 0x35 => decVcvt f
  | 0x36 => decVred f
  | 0x37 => decVmem f
  | 0x38 => decVgs f
  | 0x39 => decKop f
  | 0x3C => decEng f
  | 0x3D => decLock f
  | 0x3E => decSys f
  | _ => none

/-- Whether a major opcode is assigned (R145, R156); an unassigned one is ILLEGAL from the first halfword alone (R140). -/
def majorAssigned (maj : BitVec 6) : Bool :=
  match maj.toNat with
  | 0x0E | 0x0F | 0x17 | 0x1E | 0x1F | 0x29 | 0x2A | 0x2B | 0x2C | 0x2D | 0x2E | 0x2F | 0x3A | 0x3B | 0x3F => false
  | _ => true

/-- The 16-bit instructions (R142). -/
def decodeNibbles (f : HalfFields) : Option Instr :=
  match f.op.toNat with
  | 0x0 => need (f.n == 0) (.cMov f.d f.a)
  | 0x1 => need (f.n == 0) (.cAdd f.d f.a)
  | 0x2 => need (f.n == 0) (.cSub f.d f.a)
  | 0x3 => need (f.n == 0) (.cAnd f.d f.a)
  | 0x4 => need (f.n == 0) (.cOr f.d f.a)
  | 0x5 => some (.cAddi f.d (f.a ++ f.n))
  | 0x6 => some (.cMovi f.d (f.a ++ f.n))
  | 0x7 => some (.cLdd f.d f.a f.n)
  | 0x8 => some (.cStd f.d f.a f.n)
  | 0x9 => some (.cBz f.d (f.a ++ f.n))
  | 0xA => some (.cBnz f.d (f.a ++ f.n))
  | 0xB =>
    if f.a = 0 ∧ f.n = 0 then
      match f.d.toNat with
      | 0 => some .cDone | 1 => some .cYield | 2 => some .cNop | 3 => some .cRet | 4 => some .cCommit | _ => none
    else none
  | _ => none

/-- Keeps an instruction only if it is well formed. -/
def checked (o : Option Instr) : Option Instr :=
  match o with
  | some i => if i.wellFormed then some i else none
  | none => none

/-- The instruction of a 16-bit halfword whose bits [15:14] are not 0b11, or none for ILLEGAL (R141, R142). -/
def decode16 (h : Half) : Option Instr := checked (decodeNibbles (.ofHalf h))

/-- The instruction of a 32-bit word whose bits [15:14] are 0b11, or none for ILLEGAL (R143 to R156). -/
noncomputable def decode32 (w : Word32) : Option Instr := checked (decodeMajor (.ofWord w))

/-- Bits [15:14] of the first halfword decide the length (R139). -/
def isLong (h : Half) : Bool := h.extractLsb' 14 2 == 3

/-- Why bytes are not an instruction. -/
inductive DecodeError where
  /-- fewer bytes than the first halfword's length calls for -/
  | truncated
  /-- an unassigned or permanently illegal major opcode (R140, R156) -/
  | illegalMajor
  /-- any other pattern of R156 -/
  | illegalPattern
deriving DecidableEq, Repr

/-- The halfword of two bytes, the first the lower (R9). -/
def halfOf (lo hi : Byte) : Half := hi ++ lo

/-- Decodes the instruction at the head of a byte sequence: the instruction and its length in bytes, or the reason there is
none. Total on any bytes. -/
noncomputable def decode (bs : List Byte) : Except DecodeError (Instr × Nat) :=
  match bs with
  | b0 :: b1 :: rest =>
    let h := halfOf b0 b1
    if isLong h then
      if majorAssigned (h.extractLsb' 8 6) then
        match rest with
        | b2 :: b3 :: _ =>
          match decode32 (halfOf b2 b3 ++ h) with
          | some i => .ok (i, 4)
          | none => .error .illegalPattern
        | _ => .error .truncated
      else .error .illegalMajor
    else
      match decode16 h with
      | some i => .ok (i, 2)
      | none => .error .illegalPattern
  | _ => .error .truncated

/-- The instruction the decoder reads from an instruction whose bits are `w`, the first halfword lowest (R9, R139). -/
noncomputable def decodeTableWord (_nbits w : Nat) : Option Instr :=
  let byte (k : Nat) : Byte := BitVec.ofNat 8 (w / 256 ^ k)
  match decode [byte 0, byte 1, byte 2, byte 3] with
  | .ok (i, _) => some i
  | .error _ => none

/-! ### Encoding -/

/-- The nibbles of a 16-bit instruction (R141, R142); none for every other term. -/
def encodeNibbles : Instr → Option HalfFields
  | .cMov d a => some ⟨0, d, a, 0⟩
  | .cAdd d a => some ⟨1, d, a, 0⟩
  | .cSub d a => some ⟨2, d, a, 0⟩
  | .cAnd d a => some ⟨3, d, a, 0⟩
  | .cOr d a => some ⟨4, d, a, 0⟩
  | .cAddi d i => some ⟨5, d, i.extractLsb' 4 4, i.extractLsb' 0 4⟩
  | .cMovi d i => some ⟨6, d, i.extractLsb' 4 4, i.extractLsb' 0 4⟩
  | .cLdd d a i => some ⟨7, d, a, i⟩
  | .cStd d a i => some ⟨8, d, a, i⟩
  | .cBz d off => some ⟨9, d, off.extractLsb' 4 4, off.extractLsb' 0 4⟩
  | .cBnz d off => some ⟨10, d, off.extractLsb' 4 4, off.extractLsb' 0 4⟩
  | .cDone => some ⟨11, 0, 0, 0⟩
  | .cYield => some ⟨11, 1, 0, 0⟩
  | .cNop => some ⟨11, 2, 0, 0⟩
  | .cRet => some ⟨11, 3, 0, 0⟩
  | .cCommit => some ⟨11, 4, 0, 0⟩
  | _ => none

/-- The fields of a 32-bit instruction (R143 to R153); none for every other term. -/
def encodeFields : Instr → Option Fields
  | .add d a b =>
    some ⟨0x00, 0, b, 0x00, d, a⟩
  | .sub d a b =>
    some ⟨0x01, 0, b, 0x00, d, a⟩
  | .mul d a b =>
    some ⟨0x02, 0, b, 0x00, d, a⟩
  | .mulh d a b =>
    some ⟨0x03, 0, b, 0x00, d, a⟩
  | .mulhn d a b =>
    some ⟨0x04, 0, b, 0x00, d, a⟩
  | .div d a b =>
    some ⟨0x05, 0, b, 0x00, d, a⟩
  | .divn d a b =>
    some ⟨0x06, 0, b, 0x00, d, a⟩
  | .rem d a b =>
    some ⟨0x07, 0, b, 0x00, d, a⟩
  | .remn d a b =>
    some ⟨0x08, 0, b, 0x00, d, a⟩
  | .and d a b =>
    some ⟨0x10, 0, b, 0x00, d, a⟩
  | .or d a b =>
    some ⟨0x11, 0, b, 0x00, d, a⟩
  | .xor d a b =>
    some ⟨0x12, 0, b, 0x00, d, a⟩
  | .andn d a b =>
    some ⟨0x13, 0, b, 0x00, d, a⟩
  | .orn d a b =>
    some ⟨0x14, 0, b, 0x00, d, a⟩
  | .shl d a b =>
    some ⟨0x18, 0, b, 0x00, d, a⟩
  | .shr d a b =>
    some ⟨0x19, 0, b, 0x00, d, a⟩
  | .sar d a b =>
    some ⟨0x1A, 0, b, 0x00, d, a⟩
  | .rol d a b =>
    some ⟨0x1B, 0, b, 0x00, d, a⟩
  | .min d a b =>
    some ⟨0x20, 0, b, 0x00, d, a⟩
  | .max d a b =>
    some ⟨0x21, 0, b, 0x00, d, a⟩
  | .minn d a b =>
    some ⟨0x22, 0, b, 0x00, d, a⟩
  | .maxn d a b =>
    some ⟨0x23, 0, b, 0x00, d, a⟩
  | .seq d a b =>
    some ⟨0x28, 0, b, 0x00, d, a⟩
  | .sne d a b =>
    some ⟨0x29, 0, b, 0x00, d, a⟩
  | .slt d a b =>
    some ⟨0x2A, 0, b, 0x00, d, a⟩
  | .sle d a b =>
    some ⟨0x2B, 0, b, 0x00, d, a⟩
  | .sltn d a b =>
    some ⟨0x2C, 0, b, 0x00, d, a⟩
  | .slen d a b =>
    some ⟨0x2D, 0, b, 0x00, d, a⟩
  | .sel d a b c =>
    some ⟨0x30, c, b, 0x00, d, a⟩
  | .clz d a =>
    some ⟨0x38, 0, 0, 0x00, d, a⟩
  | .ctz d a =>
    some ⟨0x39, 0, 0, 0x00, d, a⟩
  | .popc d a =>
    some ⟨0x3A, 0, 0, 0x00, d, a⟩
  | .brev d a =>
    some ⟨0x3B, 0, 0, 0x00, d, a⟩
  | .muladd d a b c =>
    some ⟨0x3C, c, b, 0x00, d, a⟩
  | .padd d a b =>
    some ⟨0x40, 0, b, 0x00, d, a⟩
  | .psub d a b =>
    some ⟨0x41, 0, b, 0x00, d, a⟩
  | .ptag d a b =>
    some ⟨0x42, 0, b, 0x00, d, a⟩
  | .pfmt d a =>
    some ⟨0x43, 0, 0, 0x00, d, a⟩
  | .bfx d a c =>
    some ⟨0x48, c, 0, 0x00, d, a⟩
  | .bfxs d a c =>
    some ⟨0x49, c, 0, 0x00, d, a⟩
  | .bfi d a b c =>
    some ⟨0x4A, c, b, 0x00, d, a⟩
  | .addw d a b =>
    some ⟨0x50, 0, b, 0x00, d, a⟩
  | .subw d a b =>
    some ⟨0x51, 0, b, 0x00, d, a⟩
  | .mulw d a b =>
    some ⟨0x52, 0, b, 0x00, d, a⟩
  | .shlw d a b =>
    some ⟨0x53, 0, b, 0x00, d, a⟩
  | .shrw d a b =>
    some ⟨0x54, 0, b, 0x00, d, a⟩
  | .sarw d a b =>
    some ⟨0x55, 0, b, 0x00, d, a⟩
  | .addi d a i =>
    some ⟨i.extractLsb' 8 8, i.extractLsb' 4 4, i.extractLsb' 0 4, 0x01, d, a⟩
  | .andi d a i =>
    some ⟨i.extractLsb' 8 8, i.extractLsb' 4 4, i.extractLsb' 0 4, 0x02, d, a⟩
  | .ori d a i =>
    some ⟨i.extractLsb' 8 8, i.extractLsb' 4 4, i.extractLsb' 0 4, 0x03, d, a⟩
  | .xori d a i =>
    some ⟨i.extractLsb' 8 8, i.extractLsb' 4 4, i.extractLsb' 0 4, 0x04, d, a⟩
  | .slti d a i =>
    some ⟨i.extractLsb' 8 8, i.extractLsb' 4 4, i.extractLsb' 0 4, 0x05, d, a⟩
  | .sltni d a i =>
    some ⟨i.extractLsb' 8 8, i.extractLsb' 4 4, i.extractLsb' 0 4, 0x06, d, a⟩
  | .shli d a n =>
    some ⟨0x00, 0#2 ++ n.extractLsb' 4 2, n.extractLsb' 0 4, 0x07, d, a⟩
  | .shri d a n =>
    some ⟨0x00, 1#2 ++ n.extractLsb' 4 2, n.extractLsb' 0 4, 0x07, d, a⟩
  | .sari d a n =>
    some ⟨0x00, 2#2 ++ n.extractLsb' 4 2, n.extractLsb' 0 4, 0x07, d, a⟩
  | .roli d a n =>
    some ⟨0x00, 3#2 ++ n.extractLsb' 4 2, n.extractLsb' 0 4, 0x07, d, a⟩
  | .shliW d a n =>
    some ⟨0x01, 0#2 ++ 0#1 ++ n.extractLsb' 4 1, n.extractLsb' 0 4, 0x07, d, a⟩
  | .shriW d a n =>
    some ⟨0x01, 1#2 ++ 0#1 ++ n.extractLsb' 4 1, n.extractLsb' 0 4, 0x07, d, a⟩
  | .sariW d a n =>
    some ⟨0x01, 2#2 ++ 0#1 ++ n.extractLsb' 4 1, n.extractLsb' 0 4, 0x07, d, a⟩
  | .roliW d a n =>
    some ⟨0x01, 3#2 ++ 0#1 ++ n.extractLsb' 4 1, n.extractLsb' 0 4, 0x07, d, a⟩
  | .movw d i p =>
    some ⟨i.extractLsb' 8 8, i.extractLsb' 4 4, i.extractLsb' 0 4, 0x08, d, 0#2 ++ p⟩
  | .movk d i p =>
    some ⟨i.extractLsb' 8 8, i.extractLsb' 4 4, i.extractLsb' 0 4, 0x09, d, 0#2 ++ p⟩
  | .movn d i p =>
    some ⟨i.extractLsb' 8 8, i.extractLsb' 4 4, i.extractLsb' 0 4, 0x0A, d, 0#2 ++ p⟩
  | .paddi d a i =>
    some ⟨i.extractLsb' 8 8, i.extractLsb' 4 4, i.extractLsb' 0 4, 0x0B, d, a⟩
  | .adr d off =>
    some ⟨off.extractLsb' 8 8, off.extractLsb' 4 4, off.extractLsb' 0 4, 0x0C, d, off.extractLsb' 16 4⟩
  | .fmoviF64H d i =>
    some ⟨i.extractLsb' 8 8, i.extractLsb' 4 4, i.extractLsb' 0 4, 0x0D, d, 0⟩
  | .fmoviF32H d i =>
    some ⟨i.extractLsb' 8 8, i.extractLsb' 4 4, i.extractLsb' 0 4, 0x0D, d, 1⟩
  | .fmoviF64Bf d i =>
    some ⟨i.extractLsb' 8 8, i.extractLsb' 4 4, i.extractLsb' 0 4, 0x0D, d, 2⟩
  | .fmoviF32Bf d i =>
    some ⟨i.extractLsb' 8 8, i.extractLsb' 4 4, i.extractLsb' 0 4, 0x0D, d, 3⟩
  | .b off =>
    some ⟨off.extractLsb' 8 8, off.extractLsb' 4 4, off.extractLsb' 0 4, 0x10, off.extractLsb' 20 4, off.extractLsb' 16 4⟩
  | .bl off =>
    some ⟨off.extractLsb' 8 8, off.extractLsb' 4 4, off.extractLsb' 0 4, 0x11, off.extractLsb' 20 4, off.extractLsb' 16 4⟩
  | .bcEq x y off =>
    some ⟨off.extractLsb' 4 8, off.extractLsb' 0 4, 0, 0x12, x, y⟩
  | .bcNe x y off =>
    some ⟨off.extractLsb' 4 8, off.extractLsb' 0 4, 1, 0x12, x, y⟩
  | .bcLt x y off =>
    some ⟨off.extractLsb' 4 8, off.extractLsb' 0 4, 2, 0x12, x, y⟩
  | .bcGe x y off =>
    some ⟨off.extractLsb' 4 8, off.extractLsb' 0 4, 3, 0x12, x, y⟩
  | .bcLtn x y off =>
    some ⟨off.extractLsb' 4 8, off.extractLsb' 0 4, 4, 0x12, x, y⟩
  | .bcGen x y off =>
    some ⟨off.extractLsb' 4 8, off.extractLsb' 0 4, 5, 0x12, x, y⟩
  | .bcAny x y off =>
    some ⟨off.extractLsb' 4 8, off.extractLsb' 0 4, 6, 0x12, x, y⟩
  | .bcNone x y off =>
    some ⟨off.extractLsb' 4 8, off.extractLsb' 0 4, 7, 0x12, x, y⟩
  | .fbcEq p x y off =>
    some ⟨off.extractLsb' 4 8, off.extractLsb' 0 4, p.bit ++ 0#3, 0x13, x, y⟩
  | .fbcNe p x y off =>
    some ⟨off.extractLsb' 4 8, off.extractLsb' 0 4, p.bit ++ 1#3, 0x13, x, y⟩
  | .fbcLt p x y off =>
    some ⟨off.extractLsb' 4 8, off.extractLsb' 0 4, p.bit ++ 2#3, 0x13, x, y⟩
  | .fbcLe p x y off =>
    some ⟨off.extractLsb' 4 8, off.extractLsb' 0 4, p.bit ++ 3#3, 0x13, x, y⟩
  | .fbcUn p x y off =>
    some ⟨off.extractLsb' 4 8, off.extractLsb' 0 4, p.bit ++ 4#3, 0x13, x, y⟩
  | .fbcOrd p x y off =>
    some ⟨off.extractLsb' 4 8, off.extractLsb' 0 4, p.bit ++ 5#3, 0x13, x, y⟩
  | .jr a =>
    some ⟨0x00, 0, 0, 0x14, 0, a⟩
  | .jlr d a =>
    some ⟨0x01, 0, 0, 0x14, d, a⟩
  | .loop0 c len =>
    some ⟨len.extractLsb' 8 8, len.extractLsb' 4 4, len.extractLsb' 0 4, 0x15, c, 0⟩
  | .loop1 c len =>
    some ⟨len.extractLsb' 8 8, len.extractLsb' 4 4, len.extractLsb' 0 4, 0x15, c, 1⟩
  | .done =>
    some ⟨0x00, 0, 0, 0x16, 0, 0⟩
  | .commit =>
    some ⟨0x01, 0, 0, 0x16, 0, 0⟩
  | .yield =>
    some ⟨0x02, 0, 0, 0x16, 0, 0⟩
  | .abort =>
    some ⟨0x03, 0, 0, 0x16, 0, 0⟩
  | .requeue =>
    some ⟨0x04, 0, 0, 0x16, 0, 0⟩
  | .trap e =>
    some ⟨0x05, e.extractLsb' 4 4, e.extractLsb' 0 4, 0x16, 0, 0⟩
  | .tret =>
    some ⟨0x06, 0, 0, 0x16, 0, 0⟩
  | .nop =>
    some ⟨0x07, 0, 0, 0x16, 0, 0⟩
  | .waitf a =>
    some ⟨0x08, 0, 0, 0x16, 0, a⟩
  | .migrate cls a =>
    some ⟨0x10, cls.extractLsb' 4 4, cls.extractLsb' 0 4, 0x16, 0, a⟩
  | .mfs d e =>
    some ⟨0x20, e.index.extractLsb' 4 4, e.index.extractLsb' 0 4, 0x16, d, 0⟩
  | .mts e a =>
    some ⟨0x21, e.index.extractLsb' 4 4, e.index.extractLsb' 0 4, 0x16, 0, a⟩
  | .ldbs d a i =>
    some ⟨i.extractLsb' 4 8, i.extractLsb' 0 4, 0, 0x18, d, a⟩
  | .ldbz d a i =>
    some ⟨i.extractLsb' 4 8, i.extractLsb' 0 4, 1, 0x18, d, a⟩
  | .ldhs d a i =>
    some ⟨i.extractLsb' 4 8, i.extractLsb' 0 4, 2, 0x18, d, a⟩
  | .ldhz d a i =>
    some ⟨i.extractLsb' 4 8, i.extractLsb' 0 4, 3, 0x18, d, a⟩
  | .ldws d a i =>
    some ⟨i.extractLsb' 4 8, i.extractLsb' 0 4, 4, 0x18, d, a⟩
  | .ldwz d a i =>
    some ⟨i.extractLsb' 4 8, i.extractLsb' 0 4, 5, 0x18, d, a⟩
  | .ldd d a i =>
    some ⟨i.extractLsb' 4 8, i.extractLsb' 0 4, 6, 0x18, d, a⟩
  | .stb d a i =>
    some ⟨i.extractLsb' 4 8, i.extractLsb' 0 4, 0, 0x19, d, a⟩
  | .sth d a i =>
    some ⟨i.extractLsb' 4 8, i.extractLsb' 0 4, 1, 0x19, d, a⟩
  | .stw d a i =>
    some ⟨i.extractLsb' 4 8, i.extractLsb' 0 4, 2, 0x19, d, a⟩
  | .std d a i =>
    some ⟨i.extractLsb' 4 8, i.extractLsb' 0 4, 3, 0x19, d, a⟩
  | .lddW d a i =>
    some ⟨i.extractLsb' 4 8, i.extractLsb' 0 4, 0, 0x1A, d, a⟩
  | .lddWc d a i =>
    some ⟨i.extractLsb' 4 8, i.extractLsb' 0 4, 1, 0x1A, d, a⟩
  | .lddT d a i =>
    some ⟨i.extractLsb' 4 8, i.extractLsb' 0 4, 2, 0x1A, d, a⟩
  | .lddTc d a i =>
    some ⟨i.extractLsb' 4 8, i.extractLsb' 0 4, 3, 0x1A, d, a⟩
  | .fetest d a i =>
    some ⟨i.extractLsb' 4 8, i.extractLsb' 0 4, 4, 0x1A, d, a⟩
  | .stdF d a i =>
    some ⟨i.extractLsb' 4 8, i.extractLsb' 0 4, 0, 0x1B, d, a⟩
  | .stdWf d a i =>
    some ⟨i.extractLsb' 4 8, i.extractLsb' 0 4, 1, 0x1B, d, a⟩
  | .feset a i =>
    some ⟨i.extractLsb' 4 8, i.extractLsb' 0 4, 2, 0x1B, 0, a⟩
  | .feclr a i =>
    some ⟨i.extractLsb' 4 8, i.extractLsb' 0 4, 3, 0x1B, 0, a⟩
  | .amoAdd o sz d a b =>
    some ⟨o.code ++ sz.bit ++ 0#5, 0, b, 0x1C, d, a⟩
  | .amoAnd o sz d a b =>
    some ⟨o.code ++ sz.bit ++ 1#5, 0, b, 0x1C, d, a⟩
  | .amoOr o sz d a b =>
    some ⟨o.code ++ sz.bit ++ 2#5, 0, b, 0x1C, d, a⟩
  | .amoXor o sz d a b =>
    some ⟨o.code ++ sz.bit ++ 3#5, 0, b, 0x1C, d, a⟩
  | .amoMin o sz d a b =>
    some ⟨o.code ++ sz.bit ++ 4#5, 0, b, 0x1C, d, a⟩
  | .amoMax o sz d a b =>
    some ⟨o.code ++ sz.bit ++ 5#5, 0, b, 0x1C, d, a⟩
  | .amoMinn o sz d a b =>
    some ⟨o.code ++ sz.bit ++ 6#5, 0, b, 0x1C, d, a⟩
  | .amoMaxn o sz d a b =>
    some ⟨o.code ++ sz.bit ++ 7#5, 0, b, 0x1C, d, a⟩
  | .amoSwap o sz d a b =>
    some ⟨o.code ++ sz.bit ++ 8#5, 0, b, 0x1C, d, a⟩
  | .amoCas o sz d a b c =>
    some ⟨o.code ++ sz.bit ++ 9#5, c, b, 0x1C, d, a⟩
  | .amoFadd o sz d a b =>
    some ⟨o.code ++ sz.bit ++ 10#5, 0, b, 0x1C, d, a⟩
  | .fence sc =>
    some ⟨0x00, 0, sc.code, 0x1D, 0, 0⟩
  | .fenceAcq sc =>
    some ⟨0x01, 0, sc.code, 0x1D, 0, 0⟩
  | .fenceRel sc =>
    some ⟨0x02, 0, sc.code, 0x1D, 0, 0⟩
  | .fenceEng =>
    some ⟨0x03, 0, 0, 0x1D, 0, 0⟩
  | .send cls a p n =>
    some ⟨cls, 0, n, 0x20, p, a⟩
  | .sendx cls a b c =>
    some ⟨cls, c, b, 0x21, 0, a⟩
  | .sendg cls a p n =>
    some ⟨cls, 0, n, 0x22, p, a⟩
  | .get a b c =>
    some ⟨0x00, c, b, 0x23, 0, a⟩
  | .getN d a b c =>
    some ⟨0x01, c, b, 0x23, d, a⟩
  | .put a b c =>
    some ⟨0x00, c, b, 0x24, 0, a⟩
  | .putF a b c =>
    some ⟨0x01, c, b, 0x24, 0, a⟩
  | .putN d a b c =>
    some ⟨0x02, c, b, 0x24, d, a⟩
  | .putFn d a b c =>
    some ⟨0x03, c, b, 0x24, d, a⟩
  | .carm a b c =>
    some ⟨0x00, c, b, 0x25, 0, a⟩
  | .cadd d a b =>
    some ⟨0x01, 0, b, 0x25, d, a⟩
  | .crd d a =>
    some ⟨0x02, 0, 0, 0x25, d, a⟩
  | .cdis a =>
    some ⟨0x03, 0, 0, 0x25, 0, a⟩
  | .cinc a b c =>
    some ⟨0x04, c, b, 0x25, 0, a⟩
  | .msgld d w =>
    some ⟨0x00, 0#3 ++ w.extractLsb' 4 1, w.extractLsb' 0 4, 0x26, d, 0⟩
  | .msghd d h =>
    some ⟨0x01, 0, 0#3 ++ h, 0x26, d, 0⟩
  | .msgid d =>
    some ⟨0x02, 0, 0, 0x26, d, 0⟩
  | .msglen d =>
    some ⟨0x03, 0, 0, 0x26, d, 0⟩
  | .rresv d a b =>
    some ⟨0x00, 0, b, 0x27, d, a⟩
  | .rpubl a b c =>
    some ⟨0x01, c, b, 0x27, 0, a⟩
  | .rhead d a =>
    some ⟨0x02, 0, 0, 0x27, d, a⟩
  | .rcons a b =>
    some ⟨0x03, 0, b, 0x27, 0, a⟩
  | .fadd p r d a b =>
    some ⟨p.bit ++ r.code ++ 0#5, 0, b, 0x28, d, a⟩
  | .fsub p r d a b =>
    some ⟨p.bit ++ r.code ++ 1#5, 0, b, 0x28, d, a⟩
  | .fmul p r d a b =>
    some ⟨p.bit ++ r.code ++ 2#5, 0, b, 0x28, d, a⟩
  | .fdiv p r d a b =>
    some ⟨p.bit ++ r.code ++ 3#5, 0, b, 0x28, d, a⟩
  | .fsqrt p r d a =>
    some ⟨p.bit ++ r.code ++ 4#5, 0, 0, 0x28, d, a⟩
  | .fmin p d a b =>
    some ⟨p.bit ++ 0#2 ++ 5#5, 0, b, 0x28, d, a⟩
  | .fmax p d a b =>
    some ⟨p.bit ++ 0#2 ++ 6#5, 0, b, 0x28, d, a⟩
  | .fabs p d a =>
    some ⟨p.bit ++ 0#2 ++ 7#5, 0, 0, 0x28, d, a⟩
  | .fneg p d a =>
    some ⟨p.bit ++ 0#2 ++ 8#5, 0, 0, 0x28, d, a⟩
  | .fcpys p d a b =>
    some ⟨p.bit ++ 0#2 ++ 9#5, 0, b, 0x28, d, a⟩
  | .ffma p r d a b c =>
    some ⟨p.bit ++ r.code ++ 10#5, c, b, 0x28, d, a⟩
  | .ffms p r d a b c =>
    some ⟨p.bit ++ r.code ++ 11#5, c, b, 0x28, d, a⟩
  | .fnfma p r d a b c =>
    some ⟨p.bit ++ r.code ++ 12#5, c, b, 0x28, d, a⟩
  | .fnfms p r d a b c =>
    some ⟨p.bit ++ r.code ++ 13#5, c, b, 0x28, d, a⟩
  | .feq p d a b =>
    some ⟨p.bit ++ 0#2 ++ 14#5, 0, b, 0x28, d, a⟩
  | .flt p d a b =>
    some ⟨p.bit ++ 0#2 ++ 15#5, 0, b, 0x28, d, a⟩
  | .fle p d a b =>
    some ⟨p.bit ++ 0#2 ++ 16#5, 0, b, 0x28, d, a⟩
  | .fun p d a b =>
    some ⟨p.bit ++ 0#2 ++ 17#5, 0, b, 0x28, d, a⟩
  | .fclass p d a =>
    some ⟨p.bit ++ 0#2 ++ 18#5, 0, 0, 0x28, d, a⟩
  | .fcvtp p r d a =>
    some ⟨p.bit ++ r.code ++ 19#5, 0, 0, 0x28, d, a⟩
  | .ftos p r d a =>
    some ⟨p.bit ++ r.code ++ 20#5, 0, 0, 0x28, d, a⟩
  | .fton p r d a =>
    some ⟨p.bit ++ r.code ++ 21#5, 0, 0, 0x28, d, a⟩
  | .stof p r d a =>
    some ⟨p.bit ++ r.code ++ 22#5, 0, 0, 0x28, d, a⟩
  | .ntof p r d a =>
    some ⟨p.bit ++ r.code ++ 23#5, 0, 0, 0x28, d, a⟩
  | .frint p r d a =>
    some ⟨p.bit ++ r.code ++ 24#5, 0, 0, 0x28, d, a⟩
  | .vadd t z d a b k =>
    some ⟨0#4 ++ t.code, BitVec.ofBool z ++ k, b, 0x30, d, a⟩
  | .vsub t z d a b k =>
    some ⟨1#4 ++ t.code, BitVec.ofBool z ++ k, b, 0x30, d, a⟩
  | .vmul t z d a b k =>
    some ⟨2#4 ++ t.code, BitVec.ofBool z ++ k, b, 0x30, d, a⟩
  | .vmin t z d a b k =>
    some ⟨3#4 ++ t.code, BitVec.ofBool z ++ k, b, 0x30, d, a⟩
  | .vmax t z d a b k =>
    some ⟨4#4 ++ t.code, BitVec.ofBool z ++ k, b, 0x30, d, a⟩
  | .vabs t z d a k =>
    some ⟨5#4 ++ t.code, BitVec.ofBool z ++ k, 0, 0x30, d, a⟩
  | .vneg t z d a k =>
    some ⟨6#4 ++ t.code, BitVec.ofBool z ++ k, 0, 0x30, d, a⟩
  | .vadds t z d a b k =>
    some ⟨7#4 ++ t.code, BitVec.ofBool z ++ k, b, 0x30, d, a⟩
  | .vsubs t z d a b k =>
    some ⟨8#4 ++ t.code, BitVec.ofBool z ++ k, b, 0x30, d, a⟩
  | .vmulh t z d a b k =>
    some ⟨9#4 ++ t.code, BitVec.ofBool z ++ k, b, 0x30, d, a⟩
  | .vdiv t z d a b k =>
    some ⟨10#4 ++ t.code, BitVec.ofBool z ++ k, b, 0x30, d, a⟩
  | .vsqrt t z d a k =>
    some ⟨11#4 ++ t.code, BitVec.ofBool z ++ k, 0, 0x30, d, a⟩
  | .vavg t z d a b k =>
    some ⟨12#4 ++ t.code, BitVec.ofBool z ++ k, b, 0x30, d, a⟩
  | .vfma t z d a b k =>
    some ⟨0#4 ++ t.code, BitVec.ofBool z ++ k, b, 0x31, d, a⟩
  | .vfms t z d a b k =>
    some ⟨1#4 ++ t.code, BitVec.ofBool z ++ k, b, 0x31, d, a⟩
  | .vnfma t z d a b k =>
    some ⟨2#4 ++ t.code, BitVec.ofBool z ++ k, b, 0x31, d, a⟩
  | .vmac t z d a b k =>
    some ⟨3#4 ++ t.code, BitVec.ofBool z ++ k, b, 0x31, d, a⟩
  | .vdot2 t z d a b k =>
    some ⟨4#4 ++ t.code, BitVec.ofBool z ++ k, b, 0x31, d, a⟩
  | .vdot4 t z d a b k =>
    some ⟨5#4 ++ t.code, BitVec.ofBool z ++ k, b, 0x31, d, a⟩
  | .vdot4i t z d a b k =>
    some ⟨6#4 ++ t.code, BitVec.ofBool z ++ k, b, 0x31, d, a⟩
  | .vand t z d a b k =>
    some ⟨0#4 ++ t.code, BitVec.ofBool z ++ k, b, 0x32, d, a⟩
  | .vor t z d a b k =>
    some ⟨1#4 ++ t.code, BitVec.ofBool z ++ k, b, 0x32, d, a⟩
  | .vxor t z d a b k =>
    some ⟨2#4 ++ t.code, BitVec.ofBool z ++ k, b, 0x32, d, a⟩
  | .vandn t z d a b k =>
    some ⟨3#4 ++ t.code, BitVec.ofBool z ++ k, b, 0x32, d, a⟩
  | .vshl t z d a b k =>
    some ⟨4#4 ++ t.code, BitVec.ofBool z ++ k, b, 0x32, d, a⟩
  | .vshr t z d a b k =>
    some ⟨5#4 ++ t.code, BitVec.ofBool z ++ k, b, 0x32, d, a⟩
  | .vsar t z d a b k =>
    some ⟨6#4 ++ t.code, BitVec.ofBool z ++ k, b, 0x32, d, a⟩
  | .vrol t z d a b k =>
    some ⟨7#4 ++ t.code, BitVec.ofBool z ++ k, b, 0x32, d, a⟩
  | .vnot t z d a k =>
    some ⟨8#4 ++ t.code, BitVec.ofBool z ++ k, 0, 0x32, d, a⟩
  | .vcmpEq t d a b k =>
    some ⟨0#4 ++ t.code, 0#1 ++ k, b, 0x33, 0#1 ++ d, a⟩
  | .vcmpNe t d a b k =>
    some ⟨1#4 ++ t.code, 0#1 ++ k, b, 0x33, 0#1 ++ d, a⟩
  | .vcmpLt t d a b k =>
    some ⟨2#4 ++ t.code, 0#1 ++ k, b, 0x33, 0#1 ++ d, a⟩
  | .vcmpLe t d a b k =>
    some ⟨3#4 ++ t.code, 0#1 ++ k, b, 0x33, 0#1 ++ d, a⟩
  | .vcmpGt t d a b k =>
    some ⟨4#4 ++ t.code, 0#1 ++ k, b, 0x33, 0#1 ++ d, a⟩
  | .vcmpGe t d a b k =>
    some ⟨5#4 ++ t.code, 0#1 ++ k, b, 0x33, 0#1 ++ d, a⟩
  | .vcmpUn t d a b k =>
    some ⟨6#4 ++ t.code, 0#1 ++ k, b, 0x33, 0#1 ++ d, a⟩
  | .vbcast t z d a k =>
    some ⟨0#4 ++ t.code, BitVec.ofBool z ++ k, 0, 0x34, d, a⟩
  | .vperm t z d a b k =>
    some ⟨1#4 ++ t.code, BitVec.ofBool z ++ k, b, 0x34, d, a⟩
  | .vsel t d a b k =>
    some ⟨2#4 ++ t.code, 0#1 ++ k, b, 0x34, d, a⟩
  | .vext t d a b =>
    some ⟨3#4 ++ t.code, 0#1 ++ 0#3, b, 0x34, d, a⟩
  | .vins t d a b =>
    some ⟨4#4 ++ t.code, 0#1 ++ 0#3, b, 0x34, d, a⟩
  | .vzipl t z d a b k =>
    some ⟨5#4 ++ t.code, BitVec.ofBool z ++ k, b, 0x34, d, a⟩
  | .vziph t z d a b k =>
    some ⟨6#4 ++ t.code, BitVec.ofBool z ++ k, b, 0x34, d, a⟩
  | .vuzpe t z d a b k =>
    some ⟨7#4 ++ t.code, BitVec.ofBool z ++ k, b, 0x34, d, a⟩
  | .vuzpo t z d a b k =>
    some ⟨8#4 ++ t.code, BitVec.ofBool z ++ k, b, 0x34, d, a⟩
  | .viota t z d k =>
    some ⟨9#4 ++ t.code, BitVec.ofBool z ++ k, 0, 0x34, d, 0⟩
  | .vcmprs t z d a k =>
    some ⟨10#4 ++ t.code, BitVec.ofBool z ++ k, 0, 0x34, d, a⟩
  | .vsldn t z d a b k =>
    some ⟨11#4 ++ t.code, BitVec.ofBool z ++ k, b, 0x34, d, a⟩
  | .vcvt hi sat r t s z k d a =>
    some ⟨BitVec.ofBool hi ++ BitVec.ofBool sat ++ r.code ++ t.code, BitVec.ofBool z ++ k, s.code, 0x35, d, a⟩
  | .vrsum t d a k =>
    some ⟨0#4 ++ t.code, 0#1 ++ k, 0, 0x36, d, a⟩
  | .vrsumt t d a k =>
    some ⟨1#4 ++ t.code, 0#1 ++ k, 0, 0x36, d, a⟩
  | .vrmin t d a k =>
    some ⟨2#4 ++ t.code, 0#1 ++ k, 0, 0x36, d, a⟩
  | .vrmax t d a k =>
    some ⟨3#4 ++ t.code, 0#1 ++ k, 0, 0x36, d, a⟩
  | .vrand t d a k =>
    some ⟨4#4 ++ t.code, 0#1 ++ k, 0, 0x36, d, a⟩
  | .vror t d a k =>
    some ⟨5#4 ++ t.code, 0#1 ++ k, 0, 0x36, d, a⟩
  | .vrxor t d a k =>
    some ⟨6#4 ++ t.code, 0#1 ++ k, 0, 0x36, d, a⟩
  | .vld d a i =>
    some ⟨i.extractLsb' 4 8, i.extractLsb' 0 4, 0, 0x37, d, a⟩
  | .vldW d a i =>
    some ⟨i.extractLsb' 4 8, i.extractLsb' 0 4, 1, 0x37, d, a⟩
  | .vldb d a i =>
    some ⟨i.extractLsb' 4 8, i.extractLsb' 0 4, 2, 0x37, d, a⟩
  | .vst d a i =>
    some ⟨i.extractLsb' 4 8, i.extractLsb' 0 4, 4, 0x37, d, a⟩
  | .vstF d a i =>
    some ⟨i.extractLsb' 4 8, i.extractLsb' 0 4, 5, 0x37, d, a⟩
  | .vgath t z d a b k =>
    some ⟨0#4 ++ t.code, BitVec.ofBool z ++ k, b, 0x38, d, a⟩
  | .vscat t d a b k =>
    some ⟨1#4 ++ t.code, 0#1 ++ k, b, 0x38, d, a⟩
  | .vscata t d a b k =>
    some ⟨2#4 ++ t.code, 0#1 ++ k, b, 0x38, d, a⟩
  | .vldt t z d a b k =>
    some ⟨3#4 ++ t.code, BitVec.ofBool z ++ k, b, 0x38, d, a⟩
  | .vstq t sr d a b =>
    some ⟨4#4 ++ t.code, BitVec.ofBool sr ++ 0#3, b, 0x38, d, a⟩
  | .kand d a b =>
    some ⟨0x00, 0, 0#1 ++ b, 0x39, 0#1 ++ d, 0#1 ++ a⟩
  | .kor d a b =>
    some ⟨0x01, 0, 0#1 ++ b, 0x39, 0#1 ++ d, 0#1 ++ a⟩
  | .kxor d a b =>
    some ⟨0x02, 0, 0#1 ++ b, 0x39, 0#1 ++ d, 0#1 ++ a⟩
  | .kandn d a b =>
    some ⟨0x03, 0, 0#1 ++ b, 0x39, 0#1 ++ d, 0#1 ++ a⟩
  | .knot d a =>
    some ⟨0x04, 0, 0, 0x39, 0#1 ++ d, 0#1 ++ a⟩
  | .kfromg d a =>
    some ⟨0x05, 0, 0, 0x39, 0#1 ++ d, a⟩
  | .ktog d a =>
    some ⟨0x06, 0, 0, 0x39, d, 0#1 ++ a⟩
  | .kpopc d a =>
    some ⟨0x07, 0, 0, 0x39, d, 0#1 ++ a⟩
  | .kfirst d a =>
    some ⟨0x08, 0, 0, 0x39, d, 0#1 ++ a⟩
  | .mpost d a =>
    some ⟨0x00, 0, 0, 0x3C, d, a⟩
  | .mseq d =>
    some ⟨0x01, 0, 0, 0x3C, d, 0⟩
  | .mwait a =>
    some ⟨0x02, 0, 0, 0x3C, 0, a⟩
  | .mstat d a =>
    some ⟨0x03, 0, 0, 0x3C, d, a⟩
  | .cpost d a =>
    some ⟨0x04, 0, 0, 0x3C, d, a⟩
  | .cseq d =>
    some ⟨0x05, 0, 0, 0x3C, d, 0⟩
  | .cwait a =>
    some ⟨0x06, 0, 0, 0x3C, 0, a⟩
  | .cstat d a =>
    some ⟨0x07, 0, 0, 0x3C, d, a⟩
  | .txbeg d a =>
    some ⟨0x00, 0, 0, 0x3D, d, a⟩
  | .txcommit d =>
    some ⟨0x01, 0, 0, 0x3D, d, 0⟩
  | .txend d =>
    some ⟨0x02, 0, 0, 0x3D, d, 0⟩
  | .lkacq d a b =>
    some ⟨0x03, 0, b, 0x3D, d, a⟩
  | .lkacqm d a b c =>
    some ⟨0x04, c, b, 0x3D, d, a⟩
  | .lktry d a b =>
    some ⟨0x05, 0, b, 0x3D, d, a⟩
  | .lkcvt d a b =>
    some ⟨0x06, 0, b, 0x3D, d, a⟩
  | .lkrel d a =>
    some ⟨0x07, 0, 0, 0x3D, d, a⟩
  | .lkmat d a =>
    some ⟨0x08, 0, 0, 0x3D, d, a⟩
  | .lease d a b =>
    some ⟨0x09, 0, b, 0x3D, d, a⟩
  | .leaser d a =>
    some ⟨0x0A, 0, 0, 0x3D, d, a⟩
  | .lkqry d a b =>
    some ⟨0x0B, 0, b, 0x3D, d, a⟩
  | .snap d =>
    some ⟨0x00, 0, 0, 0x3E, d, 0⟩
  | .snapq d a =>
    some ⟨0x01, 0, 0, 0x3E, d, a⟩
  | .resumeq d =>
    some ⟨0x02, 0, 0, 0x3E, d, 0⟩
  | .trig =>
    some ⟨0x03, 0, 0, 0x3E, 0, 0⟩
  | .time d =>
    some ⟨0x04, 0, 0, 0x3E, d, 0⟩
  | .cycle d =>
    some ⟨0x05, 0, 0, 0x3E, d, 0⟩
  | .xinv a b =>
    some ⟨0x08, 0, b, 0x3E, 0, a⟩
  | .inject a b =>
    some ⟨0x0A, 0, b, 0x3E, 0, a⟩
  | _ => none

/-- The halfwords of an instruction, in memory order (R9, R139); an event has none. -/
def encode (i : Instr) : List Half :=
  match encodeNibbles i with
  | some f => [f.pack]
  | none =>
    match encodeFields i with
    | some f => [f.pack.extractLsb' 0 16, f.pack.extractLsb' 16 16]
    | none => []

/-- The bytes of an instruction, in memory order (R9). -/
def encodeBytes (i : Instr) : List Byte :=
  (encode i).flatMap fun h => [h.extractLsb' 0 8, h.extractLsb' 8 8]

end Sys2Proof
end

