-- ==== Sys2Proof/Machine/Pages.lean ====
section
/-! DEFINITION. Pages the Vestibule hands out, page-table entries it writes, and the backing of declared ranges (spec/ 07 R114 to R117,
09 R163; log entry 7). -/

namespace Sys2Proof.Machine

/-! ### Pages -/

/-- Whether a 64 KiB page is in use or holds uncorrectable data. -/
def State.pageUsed (s : State) (n : Nat) : Bool :=
  s.vest.pages.any (fun p => p.num == n) || s.bad.any fun b => b.1 / 0x10000 == n

/-- The lowest free page from `i` on. -/
def State.freePageFrom (s : State) : Nat → Nat → Option Nat
  | 0, _ => none
  | n + 1, i =>
    if Config.hbmBytes ≤ i * 0x10000 then none
    else if s.pageUsed i then s.freePageFrom n (i + 1) else some i

/-- A page with every byte zero, for a partition; none if all are in use. -/
def State.newPage (s : State) (pid : Nat) (va : Option Nat) : Option (Nat × State) :=
  (s.freePageFrom (s.vest.pages.length + s.bad.length + 1) (Config.pagePool / 0x10000)).map fun n =>
    (n, { (s.modVest fun v => { v with pages := v.pages ++ [{ num := n, pid := pid, va := va }] }) with
          mem := memZero s.mem (n * 0x10000) (n * 0x10000 + 0x10000) })

/-- `n` consecutive pages of the Vestibule's own for a partition, by their first number. -/
def State.newRun (s : State) (pid n : Nat) : Option (Nat × State) :=
  let top := (s.vest.pages.map (·.num)).foldl Nat.max (Config.pagePool / 0x10000) + 1
  if Config.hbmBytes < (top + n) * 0x10000 then none
  else
    some (top, { (s.modVest fun v =>
        { v with pages := v.pages ++ (List.range n).map fun i => { num := top + i, pid := pid, va := none } }) with
      mem := memZero s.mem (top * 0x10000) ((top + n) * 0x10000) })

/-! ### Page tables (R114, R115) -/

/-- A page-table entry of this package. -/
def State.pte (s : State) (pa : Nat) (leaf w x spb : Bool) : Word :=
  BitVec.ofNat 64 (s.pkg * 2 ^ 49 + pa / 256 * 256 + (if spb then 16 else 0) + (if x then 8 else 0) + (if w then 4 else 0)
    + (if leaf then 2 else 0) + 1)

/-- Writes the entry of a virtual page below a table; tables that are not there yet are added, a page each. -/
def State.mapFrom (s : State) (pid va : Nat) (leaf : Word) : Nat → List (Nat × Nat) → State
  | _, [] => s
  | table, [(size, n)] => s.write (table + 8 * (va / size % n)) (leBytes 8 leaf.toNat)
  | table, (size, n) :: l :: levels =>
    let k := table + 8 * (va / size % n)
    let e := s.read64 k
    if pteV e then s.mapFrom pid va leaf (ptePa e) (l :: levels)
    else
      match s.newPage pid none with
      | none => s
      | some (num, s1) =>
        (s1.write k (leBytes 8 (s.pte (num * 0x10000) false false false false).toNat)).mapFrom pid va leaf (num * 0x10000) (l :: levels)

/-- Maps a virtual page of a partition. -/
def State.mapPage (s : State) (pid va : Nat) (leaf : Word) : State :=
  match s.part pid with
  | some p => s.mapFrom pid va leaf p.root walkLevels
  | none => s

/-- Removes the leaf of a virtual page below a table, if there is one. -/
def State.unmapFrom (s : State) (va : Nat) : Nat → List (Nat × Nat) → State
  | _, [] => s
  | table, (size, n) :: levels =>
    let k := table + 8 * (va / size % n)
    let e := s.read64 k
    if pteV e = false then s
    else if pteLeaf e then s.write k (List.replicate 8 0)
    else s.unmapFrom va (ptePa e) levels

/-- Removes a virtual page of a partition and every cached translation of it (R35, R119). -/
def State.unmapPage (s : State) (pid va : Nat) : State :=
  match s.part pid with
  | none => s
  | some p =>
    let s1 := s.unmapFrom va p.root walkLevels
    let keep := fun (e : Tlb) => !(e.asid == p.asid && e.base ≤ va && va < e.base + e.size)
    { s1 with
      tiles := s1.tiles.map fun e => (e.1, { e.2 with tlb := e.2.tlb.filter keep })
      dies := s1.dies.map fun d => { d with dtu := d.dtu.filter keep } }

/-- The leaf of a partition's virtual page. -/
def State.leafIn (s : State) (p : Partition) (va : Nat) : Option Leaf := s.walkFrom va s.pkg p.root walkLevels

/-! ### Backing (R117, R163) -/

/-- The declared range a page touches. -/
def Job.rangeOf (j : Job) (va : Nat) : Option Range :=
  j.ranges.find? fun r => 0 < r.len && r.va / 0x10000 ≤ va / 0x10000 && va / 0x10000 ≤ (r.va + r.len - 1) / 0x10000

/-- The partition's own page for a virtual page, mapped or not: a page keeps its contents while a window over it is unmapped. -/
def State.ownPage (s : State) (pid va : Nat) : Option Page :=
  s.vest.pages.find? fun p => p.pid == pid && p.va == some (va / 0x10000 * 0x10000)

/-- Backs a virtual page of a partition with a zero page, if its quota allows: text pages are mapped X and not W, data pages W (spec/ 09
R160). -/
def State.backPage (s : State) (pid va : Nat) (x : Bool) : Option State :=
  match s.part pid, s.ownPage pid va with
  | none, _ => none
  | some _, some g => some (s.mapPage pid va (s.pte (g.num * 0x10000) true (!x) x false))
  | some p, none =>
    if p.quota < p.used + 0x10000 then none
    else
      match s.newPage pid (some (va / 0x10000 * 0x10000)) with
      | none => none
      | some (num, s1) =>
        some ((s1.modPart pid fun p => { p with used := p.used + 0x10000 }).mapPage pid va (s.pte (num * 0x10000) true (!x) x false))

/-- Backs a page that a tile's access or fetch found without a leaf, if it lies in a declared range and the quota allows; a page backed
meanwhile counts. -/
def State.backFault (s : State) (t va : Nat) : Option State :=
  match s.partOf t with
  | none => none
  | some (pid, p) =>
    match p.job with
    | none => none
    | some j =>
      if (s.leafIn p va).isSome then some s
      else
        match j.rangeOf va with
        | some r => s.backPage pid va r.x
        | none => none

/-! ### Fetching (R140) -/

/-- A fetched instruction: its bits and its length in bytes; or the address of the halfword that fails and its trap; or the memory key of
uncorrectable data (R285). -/
inductive Fetched where
  | word (w len : Nat)
  | fail (a : Addr) (tr : Trap)
  | bad (a : Addr) (k : Nat)
deriving DecidableEq, Repr

/-- Whether a halfword lies in an uncorrectable line. -/
def State.halfBad (s : State) (p : Piece) : Bool := p.pkg == s.pkg && s.bad.any fun b => b.1 ≤ p.key + 1 && p.key < b.1 + b.2

/-- Fetches the instruction at an address for a tile: one halfword, and the next one where the length bits ask for it and the major is
assigned (R139, R140). -/
def State.fetch (s : State) (t : Nat) (pc : Addr) : Fetched :=
  match s.fetchPiece t pc with
  | .error e => .fail pc e
  | .ok p =>
    if s.halfBad p then .bad pc p.key
    else
      let h := s.halfAt p
      if h / 0x4000 ≠ 3 then .word h 2
      else if majorAssigned (BitVec.ofNat 6 (h / 256)) = false then .word h 2
      else
        match s.fetchPiece t (pc + 2) with
        | .error e => .fail (pc + 2) e
        | .ok q => if s.halfBad q then .bad (pc + 2) q.key else .word (h + 0x10000 * s.halfAt q) 4

/-- The instruction word at an address, 0 where it cannot be fetched. -/
def State.insnAt (s : State) (t : Nat) (pc : Addr) : Nat :=
  match s.fetch t pc with
  | .word w _ => w
  | _ => 0

end Sys2Proof.Machine
end

