-- ==== Sys2Proof/Machine/Newel.lean ====
section
/-! DEFINITION. A die's Newel instance: compatibility and covering, the grant pass and wound check, lock requests at their home, and
region leases (spec/ 19 R253 to R256, R261 to R263, R266, R271; 07 R120, R121). -/

namespace Sys2Proof.Machine

/-! ### Modes (R255, R256) -/

/-- The matrix in force from LOADJOB. -/
def defaultMatrix : Word := 0x016167030B273FFF

/-- The row of a mode. -/
def modeRow (mx : Word) (m : BitVec 3) : BitVec 8 := mx.extractLsb' (8 * m.toNat) 8

/-- Whether two modes may be held together by different transactions. -/
def compat (mx : Word) (m n : BitVec 3) : Bool := (modeRow mx m).getLsbD n.toNat

/-- Whether mode `a` covers mode `b`. -/
def covers (mx : Word) (a b : BitVec 3) : Bool := modeRow mx a &&& ~~~(modeRow mx b) == 0

/-- Whether a matrix is symmetric with a first row of ones (R255). -/
def matrixOk (mx : Word) : Bool :=
  modeRow mx 0 == 0xFF
    && (List.range 8).all fun m => (List.range 8).all fun n =>
      compat mx (BitVec.ofNat 3 m) (BitVec.ofNat 3 n) == compat mx (BitVec.ofNat 3 n) (BitVec.ofNat 3 m)

/-- The modes that may pass waiters: IS and IINC (R261). -/
def passes (m : BitVec 3) : Bool := m == 1 || m == 5

/-- Whether key (t, h) is older than key (u, g) (R259). -/
def older (t h u g : Word) : Bool := t.ult u || (t == u && h.ult g)

/-- The matrix of an ASID at an instance. -/
def Newel.matrix (w : Newel) (asid : BitVec 16) : Word := (mget w.matrices asid.toNat).getD defaultMatrix

/-! ### One lock (R261 to R263) -/

/-- Whether a mode is compatible with every holder but the transaction's own. -/
def LockEntry.fits (e : LockEntry) (mx handle : Word) (m : BitVec 3) : Bool :=
  e.holders.all fun h => h.handle == handle || compat mx m h.mode

/-- The queue with a waiter in it: conversions first, each part oldest first. -/
def insWaiter (w : LockWaiter) : List LockWaiter → List LockWaiter
  | [] => [w]
  | v :: vs =>
    if (w.conv && !v.conv) || (w.conv == v.conv && older w.ts w.handle v.ts v.handle) then w :: v :: vs else v :: insWaiter w vs

/-- The lock with a transaction holding a mode. -/
def LockEntry.hold (e : LockEntry) (ts handle : Word) (m : BitVec 3) : LockEntry :=
  if e.holders.any (·.handle == handle) then
    { e with holders := updateWhere e.holders (·.handle == handle) fun h => { h with mode := m } }
  else { e with holders := e.holders ++ [{ ts := ts, handle := handle, mode := m, wounded := false }] }

/-- The grant pass over the waiters still to be tried; `left` are those left waiting. The result is the lock and the waiters
granted. -/
def grantPass (mx : Word) : List LockWaiter → List LockWaiter → LockEntry → LockEntry × List LockWaiter
  | [], left, e => ({ e with queue := left }, [])
  | w :: ws, left, e =>
    if e.fits mx w.handle w.mode && (left.isEmpty || (passes w.mode && left.all fun v => compat mx w.mode v.mode)) then
      let (e', gs) := grantPass mx ws left (e.hold w.ts w.handle w.mode)
      (e', w :: gs)
    else grantPass mx ws (left ++ [w]) e

/-- The holders a waiter wounds (R263): younger, incompatible, not yet wounded from this lock. -/
def LockEntry.wounds (e : LockEntry) (mx : Word) (w : LockWaiter) : List Holder :=
  e.holders.filter fun h =>
    h.handle != w.handle && older w.ts w.handle h.ts h.handle && !compat mx w.mode h.mode && !h.wounded

/-- The wound check of every waiter: the lock with its wounded holders marked, and the wounds, each with its waiter. -/
def woundCheck (mx : Word) : List LockWaiter → LockEntry → LockEntry × List (LockWaiter × Holder)
  | [], e => (e, [])
  | w :: ws, e =>
    let hs := e.wounds mx w
    let (e', rest) := woundCheck mx ws
      { e with holders := updateWhere e.holders (fun h => hs.any fun x => x.handle == h.handle) fun h => { h with wounded := true } }
    (e', hs.map (fun h => (w, h)) ++ rest)

/-! ### Messages -/

/-- The answer of die `d`'s instance to a lock request. Its MSEQ is the request's: R67 gives a counter of source tiles alone (DESIGN CHOICE,
log entry 79). -/
def State.lockReplyMsg (s : State) (d : Nat) (h : Header) (tag : Nat) (name handle : Word) (status : Nat) (mode : BitVec 3) : Msg :=
  replyTo h 10 0 s.pkg (Config.newelNode d) h.mseq (.lockReply (.answer tag name handle status mode))

/-- A message with the class and priority of an LKACQM's grant (R67). -/
def grantOf (cls : BitVec 8) (prio : BitVec 2) (m : Msg) : Msg := { m with hdr := { m.hdr with cls := cls, prio := prio } }

/-- A wound to the home tile of a holder (R263), with MSEQ 0 (DESIGN CHOICE, log entry 79). -/
def State.woundMsg (s : State) (d : Nat) (asid : BitVec 16) (name ts handle : Word) : Msg :=
  let n := (handle.extractLsb' 8 12).toNat
  let m := (handle.extractLsb' 20 15).toNat
  let d2 := match s.vest.parts.find? fun e => e.2.asid == asid with
    | some e => (s.partPkg e.2 m, s.partTile e.2 (s.partPkg e.2 m) n)
    | none => (m, n)
  { hdr := { kind := 10, dpkg := BitVec.ofNat 15 d2.1, dtile := BitVec.ofNat 12 d2.2, spkg := BitVec.ofNat 15 s.pkg,
             stile := BitVec.ofNat 12 (Config.newelNode d) }
    body := .lockReply (.wound name ts handle) }

/-- Status codes of R268. -/
def lkOk : Nat := 0
def lkBusy : Nat := 1
def lkHier : Nat := 2
def lkNores : Nat := 3
def lkWounded : Nat := 4
def lkNotx : Nat := 5
def lkNotheld : Nat := 6
def lkHeld : Nat := 7
def lkPending : Nat := 8
def lkCommitted : Nat := 9
def lkNotremote : Nat := 10

/-! ### Locks at their home -/

/-- The lock of a name at an instance; one without holder and waiter has no entry. -/
def Newel.lock (w : Newel) (asid : BitVec 16) (name : Word) : LockEntry :=
  (w.locks.find? fun e => e.asid == asid && e.name == name).getD { asid := asid, name := name, holders := [], queue := [] }

/-- The instance with a lock's entry replaced; an entry without holder and waiter is freed (R254). -/
def Newel.putLock (w : Newel) (e : LockEntry) : Newel :=
  let rest := w.locks.filter fun x => !(x.asid == e.asid && x.name == e.name)
  { w with locks := if e.holders.isEmpty && e.queue.isEmpty then rest else rest ++ [e] }

/-- The instance sends messages. -/
def State.newelSend (s : State) (d : Nat) (ms : List Msg) : State := s.modNewel d fun w => { w with out := w.out ++ ms }

/-- A changed lock is settled: the grant pass and the wound check, with their messages (R261, R263). -/
def State.settleLock (s : State) (d : Nat) (e : LockEntry) : State :=
  let mx := (s.getDie d).newel.matrix e.asid
  let (e1, granted) := grantPass mx e.queue [] e
  let (e2, wounds) := woundCheck mx e1.queue e1
  (s.modNewel d fun w => w.putLock e2).newelSend d
    (granted.map (fun w => grantOf w.cls w.prio (s.lockReplyMsg d w.hdr w.tag e.name w.handle lkOk w.mode))
      ++ wounds.map fun p => s.woundMsg d e.asid e.name p.1.ts p.2.handle)

/-- Whether an instance has no request entry left: one for each holder and each waiter (R254). -/
def Newel.noRequest (w : Newel) : Bool := Config.requestEntries ≤ (w.locks.map fun x => x.holders.length + x.queue.length).sum

/-- Whether an instance has no lock entry left: one for each lock and each lease (R254). -/
def Newel.noEntry (w : Newel) : Bool := Config.lockEntries ≤ w.locks.length + w.home.length

/-- Whether an instance has no room for a new request on a lock (R254). -/
def Newel.exhausted (w : Newel) (e : LockEntry) : Bool := (e.holders.isEmpty && e.queue.isEmpty && w.noEntry) || w.noRequest

/-- A new request at its home (R261). -/
def State.homeAcquire (s : State) (d : Nat) (h : Header) (r : LockReq) (try_ : Bool) (m : BitVec 3) : State :=
  let w := (s.getDie d).newel
  let e := w.lock r.asid r.name
  let mx := w.matrix r.asid
  let say := fun (s : State) (status : Nat) =>
    let m := s.lockReplyMsg d h r.tag r.name r.handle status m
    s.newelSend d [if status = lkOk then grantOf r.cls r.prio m else m]
  if w.exhausted e then say s lkNores
  else if e.fits mx r.handle m && (e.queue.isEmpty || (passes m && e.queue.all fun v => compat mx m v.mode)) then
    say (s.modNewel d fun w => w.putLock (e.hold r.ts r.handle m)) lkOk
  else if try_ then say s lkBusy
  else
    s.settleLock d
      { e with queue := insWaiter { ts := r.ts, handle := r.handle, mode := m, conv := false, tag := r.tag, hdr := h, cls := r.cls,
                                    prio := r.prio } e.queue }

/-- A conversion at its home (R262): a weakening takes effect at once; an escalation is granted at once if it fits, or queues, which takes
a request entry (R254). -/
def State.homeConvert (s : State) (d : Nat) (h : Header) (r : LockReq) (m : BitVec 3) : State :=
  let w := (s.getDie d).newel
  let e := w.lock r.asid r.name
  let mx := w.matrix r.asid
  match e.holders.find? (·.handle == r.handle) with
  | none => s.newelSend d [s.lockReplyMsg d h r.tag r.name r.handle lkNotheld m]
  | some u =>
    if covers mx u.mode m || e.fits mx r.handle m then
      (s.newelSend d [s.lockReplyMsg d h r.tag r.name r.handle lkOk m]).settleLock d (e.hold u.ts r.handle m)
    else if w.noRequest then s.newelSend d [s.lockReplyMsg d h r.tag r.name r.handle lkNores m]
    else
      s.settleLock d
        { e with queue := insWaiter { ts := u.ts, handle := r.handle, mode := m, conv := true, tag := r.tag, hdr := h, cls := 0, prio := 0 } e.queue }

/-- A release at its home (R261, R270): the holder goes, and a conversion of it still waiting is answered NOTHELD. -/
def State.homeRelease (s : State) (d : Nat) (h : Header) (r : LockReq) : State :=
  let e := (s.getDie d).newel.lock r.asid r.name
  let held := e.holders.any (·.handle == r.handle)
  let gone := e.queue.filter fun w => w.conv && w.handle == r.handle
  (s.newelSend d (gone.map (fun w => s.lockReplyMsg d w.hdr w.tag r.name r.handle lkNotheld w.mode)
      ++ [s.lockReplyMsg d h r.tag r.name r.handle (if held then lkOk else lkNotheld) 0])).settleLock d
    { e with holders := e.holders.filter (·.handle != r.handle), queue := e.queue.filter fun w => !gone.contains w }

/-- A cancellation at its home (R269): a waiting request of the transaction goes, answered NOTX; the waiters behind it are tried. Where
the home finds none, its answer says so. -/
def State.homeCancel (s : State) (d : Nat) (h : Header) (r : LockReq) : State :=
  let e := (s.getDie d).newel.lock r.asid r.name
  let gone := e.queue.filter (·.handle == r.handle)
  (s.newelSend d (gone.map (fun w => s.lockReplyMsg d w.hdr w.tag r.name r.handle lkNotx w.mode)
      ++ [s.lockReplyMsg d h r.tag r.name r.handle (if gone = [] then lkNotheld else lkOk) 0])).settleLock d
    { e with queue := e.queue.filter (·.handle != r.handle) }

/-- The end of a transaction at a home (R265, R270): it holds and waits for nothing there any more. -/
def State.homeEnd (s : State) (d : Nat) (h : Header) (r : LockReq) : State :=
  let mine := (s.getDie d).newel.locks.filter fun e =>
    e.asid == r.asid && (e.holders.any (·.handle == r.handle) || e.queue.any (·.handle == r.handle))
  (mine.foldl (fun s e =>
    let gone := e.queue.filter (·.handle == r.handle)
    (s.newelSend d (gone.map fun w => s.lockReplyMsg d w.hdr w.tag e.name r.handle lkNotx w.mode)).settleLock d
      { e with holders := e.holders.filter (·.handle != r.handle), queue := e.queue.filter (·.handle != r.handle) }) s).newelSend d
    [s.lockReplyMsg d h r.tag r.name r.handle lkOk 0]

/-! ### Region leases (R120, R121, R266) -/

/-- The die a header's source stands for: a tile's, or a Newel instance's own. -/
def sourceDie (h : Header) : Nat :=
  match newelDie h.stile.toNat with
  | some d => d
  | none => dieOfTile h.stile.toNat

/-- The region of a lease name (R120): PA[39:21]. -/
def leaseRegion (name : Word) : Nat := (name.extractLsb' 0 19).toNat

/-- Leases of other dies that a lease request conflicts with; an X lease held as S counts as S (R306). -/
def Newel.leaseConflicts (w : Newel) (region pkg die : Nat) (m : BitVec 3) : List HomeLease :=
  w.home.filter fun l => l.region == region && (l.pkg != pkg || l.die != die) && (m == 7 || l.mode == 7 && l.shut == [])

/-- The lease a die holds at its home. -/
def Newel.leaseOf (w : Newel) (region pkg die : Nat) : Option HomeLease :=
  w.home.find? fun l => l.region == region && l.pkg == pkg && l.die == die

/-- The instance with a lease granted: a die that holds X keeps it, as X has the rights of S (R266). For the groups `shut`, whose snapshot
runs, an X lease counts as S (R306). -/
def Newel.grantLease (w : Newel) (region pkg die : Nat) (m : BitVec 3) (shut : List Nat) : Newel :=
  match w.leaseOf region pkg die with
  | some l =>
    { w with grants := w.grants + 1
             home := updateWhere w.home (· == l) fun l =>
               { l with mode := if l.mode = 7 then 7 else m, shut := if l.mode = 7 ∧ m ≠ 7 then l.shut else shut, recalled := false
                        serial := w.grants + 1 } }
  | none =>
    { w with grants := w.grants + 1
             home := w.home ++ [{ region := region, pkg := pkg, die := die, mode := m, recalled := false, shut := shut, serial := w.grants + 1 }] }

/-- The groups with a page in a region whose running snapshot its memory node has cut for (R306). -/
def State.shutting (s : State) (d region : Nat) : List Nat :=
  (s.vest.groups.filter fun g =>
    g.running.isSome && (s.nodeSnap g.id (Config.memoryNode d)).cut && (s.groupRegions g.id).contains region).map (·.id)

/-- A lease request at the region's home: granted, or waiting behind earlier requests and conflicting leases, which are recalled. The answer
carries the number of the grant (log entry 6), so that a die knows which grant a recall ends. -/
def State.homeLease (s : State) (d : Nat) (f : Flit) (r : LockReq) (m : BitVec 3) : State :=
  let w := (s.getDie d).newel
  let region := leaseRegion r.name
  let pkg := f.hdr.spkg.toNat
  let die := sourceDie f.hdr
  let bad := w.leaseConflicts region pkg die m
  if (w.leaseOf region pkg die).isNone ∧ w.noEntry then
    s.newelSend d [s.lockReplyMsg d f.hdr r.tag r.name r.handle lkNores m]
  else if bad = [] ∧ w.waiting.all (fun q => q.region != region) then
    let shut := if m = 7 then s.shutting d region else []
    let s1 := (s.modNewel d fun w => w.grantLease region pkg die m shut).newelSend d
      [s.lockReplyMsg d f.hdr r.tag r.name (BitVec.ofNat 64 (w.grants + 1)) lkOk m]
    match shut, (s1.getDie d).newel.leaseOf region pkg die with
    | _ :: _, some l => s1.newelSend d [s.holdMsg d l true]
    | _, _ => s1
  else
    (s.recall d bad).modNewel d fun w =>
      { w with waiting := w.waiting ++ [{ region := region, pkg := pkg, die := die, mode := m, flit := f }] }

/-- A waiting access or lease request is tried again. -/
def State.retryLease (s : State) (d : Nat) (q : LeaseWait) : State :=
  match q.flit.body with
  | .request tag op => s.serveAtMemory d q.flit tag op
  | .lock r => s.homeLease d q.flit r q.mode
  | _ => s

/-- A lease is dropped at its home, if it is of no later grant than the release knows of (its `ts`); what waits for its region proceeds in
order (R121). -/
def State.homeLeaser (s : State) (d : Nat) (h : Header) (r : LockReq) : State :=
  let region := leaseRegion r.name
  let pkg := h.spkg.toNat
  let die := sourceDie h
  let mine := fun (l : HomeLease) => l.region == region && l.pkg == pkg && l.die == die && l.serial ≤ r.ts.toNat
  let dropped := ((s.getDie d).newel.home.find? mine).map (·.serial)
  let s1 := s.modNewel d fun w =>
    { w with home := w.home.filter fun l => !mine l, waiting := w.waiting.filter fun q => q.region != region }
  ((s.getDie d).newel.waiting.filter fun q => q.region == region).foldl (fun s q => s.retryLease d q)
    (s1.newelSend d [s.lockReplyMsg d h r.tag r.name (BitVec.ofNat 64 (dropped.getD 0)) lkOk 0])

/-- The instance with a lease on a region granted by grant `n`, unless that one has ended already; a die that holds X keeps it (R266). An
answer that tells no number, 0, is the latest. -/
def Newel.takeLease (w : Newel) (name : Nat) (m : BitVec 3) (n : Nat) : Newel :=
  if n ≠ 0 ∧ n ≤ (mget w.ended name).getD 0 then w
  else { w with got := mput w.got name (Nat.max n ((mget w.got name).getD 0))
                leases := mput w.leases name (if mget w.leases name = some 7 then 7 else m) }

/-- The instance without what the grants up to number `n` gave it on a region. -/
def Newel.endLease (w : Newel) (name n : Nat) : Newel :=
  let w' := { w with ended := mput w.ended name (Nat.max n ((mget w.ended name).getD 0)) }
  if n < (mget w.got name).getD 0 then w'
  else { w' with leases := mdel w.leases name, shares := w.shares.filter (· != name) }

/-- A recall at the holding die (R121): the lease goes and its release is sent home. -/
def State.leaseRecalled (s : State) (d : Nat) (h : Header) (region serial : Nat) : State :=
  let name := h.spkg.toNat * 2 ^ 19 + region
  (s.modNewel d fun w => w.endLease name serial).newelSend d
    [{ hdr := { kind := 5, dpkg := h.spkg, dtile := h.stile, spkg := BitVec.ofNat 15 s.pkg,
                stile := BitVec.ofNat 12 (Config.newelNode d) }
       body := .lock { tag := 0, asid := 0, name := BitVec.ofNat 64 name, ts := BitVec.ofNat 64 serial, handle := 0, op := .leaser } }]

/-- The home's word that an X lease is held as S, or no longer (R306). -/
def State.leaseShared (s : State) (d : Nat) (h : Header) (region : Nat) (shared : Bool) : State :=
  let name := h.spkg.toNat * 2 ^ 19 + region
  s.modNewel d fun w => { w with shares := if shared then ins w.shares name else w.shares.filter (· != name) }

/-- A lock request at an instance. -/
def State.homeLock (s : State) (d : Nat) (f : Flit) (r : LockReq) : State :=
  match r.op with
  | .acquire t m => s.homeAcquire d f.hdr r t m
  | .convert m => s.homeConvert d f.hdr r m
  | .release => s.homeRelease d f.hdr r
  | .cancel => s.homeCancel d f.hdr r
  | .endTx => s.homeEnd d f.hdr r
  | .matrix mx =>
    (s.modNewel d fun w => { w with matrices := mput w.matrices r.asid.toNat mx }).newelSend d
      [s.lockReplyMsg d f.hdr r.tag r.name r.handle lkOk 0]
  | .lease m => s.homeLease d f r m
  | .leaser => s.homeLeaser d f.hdr r

end Sys2Proof.Machine
end

