-- ==== Sys2Proof/Machine/Lock.lean ====
section
/-! DEFINITION. The lock client of a tile: the LOCK instructions, the answers and wounds that reach it, and revocation (spec/ 19 R252,
R257 to R260, R264 to R272). -/

namespace Sys2Proof.Machine

/-! ### Names (R252, R260) -/

/-- LEVEL of a name. -/
def lockLevel (w : Word) : Nat := (w.extractLsb' 62 2).toNat

/-- Whether a name may stand in an operand: levels 0 to 2, unused fields zero. -/
def lockNameOk (w : Word) : Bool :=
  lockLevel w ≤ 2 && (lockLevel w == 2 || w.extractLsb' 0 24 == 0) && (lockLevel w != 0 || w.extractLsb' 24 24 == 0)

/-- The parent of a name. -/
def lockParent (w : Word) : Option Word :=
  match lockLevel w with
  | 2 => some ((1 : BitVec 2) ++ w.extractLsb' 24 38 ++ (0 : BitVec 24))
  | 1 => some ((0 : BitVec 2) ++ w.extractLsb' 48 14 ++ (0 : BitVec 48))
  | _ => none

/-- Whether a parent held in mode `p` allows mode `m` below it (R260): 1 IS, 2 IX, 3 S, 4 SIX, 5 IINC, 6 INC, 7 X. -/
def parentAllows (p m : BitVec 3) : Bool :=
  match m.toNat with
  | 1 | 3 => p == 1 || p == 2
  | 2 | 4 | 7 => p == 2 || p == 4
  | 5 | 6 => p == 5 || p == 2
  | _ => false

/-- The held-lock record of a slot for a name. -/
def LockClient.record (l : LockClient) (slot : Nat) (name : Word) : Option HeldLock :=
  l.held.find? fun h => h.slot == slot && h.name == name

/-- The hierarchy check of R260. -/
def LockClient.hierOk (l : LockClient) (slot : Nat) (name : Word) (m : BitVec 3) : Bool :=
  match lockParent name with
  | none => true
  | some p => match l.record slot p with
    | some h => parentAllows h.mode m
    | none => false

/-- Whether a transaction holds or requests a child of a name (R260). -/
def LockClient.hasChild (l : LockClient) (slot : Nat) (name : Word) : Bool :=
  l.held.any fun h => h.slot == slot && lockParent h.name == some name

/-- Whether the client still undoes a cancelled request for a name (R269), or a release of it is on its way. -/
def LockClient.undoing (l : LockClient) (name : Word) : Bool := l.pend.any fun p => (p.undo || p.form == .release) && p.name == name

/-! ### Transactions (R257 to R259) -/

/-- What a handle names. -/
inductive TxRef where
  | none
  /-- a transaction whose home tile is another -/
  | foreign
  | tx (slot : Nat) (x : Tx)
deriving DecidableEq, Repr

/-- The begun transaction of tile `t` with the slot and generation of a handle. -/
def State.txAt (s : State) (t : Nat) (h : Word) : TxRef :=
  let slot := (h.extractLsb' 0 8).toNat
  match mget (s.getTile t).locks.txs slot with
  | some x => if x.begun && x.gen == h.extractLsb' 40 8 then .tx slot x else .none
  | none => .none

/-- The home tile of a handle, as package and tile, for tile `t`. -/
def State.handleTile (s : State) (t : Nat) (h : Word) : Nat × Nat :=
  let tile := (h.extractLsb' 8 12).toNat
  (s.pkgOn t (h.extractLsb' 20 15).toNat, s.tileOn t (s.pkgOn t (h.extractLsb' 20 15).toNat) tile)

/-- The transaction of the executing context (R258). -/
def State.myTx (s : State) : TxRef :=
  let h := s.cur.txh
  if h = 0 then .none
  else if s.handleTile s.tile h ≠ (s.pkg, s.tile) then .foreign
  else s.txAt s.tile h

/-- System time in nanoseconds (R331). -/
def State.sysTime (s : State) : Nat := s.time0 + s.cycle * 5 / 18

/-- The lock client of a tile changed. -/
def State.modLocks (s : State) (t : Nat) (f : LockClient → LockClient) : State :=
  s.modTile t fun x => { x with locks := f x.locks }

/-- A LOCK instruction completes with a status (R268). -/
def State.status (s : State) (d : Reg) (code : Nat) : State := s.retireG 4 d (BitVec.ofNat 64 code)

/-- The lowest free transaction slot (R254, R257). -/
def LockClient.freeSlot (l : LockClient) : Option Nat :=
  ((List.range Config.txSlots).map (· + 1)).find? fun i => match mget l.txs i with
    | some x => !x.begun
    | none => true

/-- TXBEG (R259, R270). -/
def State.txbeg (s : State) (d : Reg) (ts : Word) : State :=
  let l := s.me.locks
  match l.freeSlot with
  | none => s.retireG 4 d 0
  | some slot =>
    let gen := match mget l.txs slot with
      | some x => x.gen
      | none => 0
    let now := if s.sysTime % 2 ^ 64 = 0 then 1 else s.sysTime % 2 ^ 64
    let fresh := BitVec.ofNat 64 (Nat.max now (l.lastTs.toNat + 1))
    let key := if ts = 0 then fresh else ts
    (s.modLocks s.tile fun l =>
      { l with txs := mput l.txs slot { gen := gen, begun := true, ts := key, state := .active, since := 0 }
               lastTs := if ts = 0 then fresh else l.lastTs }).retireG 4 d (s.handleOf s.tile slot gen)

/-- Whether a request of a transaction waits. -/
def LockClient.requests (l : LockClient) (handle : Word) : List LockPend :=
  l.pend.filter fun p => p.handle == handle && !p.undo && (match p.form with
    | .acquire | .try_ | .message .. | .convert => true
    | _ => false)

/-- TXCOMMIT (R270). -/
def State.txcommit (s : State) (d : Reg) : State :=
  match s.myTx with
  | .foreign => s.trap trapIllOperand
  | .none => s.status d lkNotx
  | .tx slot x =>
    match x.state with
    | .wounded | .revoked => s.status d lkWounded
    | .committing => s.status d lkOk
    | .active =>
      if s.me.locks.requests (s.handleOf s.tile slot x.gen) ≠ [] then s.status d lkBusy
      else (s.modLocks s.tile fun l => { l with txs := mput l.txs slot { x with state := .committing } }).status d lkOk

/-! ### Sending requests -/

/-- The class and priority a lock request carries for its grant: those of LKACQM's message (R67). -/
def State.grantClass (s : State) (t : Nat) : LockForm → BitVec 8 × BitVec 2
  | .message cls _ => (cls, match s.jobOf t with
    | some j => j.prioOf cls
    | none => 0)
  | _ => (0, 0)

/-- A request of the executing tile about a name, counted for context `c`: its pending entry and its flit, which covers what the executing
context has outstanding (R273). -/
def State.sendLockFor (s : State) (c slot : Nat) (x : Tx) (name : Word) (m : BitVec 3) (form : LockForm) (home : Nat) (op : LockOp) :
    State :=
  let handle := s.handleOf s.tile slot x.gen
  let after := s.me.outTags s.ctx
  let g := s.grantClass s.tile form
  (s.modLocks s.tile fun l =>
    { l with pend := l.pend ++ [{ tag := s.me.mu.nextTag, slot := slot, ts := x.ts, handle := handle, name := name, mode := m,
                                  form := form, undo := false, home := home }] }).lockRequest s.tile c (home / 4) (home % 4) s.cur.ftag
    { tag := 0, asid := s.me.regs.asid, name := name, ts := x.ts, handle := handle, op := op, cls := g.1, prio := g.2 } after

/-- A request of the executing context. -/
def State.sendLock (s : State) (slot : Nat) (x : Tx) (name : Word) (m : BitVec 3) (form : LockForm) (home : Nat) (op : LockOp) : State :=
  s.sendLockFor s.ctx slot x name m form home op

/-- One request to each of several homes. The context has 16 requests of its own (R188); what a partition of many packages needs more
the client sends (log entry 14). -/
def State.sendLocks (s : State) (slot : Nat) (x : Tx) (form : LockForm) (op : LockOp) (homes : List Nat) : State :=
  homes.zipIdx.foldl (fun s h => s.sendLockFor (if h.2 < Config.requestRoom then s.ctx else 8) slot x 0 0 form h.1 op) s

/-- Whether the executing context has room for one request to each of `n` homes. -/
def State.roomForHomes (s : State) (n : Nat) : Bool := s.me.roomFor s.ctx (Nat.min n Config.requestRoom)

/-- The executing context waits for the answers to lock requests. -/
def State.awaitLocks (s : State) (form : LockForm) (tags : List Nat) (d : Reg) (status : Nat) : State :=
  s.modCur fun c => { c with run := .wait (.locks form tags d status) }

/-- A mode operand's traps and a name's (R252, R255, R267). -/
def lockOperandsOk (name mode : Word) : Bool := mode != 0 && mode.toNat ≤ 7 && lockNameOk name

/-- The acquire forms (R269). -/
def State.lockAcquire (s : State) (d : Reg) (name mode : Word) (form : LockForm) : State :=
  let m := mode.extractLsb' 0 3
  let l := s.me.locks
  if lockOperandsOk name mode = false then s.trap trapIllOperand
  else
    match s.myTx with
    | .foreign => s.trap trapIllOperand
    | .none => s.status d lkNotx
    | .tx slot x =>
      match x.state with
      | .wounded | .revoked => s.status d lkWounded
      | .committing => s.status d lkCommitted
      | .active =>
        if (l.record slot name).isSome then s.status d lkHeld
        else if l.undoing name then s.waitFor (.undone name)
        else if l.hierOk slot name m = false then s.status d lkHier
        else if Config.heldRecords ≤ l.held.length then s.status d lkNores
        else if s.me.roomFor s.ctx 1 = false then s.waitFor (.requests 1)
        else
          let s1 := (s.modLocks s.tile fun l =>
            { l with held := l.held ++ [{ slot := slot, name := name, mode := 0, want := m }] }).sendLock slot x name m form
              (s.lockHome s.tile name) (.acquire (form == .try_) m)
          match form with
          | .message .. => s1.status d lkPending
          | _ => s1.awaitLocks form [s.me.mu.nextTag] d lkOk

/-- LKCVT (R262, R269). -/
def State.lockConvert (s : State) (d : Reg) (name mode : Word) : State :=
  let m := mode.extractLsb' 0 3
  let l := s.me.locks
  let mx := (s.getDie (dieOfTile s.tile)).newel.matrix s.me.regs.asid
  if lockOperandsOk name mode = false then s.trap trapIllOperand
  else
    match s.myTx with
    | .foreign => s.trap trapIllOperand
    | .none => s.status d lkNotx
    | .tx slot x =>
      if x.state = .wounded ∨ x.state = .revoked then s.status d lkWounded
      else
        match l.record slot name with
        | none => s.status d lkNotheld
        | some h =>
          let weak := covers mx h.mode m
          if h.want ≠ 0 then s.status d lkHeld
          else if h.mode = m ∨ (weak || covers mx m h.mode) = false then s.trap trapIllOperand
          else if x.state = .committing ∧ weak = false then s.status d lkCommitted
          else if l.hierOk slot name m = false then s.status d lkHier
          else if l.undoing name then s.waitFor (.undone name)
          else if s.me.roomFor s.ctx 1 = false then s.waitFor (.requests 1)
          else
            ((s.modLocks s.tile fun l =>
              l.modHeld slot name fun h => some { h with mode := if weak then m else h.mode, want := m }).sendLock slot x name m
                (if weak then .weaken else .convert) (s.lockHome s.tile name) (.convert m)).awaitLocks
              (if weak then .weaken else .convert) [s.me.mu.nextTag] d lkOk

/-! ### Answers (R261, R269, R270) -/

/-- The context that waits for the answer to a lock request. -/
def Tile.lockWaiter (x : Tile) (tag : Nat) : Option Nat :=
  [0, 1, 2, 3, 4, 5, 6, 7].find? fun c => match (x.getCtx c).run with
    | .wait (.locks _ tags _ _) => tags.contains tag
    | _ => false

/-- The context waiting for a lock request resumes with a status. One that waits for several answers goes on waiting for the others;
its end is TXEND_CONFIRM's or LKMAT_COMPLETE's. One that waited for a cancellation takes the HLIMIT trap that gave up its request
(R269). -/
def State.resumeLock (s : State) (t tag status : Nat) : State :=
  match (s.getTile t).lockWaiter tag with
  | none => s
  | some c =>
    let k := s.getCtx t c
    match k.run with
    | .wait (.locks form tags d st) =>
      if form = .txend ∨ form = .matrix then
        s.setCtx t c { k with run := .wait (.locks form (tags.filter (· != tag)) d st) }
      else if form = .cancel then s.takeTrap t c trapHlimit k.pc k.insn
      else s.setCtx t c { (k.wr d (BitVec.ofNat 64 status)).seq 4 with run := .ready }
    | _ => s

/-- Whether a pending request is a conversion that has not been given up. -/
def LockPend.converts (p : LockPend) : Bool := (p.form == .convert || p.form == .weaken) && !p.undo

/-- The conversions of a lock still pending are given up: the contexts that wait in them resume with NOTHELD (R270), and the name is not
acquired again before the home has answered them. -/
def State.dropConversions (s : State) (slot : Nat) (name : Word) : State :=
  (s.me.locks.pend.filter fun p => p.slot == slot && p.name == name && p.converts).foldl
    (fun s p => (s.modTile s.tile fun x => x.giveUp p).resumeLock s.tile p.tag lkNotheld) s

/-- LKREL (R270): a pending conversion is given up, the record goes, and while the release is on its way no acquire of the name is sent. -/
def State.lockRelease (s : State) (d : Reg) (name : Word) : State :=
  let l := s.me.locks
  if lockNameOk name = false then s.trap trapIllOperand
  else
    match s.myTx with
    | .foreign => s.trap trapIllOperand
    | .none => s.status d lkNotx
    | .tx slot x =>
      if x.state = .revoked then s.status d lkWounded
      else
        match l.record slot name with
        | none => s.status d lkNotheld
        | some h =>
          if h.mode = 0 then s.status d lkNotheld
          else if l.hasChild slot name then s.status d lkHier
          else if s.me.roomFor s.ctx 1 = false then s.waitFor (.requests 1)
          else
            (((s.dropConversions slot name).modLocks s.tile fun l => l.modHeld slot name fun _ => none).sendLock slot x name
              h.mode .release (s.lockHome s.tile name) .release).awaitLocks .release [s.me.mu.nextTag] d lkOk

/-- Whether the transaction of a pending request is begun and not revoked. -/
def State.pendAlive (s : State) (t : Nat) (p : LockPend) : Bool :=
  match s.txAt t p.handle with
  | .tx _ x => x.state != .revoked
  | _ => false

/-- The held-lock record of a request changed, while its transaction is begun: a later one may have its slot (R257). -/
def State.modRecord (s : State) (t : Nat) (p : LockPend) (f : HeldLock → Option HeldLock) : State :=
  match s.txAt t p.handle with
  | .tx .. => s.modLocks t fun l => l.modHeld p.slot p.name f
  | _ => s

/-- The context that waits for lock request `tag` waits for `new` instead. -/
def State.renewLock (s : State) (t tag new : Nat) : State :=
  match (s.getTile t).lockWaiter tag with
  | some c => s.modCtx t c fun k => { k with run := match k.run with
      | .wait (.locks form tags d st) => .wait (.locks form (tags.map fun g => if g = tag then new else g) d st)
      | r => r }
  | none => s

/-- The given-up requests of a transaction that the home of `p` has not answered: all of them for TXEND and revocation, the one for its
name for a cancellation. -/
def LockClient.unanswered (l : LockClient) (p : LockPend) : Bool :=
  l.pend.any fun q => q.undo && q.handle == p.handle && q.home == p.home && (p.form == .txend || q.name == p.name)
    && (match q.form with
      | .acquire | .try_ | .message .. | .convert => true
      | _ => false)

/-- The answer to a cancellation or to the end of a transaction. Where a request it gives up has not been answered and the home has not
found it, the two crossed on the way: the client asks again (R265, R269, R270). -/
def State.undone (s : State) (t tag status : Nat) (p : LockPend) : State :=
  if (s.getTile t).locks.unanswered p && !(p.form == .cancel && status == lkOk) then
    (s.clientRequest t p p.form 0 (if p.form = .txend then .endTx else .cancel)).renewLock t tag (s.getTile t).mu.nextTag
  else s.resumeLock t tag status

/-- The message an LKACQM's completion makes (R269). -/
def State.lockMessage (s : State) (t : Nat) (p : LockPend) (status : Nat) : State :=
  match p.form with
  | .message cls ftag =>
    s.launchLater t cls (s.grantClass t p.form).2 ftag [p.name, zext64 p.mode, p.handle, BitVec.ofNat 64 status]
  | _ => s

/-- An answer completes a request of a tile's client: the records follow it, a request given up is undone, and the waiting context
or the grant handler goes on. `grant` is the number of the grant that an answer about a lease tells of. -/
def State.lockAnswer (s : State) (t tag status grant : Nat) : State :=
  match (s.getTile t).locks.pend.find? (·.tag == tag) with
  | none => s
  | some p =>
    let s1 := s.modTile t fun x =>
      { x with locks := { x.locks with pend := x.locks.pend.filter (·.tag != tag) }
               mu := { x.mu with out := x.mu.out.filter (·.tag != tag) } }
    let alive := s.pendAlive t p
    match p.form with
    | .acquire | .try_ | .message .. =>
      if status = lkOk then
        if p.undo || !alive then s1.clientRequest t p .release 0 .release
        else
          ((s1.modRecord t p fun h => some { h with mode := p.mode, want := 0 }).resumeLock t tag status).lockMessage t p status
      else if p.undo then s1
      else ((s1.modRecord t p fun _ => none).resumeLock t tag status).lockMessage t p status
    | .convert =>
      let old := match (s.getTile t).locks.record p.slot p.name with
        | some h => h.mode
        | none => 0
      if p.undo then
        if status = lkOk ∧ alive ∧ old ≠ 0 then s1.clientRequest t p .weaken old (.convert old) else s1
      else
        (s1.modRecord t p fun h => some { h with mode := if status = lkOk then p.mode else h.mode, want := 0 }).resumeLock t tag status
    | .weaken => if p.undo then s1 else (s1.modRecord t p fun h => some { h with want := 0 }).resumeLock t tag status
    | .release => if p.undo then s1 else s1.resumeLock t tag status
    | .cancel | .txend => s1.undone t tag status p
    | .matrix => s1.resumeLock t tag status
    | .leaser => (s1.modNewel (dieOfTile t) fun w => w.endLease (p.name.toNat % 2 ^ 62) grant).resumeLock t tag status
    | .lease region m =>
      (if status = lkOk then s1.modNewel (dieOfTile t) fun w => w.takeLease region m grant else s1).resumeLock t tag status

/-! ### Ending and revoking a transaction (R265, R270) -/

/-- The homes where a transaction of a tile holds or waits for a lock. -/
def State.txHomes (s : State) (t slot : Nat) : List Nat :=
  (((s.getTile t).locks.held.filter (·.slot == slot)).map fun h => s.lockHome t h.name).foldl ins []

/-- Everything a transaction holds or requests is forgotten; contexts that wait for it resume with a status. -/
def State.dropTx (s : State) (t slot : Nat) (handle : Word) (status : Nat) : State :=
  let ps := (s.getTile t).locks.requests handle
  let s1 := ps.foldl (fun s p => (s.modTile t fun x => x.giveUp p).resumeLock t p.tag status) s
  s1.modLocks t fun l => { l with held := l.held.filter (·.slot != slot) }

/-- TXEND (R270): one request to each home, and the slot is free. -/
def State.txend (s : State) (d : Reg) : State :=
  match s.myTx with
  | .foreign => s.trap trapIllOperand
  | .none => s.status d lkNotx
  | .tx slot x =>
    let homes := s.txHomes s.tile slot
    let status := if x.state = .wounded ∨ x.state = .revoked then lkWounded else lkOk
    if s.roomForHomes homes.length = false then s.waitFor (.requests (Nat.min homes.length Config.requestRoom))
    else
      let tag := s.me.mu.nextTag
      let s1 := (s.dropTx s.tile slot (s.handleOf s.tile slot x.gen) lkNotx).modLocks s.tile fun l =>
        { l with txs := mput l.txs slot { x with gen := x.gen + 1, begun := false } }
      if homes = [] then s1.status d status
      else
        (s1.sendLocks slot x .txend .endTx homes).awaitLocks .txend
          ((List.range homes.length).map (tag + ·)) d status

/-- Revocation (R265): the client releases and cancels everything the transaction has. -/
def State.revoke (s : State) (t slot : Nat) (x : Tx) : State :=
  let handle := s.handleOf t slot x.gen
  let homes := s.txHomes t slot
  let s1 := (s.dropTx t slot handle lkWounded).modLocks t fun l => { l with txs := mput l.txs slot { x with state := .revoked } }
  homes.foldl (fun s h =>
    s.clientRequest t { tag := 0, slot := slot, ts := x.ts, handle := handle, name := 0, mode := 0, form := .txend, undo := true, home := h }
      .txend 0 .endTx) s1

/-- A wound reaches the client (R264). -/
def State.lockWound (s : State) (t : Nat) (name ts handle : Word) : State :=
  match s.txAt t handle with
  | .tx slot x =>
    if x.state = .active then
      let x' := { x with state := .wounded, since := s.cycle }
      let s1 := (s.modLocks t fun l => { l with txs := mput l.txs slot x' }).launchLater t 0xFD 0 0 [name, ts, handle]
      match s.jobOf t with
      | some j => if j.grace = 0 then s1.revoke t slot x' else s1
      | none => s1
    else s
  | _ => s

/-- A kind-10 flit at a tile's client. -/
def State.lockClientFlit (s : State) (t : Nat) (r : LockRep) : State :=
  match r with
  | .answer tag _ handle status _ =>
    (s.lockAnswer t tag status handle.toNat).modTile t fun x => { x with mu := { x.mu with out := x.mu.out.filter (·.tag != tag) } }
  | .wound name ts handle => s.lockWound t name ts handle
  | .recall .. | .hold .. => s

/-! ### LKMAT, leases and LKQRY (R266, R271, R272) -/

/-- Whether the job of the executing tile has a begun transaction or a lock entry. -/
def State.lockBusy (s : State) : Bool :=
  let tiles := match s.partOf s.tile with
    | some (_, p) => p.tiles
    | none => [s.tile]
  tiles.any (fun t => (s.getTile t).locks.txs.any fun e => e.2.begun)
    || s.dies.toList.any fun d => d.newel.locks.any fun e => e.asid == s.me.regs.asid

/-- LKMAT (R271), at every instance of the partition. BUSY looks at what this package holds of the job (log entry 14). -/
def State.lkmat (s : State) (d : Reg) (mx : Word) : State :=
  if matrixOk mx = false then s.trap trapIllOperand
  else if s.lockBusy then s.status d lkBusy
  else if s.roomForHomes (s.lockHomes s.tile).length = false then
    s.waitFor (.requests (Nat.min (s.lockHomes s.tile).length Config.requestRoom))
  else
    let tag := s.me.mu.nextTag
    let none_ : Tx := { gen := 0, begun := false, ts := 0, state := .active, since := 0 }
    (s.sendLocks 0 none_ .matrix (.matrix mx) (s.lockHomes s.tile)).awaitLocks .matrix
      ((List.range (s.lockHomes s.tile).length).map (tag + ·)) d lkOk

/-- The lease name of a remote place (R120): none for a place on this package, and for scratchpad. -/
def State.leaseName (s : State) (p : Piece) : Option Nat :=
  if p.pkg = s.pkg ∨ p.node < Config.tiles then none else some (p.pkg % 2 ^ 15 * 2 ^ 19 + p.key / 0x200000)

/-- The executing die's lease on a region: 0, 3 or 7; an X lease that is held as S is S (R306). -/
def State.dieLease (s : State) (name : Nat) : BitVec 3 :=
  let w := (s.getDie (dieOfTile s.tile)).newel
  let m := (mget w.leases name).getD 0
  if m = 7 ∧ w.shares.contains name then 3 else m

/-- A request about a lease; LEASER drops it whichever grant gave it. -/
def State.sendLease (s : State) (name : Nat) (p : Piece) (form : LockForm) (op : LockOp) : State :=
  let ts : Word := if form = .leaser then BitVec.allOnes 64 else 0
  s.sendLock 0 { gen := 0, begun := false, ts := ts, state := .active, since := 0 } (BitVec.ofNat 64 (3 * 2 ^ 62 + name)) 0 form
    (4 * p.pkg + homeDie p.key) op

/-- LEASE (R266). -/
def State.lease (s : State) (d : Reg) (a : Addr) (mode : Word) : State :=
  if mode ≠ 3 ∧ mode ≠ 7 then s.trap trapIllOperand
  else
    s.orLease s.tile [(a, 1)] (s.resolve1 s.tile a 1 1 needRead) fun p =>
      match s.leaseName p with
      | none => s.status d lkNotremote
      | some name =>
        let m := mode.extractLsb' 0 3
        if m.toNat ≤ (s.dieLease name).toNat then s.status d lkOk
        else if s.me.roomFor s.ctx 1 = false then s.waitFor (.requests 1)
        else (s.sendLease name p (.lease name m) (.lease m)).awaitLocks (.lease name m) [s.me.mu.nextTag] d lkOk

/-- LEASER (R266, R270): the die's copies hold nothing to write back, as leases change only timing (R121). -/
def State.leaser (s : State) (d : Reg) (a : Addr) : State :=
  s.orLease s.tile [(a, 1)] (s.resolve1 s.tile a 1 1 needRead) fun p =>
    match s.leaseName p with
    | none => s.status d lkNotheld
    | some name =>
      if s.dieLease name = 0 then s.status d lkNotheld
      else if s.me.roomFor s.ctx 1 = false then s.waitFor (.requests 1)
      else
        ((s.modNewel (dieOfTile s.tile) fun w => { w with leases := mdel w.leases name }).sendLease name p .leaser .leaser).awaitLocks
          .leaser [s.me.mu.nextTag] d lkOk

/-- The transaction a handle of LKQRY names: the local client knows those of its own tile, and any other is free to it (R272). -/
def State.queryTx (s : State) (h : Word) : Option (Nat × Tx) :=
  if h.extractLsb' 48 16 ≠ 0 ∨ h.extractLsb' 35 5 ≠ 0 ∨ s.handleTile s.tile h ≠ (s.pkg, s.tile) then none
  else match s.txAt s.tile h with
    | .tx slot x => some (slot, x)
    | _ => none

/-- The code of a transaction state (R272). -/
def txCode : TxState → Nat
  | .active => 1 | .committing => 2 | .wounded => 3 | .revoked => 4

/-- LKQRY (R272). -/
def State.lkqry (s : State) (d : Reg) (a sel : Word) : State :=
  match sel.toNat with
  | 0 => s.retireG 4 d (match s.queryTx a with
      | some (_, x) => x.ts
      | none => 0)
  | 1 => s.retireG 4 d (match s.queryTx a with
      | some (slot, x) =>
        let l := s.me.locks
        let n := (l.held.filter fun h => h.slot == slot && h.mode != 0).length
        let r := (l.requests (s.handleOf s.tile slot x.gen)).length
        BitVec.ofNat 64 (txCode x.state + Nat.min n 255 * 256 + Nat.min r 255 * 65536)
      | none => 0)
  | 2 =>
    if lockNameOk a = false then s.trap trapIllOperand
    else
      match s.myTx with
      | .foreign => s.trap trapIllOperand
      | .none => s.retireG 4 d 0
      | .tx slot _ => s.retireG 4 d (match s.me.locks.record slot a with
          | some h => BitVec.ofNat 64 (h.mode.toNat + (if h.want = 0 then 0 else 8) + h.want.toNat * 16)
          | none => 0)
  | 3 => s.retireG 4 d ((s.getDie (dieOfTile s.tile)).newel.matrix s.me.regs.asid)
  | 4 => s.orLease s.tile [(addrOf a, 1)] (s.resolve1 s.tile (addrOf a) 1 1 needRead) fun p => s.retireG 4 d (match s.leaseName p with
      | some name => zext64 (s.dieLease name)
      | none => 0)
  | _ => s.trap trapIllOperand

/-! ### The instructions -/

/-- R270: begins a transaction. -/
def execTxbeg (d a : Reg) (s : State) : Result := .next (s.txbeg d (s.cur.rd a))

/-- R270: makes a transaction COMMITTING. -/
def execTxcommit (d : Reg) (s : State) : Result := .next (s.txcommit d)

/-- R270: ends a transaction. -/
def execTxend (d : Reg) (s : State) : Result := .next (s.txend d)

/-- R269: acquires a lock and waits. -/
def execLkacq (d a b : Reg) (s : State) : Result := .next (s.lockAcquire d (s.cur.rd a) (s.cur.rd b) .acquire)

/-- R269: acquires a lock; a message reports the grant. The class is checked at execution (R71). -/
def execLkacqm (d a b c : Reg) (s : State) : Result :=
  let cls := (s.cur.rd c).extractLsb' 0 8
  if 255 < (s.cur.rd c).toNat ∨ s.classOk s.tile cls = false then .next (s.trap trapIllOperand)
  else .next (s.lockAcquire d (s.cur.rd a) (s.cur.rd b) (.message cls s.cur.ftag))

/-- R269: acquires a lock if it can be granted at once. -/
def execLktry (d a b : Reg) (s : State) : Result := .next (s.lockAcquire d (s.cur.rd a) (s.cur.rd b) .try_)

/-- R262: converts a held lock. -/
def execLkcvt (d a b : Reg) (s : State) : Result := .next (s.lockConvert d (s.cur.rd a) (s.cur.rd b))

/-- R270: releases a lock. -/
def execLkrel (d a : Reg) (s : State) : Result := .next (s.lockRelease d (s.cur.rd a))

/-- R271: loads the job's compatibility matrix. -/
def execLkmat (d a : Reg) (s : State) : Result := .next (s.lkmat d (s.cur.rd a))

/-- R266: takes a region lease for the die. -/
def execLease (d a b : Reg) (s : State) : Result := .next (s.lease d (addrOf (s.cur.rd a)) (s.cur.rd b))

/-- R266: drops a region lease. -/
def execLeaser (d a : Reg) (s : State) : Result := .next (s.leaser d (addrOf (s.cur.rd a)))

/-- R272: queries transactions, locks, the matrix and leases. -/
def execLkqry (d a b : Reg) (s : State) : Result := .next (s.lkqry d (s.cur.rd a) (s.cur.rd b))

end Sys2Proof.Machine
end

