-- ==== Sys2Proof/Machine/Sys.lean ====
section
/-! DEFINITION. The SYS instructions: SNAP, SNAPQ, RESUMEQ, TRIG, TIME, CYCLE, XINV and INJECT (spec/ 23 R298; 25 R331; 07 R119;
21 R287). -/

namespace Sys2Proof.Machine

/-- R298: the executing tile coordinates a snapshot of its group, which captures its context as this instruction leaves it. -/
def execSnap (d : Reg) (s : State) : Result :=
  match s.jobOf s.tile with
  | none => .next (s.trap trapIllOperand)
  | some j =>
    if j.snapCap = false then .next (s.trap trapIllOperand)
    else if s.snapping j.group then .next (s.retireG 4 d 0)
    else
      let id := match s.group j.group with
        | some g => g.lastId + 1
        | none => 0
      .next ((s.retireG 4 d (BitVec.ofNat 64 id)).startSnapshot j.group s.tile none)

/-- The code of a snapshot state (R298). -/
def snapCode : SnapState → Nat
  | .running => 1 | .complete => 2 | .drained => 3 | .abandoned => 4 | .failed => 5

/-- STATE of a snapshot identifier as the Vestibule holds it (R298). -/
def Group.stateOf (g : Group) (n : Nat) : Nat :=
  match g.snaps.find? (·.sid == n), g.past.find? (·.1 == n) with
  | some q, _ => snapCode q.state
  | none, some p => snapCode p.2
  | none, none => 0

/-- The Vestibule's answer to a SNAPQ of `n` by tile `t` (R298). -/
def State.snapqValue (s : State) (t n : Nat) : Word :=
  match (s.groupOfTile t).bind s.group with
  | none => 0
  | some g =>
    let m := if n = 0 then g.lastId else n
    BitVec.ofNat 64 (m % 2 ^ 32 * 2 ^ 32 + g.stateOf m)

/-- R298: asks the Vestibule for a snapshot's state; the context waits for its answer. -/
def execSnapq (d a : Reg) (s : State) : Result :=
  let n := s.cur.rd a
  if n.extractLsb' 32 32 ≠ 0 then .next (s.trap trapIllOperand)
  else .next (s.modCur fun c => { c with run := .wait (.snapq d n.toNat) })

/-- R298: the rollback count and the identifier last restored. -/
def execResumeq (d : Reg) (s : State) : Result :=
  .next (s.retireG 4 d (match (s.groupOfTile s.tile).bind s.group with
    | some g => BitVec.ofNat 64 (g.rcount % 2 ^ 32 * 2 ^ 32 + g.rsid % 2 ^ 32)
    | none => 0))

/-- The package whose Vestibule counts the triggers of a tile's partition: its lowest. -/
def State.trigHome (s : State) (t : Nat) : Nat := (s.lockPkgs t).foldl Nat.min s.pkg

/-- R331: a trigger for the handler's launch goes to the Vestibule, covering what the context has outstanding; nothing with FTAG 0. -/
def execTrig (s : State) : Result :=
  let tag := s.cur.ftag
  if tag = 0 then .next (s.retire 4 id)
  else
    .next ((s.sendNow s.tile (s.header s.tile 4 0 0 tag 0 (s.trigHome s.tile) Config.vestibuleNode) .trig (s.me.outTags s.ctx)).retire 4 id)

/-- R331: system time in nanoseconds. -/
def execTime (d : Reg) (s : State) : Result := .next (s.retireG 4 d (BitVec.ofNat 64 s.sysTime))

/-- R331: core cycles since device reset. -/
def execCycle (d : Reg) (s : State) : Result := .next (s.retireG 4 d (BitVec.ofNat 64 s.cycle))

/-! ### XINV (R119) -/

/-- Whether XINV removes a cached translation. -/
def Tlb.invalid (e : Tlb) (asid : BitVec 16) (all : Bool) (va : Nat) : Bool :=
  e.asid == asid && (all || (e.base ≤ va && va < e.base + e.size))

/-- The state with the translations removed from every cache. -/
def State.dropTlbs (s : State) (asid : BitVec 16) (all : Bool) (va : Nat) : State :=
  { s with tiles := s.tiles.map fun e => (e.1, { e.2 with tlb := e.2.tlb.filter fun x => !x.invalid asid all va })
           dies := s.dies.map fun d => { d with dtu := d.dtu.filter fun x => !x.invalid asid all va } }

/-- The translations XINV removes. -/
def State.staleTlbs (s : State) (asid : BitVec 16) (all : Bool) (va : Nat) : List Tlb :=
  (s.tiles.flatMap fun e => e.2.tlb.filter fun x => x.invalid asid all va)
    ++ s.dies.toList.flatMap fun d => d.dtu.filter fun x => x.invalid asid all va

/-- Whether one of some virtual pages is reached through a translation that is removed. -/
def State.staleAny (s : State) (asid : BitVec 16) (all : Bool) (va : Nat) (pages : List Nat) : Bool :=
  pages.any fun p => all || (s.staleTlbs asid all va).any fun x => x.base ≤ p * 0x10000 && p * 0x10000 < x.base + x.size

/-- The accesses under way, by tile and tag, made through a translation that is removed: requests without a reply, and operations of a
tile that wait at its own memory unit. -/
def State.staleAccesses (s : State) (asid : BitVec 16) (all : Bool) (va : Nat) : List (Nat × Nat) :=
  s.tiles.flatMap fun e =>
    if e.2.regs.asid != asid then []
    else ((e.2.mu.out.filter fun o => s.staleAny asid all va o.pages).map fun o => (e.1, o.tag))
      ++ (e.2.mu.waiters.filter fun w => s.staleAny asid all va w.pages).map fun w => (e.1, w.tag)

/-- The running copy commands, by tile and number, with a row translated through a translation that is removed: what they have still to
write goes that way. -/
def State.staleCopies (s : State) (asid : BitVec 16) (all : Bool) (va : Nat) : List (Nat × Nat) :=
  s.tiles.flatMap fun e =>
    if e.2.regs.asid != asid then []
    else (e.2.copy.cmds.filter fun k => !k.dead && s.staleAny asid all va k.pages).map fun k => (e.1, k.seq)

/-- R119: the cached translations of an ASID are removed everywhere; the context waits for the accesses made through them. -/
def execXinv (a b : Reg) (s : State) : Result :=
  let w := s.cur.rd b
  if s.cur.sys = false then .next (s.trap trapPrivileged)
  else if w.extractLsb' 17 47 ≠ 0 then .next (s.trap trapIllOperand)
  else
    let asid := w.extractLsb' 0 16
    let all := w.extractLsb' 16 1 == 1
    let va := ((s.cur.rd a).extractLsb' 0 55).toNat
    .next ((s.dropTlbs asid all va).modCur fun c => { c with run := .wait (.xinv (s.staleAccesses asid all va) (s.staleCopies asid all va)) })

/-! ### INJECT (R287) -/

/-- An injection counted, and the instruction completed. -/
def State.injected (s : State) : State :=
  (s.modMe fun x =>
    { x with regs := { x.regs with errCnt := if x.regs.errCnt = 255 then 255 else x.regs.errCnt + 1 } }).retire 4 id

/-- Marks the granules of a scratchpad range, or the line of an HBM range, uncorrectable; of another package's it is that package that does
(log entry 36). -/
def State.markPiece (s : State) (p : Piece) : State :=
  if p.pkg ≠ s.pkg then s
  else if p.node < Config.tiles then (granules p.key p.len).foldl (fun s g => s.markBad (16 * g) 16) s else s.markBad (p.key / 64 * 64) 64

/-- R287: marks a granule or line uncorrectable, or arms a CRC failure. -/
def execInject (a b : Reg) (s : State) : Result :=
  let x := s.cur.rd a
  let k := s.cur.rd b
  if s.cur.sys = false then .next (s.trap trapPrivileged)
  else if s.me.regs.errEn = false ∨ 2 < k.toNat then .next (s.trap trapIllOperand)
  else if k = 0 then
    if s.isLocal s.tile x = false then .next (s.trap trapIllOperand)
    else .next (s.orTrap (s.resolve1 s.tile (addrOf x) 16 16 needRead) fun p => (s.markPiece p).injected)
  else if k = 1 then
    .next (s.orLease s.tile [(addrOf x, 64)] (s.resolve1 s.tile (addrOf x) 64 64 needRead) fun p => (s.markPiece p).injected)
  else .next (s.modMe fun t => { t with regs := { t.regs with armed := true } }).injected

end Sys2Proof.Machine
end

