-- ==== Sys2Proof/Machine/Serve.lean ====
section
/-! DEFINITION. What a node does with a flit that reaches it (spec/ 05 R68, R69, R74, R89, R99, R100; 21 R288 to R290; 23 R300, R304,
R308; 25 R331): absorbed, served, or refused. -/

namespace Sys2Proof.Machine

/-! ### Whose a flit is -/

/-- The partition of the tile a flit comes from, on this package or another. -/
def State.sourcePart (s : State) (f : Flit) : Option (Nat × Partition) :=
  if f.hdr.stile.toNat < Config.tiles then s.partAt f.hdr.spkg.toNat f.hdr.stile.toNat else none

/-- The partition of an ASID. -/
def State.partOfAsid (s : State) (asid : BitVec 16) : Option (Nat × Partition) := s.vest.parts.find? fun e => e.2.asid == asid

/-- The partition a flit at node `n` belongs to: the destination tile's, the source tile's, or that of a lock request's ASID. -/
def State.flitPart (s : State) (n : Nat) (f : Flit) : Option (Nat × Partition) :=
  if n < Config.tiles then s.partOf n
  else
    match s.sourcePart f, f.body with
    | some p, _ => some p
    | none, .lock r => s.partOfAsid r.asid
    | none, _ => none

/-- The group a node serves a flit for: a memory node that of the page. -/
def State.flitGroup (s : State) (n : Nat) (f : Flit) : Option Nat :=
  match memoryDie n, f.body with
  | some _, .request _ op => (opTouches op).1.head?.bind s.groupOfPage
  | _, _ => (s.flitPart n f).bind fun e => e.2.job.map (·.group)

/-! ### Seals (R289, R290) -/

/-- Whether a flit is an access through a shared window to something a sealed partition owns, made by another partition: it is held
at the home. -/
def State.heldBySeal (s : State) (n : Nat) (f : Flit) : Bool :=
  match f.body with
  | .request _ op =>
    let owner := if n < Config.tiles then s.partOf n
      else match (opTouches op).1.head?.bind fun k => s.vest.pages.find? fun p => p.num == k / 0x10000 with
        | some p => (s.part p.pid).map fun q => (p.pid, q)
        | none => none
    match owner with
    | some (pid, q) => q.sealed_ && !q.leaving && (match s.sourcePart f with
        | some (src, _) => src != pid
        | none => f.hdr.spkg.toNat != s.pkg)
    | none => false
  | _ => false

/-- Whether a flit is an access through the windows of a job that is being unloaded: it is performed (R35). Another partition's access to
what the job owns is one; an access of the job's own is one that was translated through a window. -/
def State.leavingAccess (s : State) (pid : Nat) (p : Partition) (f : Flit) : Bool :=
  p.leaving && (match f.body, s.sourcePart f, p.job with
    | .request tag _, some (src, _), some j =>
      src != pid || f.hdr.spkg.toNat != s.pkg || ((s.getTile f.hdr.stile.toNat).windowTags j).contains tag
    | .request .., none, _ => f.hdr.spkg.toNat != s.pkg
    | _, _, _ => false)

/-- A sealed partition's flit is absorbed and counted. -/
def State.absorb (s : State) (pid : Nat) : State := s.modPart pid fun p => { p with absorbed := p.absorbed + 1 }

/-- What an absorbed flit leaves behind: the request a reply answers is no longer outstanding, and the owner of uncorrectable data that it
tells of is sealed all the same (R285, R288). -/
def State.absorbed (s : State) (t : Nat) (f : Flit) : State :=
  match f.body with
  | .reply tag v =>
    match (s.getTile t).mu.out.find? (·.tag == tag) with
    | some o =>
      let s1 := s.modTile t fun x => { x with mu := { x.mu with out := x.mu.out.filter (·.tag != tag) } }
      match v with
      | .bad k => s1.consumeBad t k (s.orphanRecord t o.ctx o.pc o.msgid (s.dataAddr k (spotAddr k o.spots)))
      | _ => s1
    | none => match v with
      | .bad k => s.consumeBad t k []
      | _ => s
  | _ => s

/-! ### Messages of several flits (R65) -/

/-- Whether a flit belongs to a message that is arriving. -/
def partWants (p : Partly) (f : Flit) : Bool :=
  p.hdr.msgid == f.hdr.msgid && p.hdr.kind == f.hdr.kind && !p.got.contains f.fidx

/-- The arriving messages with a flit more; whether it is its message's first, and whether it makes its message whole. -/
def gather (ps : List Partly) (f : Flit) : List Partly × Bool × Bool :=
  match ps.find? (partWants · f) with
  | none => if f.hdr.nflit = 0 then (ps, true, true) else (ps ++ [{ hdr := f.hdr, got := [f.fidx] }], true, false)
  | some p =>
    if p.got.length = f.hdr.nflit.toNat then (ps.erase p, false, true)
    else (updateWhere ps (· == p) fun p => { p with got := p.got ++ [f.fidx] }, false, false)

/-- The messages arriving at a memory unit or memory node. -/
def State.partsAt (s : State) (n : Nat) : List Partly :=
  if n < Config.tiles then (s.getTile n).mu.parts
  else
    match memoryDie n with
    | some d => (s.getDie d).memory.parts
    | none => []

/-- The state with those replaced. -/
def State.setParts (s : State) (n : Nat) (ps : List Partly) : State :=
  if n < Config.tiles then s.modTile n fun x => { x with mu := { x.mu with parts := ps } }
  else
    match memoryDie n with
    | some d => s.modMemory d fun m => { m with parts := ps }
    | none => s

/-- A flit of a request or reply at its unit, which acts once the message is whole; the flag tells a message's first flit. -/
def State.whole (s : State) (n : Nat) (f : Flit) (act : State → Option State) : Option (State × Bool) :=
  let (ps, first, last) := gather (s.partsAt n) f
  if last then (act (s.setParts n ps)).map fun x => (x, first) else some (s.setParts n ps, first)

/-! ### The units of a tile -/

/-- A handler message at a frozen tile: only its spill ring takes it (R100). -/
def State.acceptFrozen (s : State) (t : Nat) (f : Flit) : Option (State × Bool) :=
  let q := (s.getTile t).regs.qdepth
  let shut := s.modTile t fun x => { x with regs := { x.regs with qdepth := 0 } }
  (shut.acceptFlit t f).map fun r => (r.1.modTile t fun x => { x with regs := { x.regs with qdepth := q } }, r.2)

/-- Counts an accepted handler message in RECV, with its first flit (R93). -/
def State.countAccepted (s : State) (t : Nat) (f : Flit) (first : Bool) : State :=
  if first then s.modTile t fun x => x.addFig f.hdr.ftag 0 1 else s

/-- A handler flit at a Landing, and whether it was a message's first. -/
def State.landFlit (s : State) (t : Nat) (f : Flit) : Option (State × Bool) :=
  (if (s.getTile t).frozen then s.acceptFrozen t f else s.acceptFlit t f).map fun r => (r.1.countAccepted t f r.2, r.2)

/-- A kind-4 increment at the counter unit (R89, R90): refused while the action queue is full, but for a golden one, which the reserved
slot takes. -/
def State.incrFlit (s : State) (t : Nat) (f : Flit) (cid amount : Word) : Option State :=
  let x := s.getTile t
  if x.cnt.hasRoom ∧ x.cnt.held = [] then
    some (s.setTile t { x.addFig f.hdr.ftag 0 1 with cnt := x.cnt.update cid.toNat amount f.hdr.ftag })
  else if f.age = 4095 ∧ x.land.reservedFree then
    some (s.setTile t { x.addFig f.hdr.ftag 0 1 with land := { x.land with reserved := some f } })
  else none

/-- The identifier a marker carries (R300). -/
def markerId (f : Flit) : Option Word :=
  match f.body with
  | .words (w :: _) => some w
  | _ => none

/-- A snapshot marker at a node (R300): a node that has not cut for the running snapshot cuts now; a marker of any other snapshot is too
late. One from another package for the group's next snapshot starts the group's part on this package (log entry 14). -/
def State.markerAt (s : State) (gid n : Nat) (f : Flit) : State :=
  match s.group gid with
  | none => s
  | some g =>
    match g.running with
    | some q => if (s.nodeSnap gid n).cut || markerId f != some (BitVec.ofNat 64 q.sid) then s else s.cut gid n q.sid
    | none =>
      if f.hdr.spkg.toNat != s.pkg && markerId f == some (BitVec.ofNat 64 (g.lastId + 1)) then s.startSnapshot gid n none else s

/-- The freeze log has this many records (R76, R100): what the Gallery leaves behind the rings. -/
def State.freezeRoom (s : State) (t : Nat) : Nat :=
  match s.jobOf t with
  | some j => j.galleryBytes / 288 - (s.getTile t).land.rings.sum
  | none => 0

/-- A flit other than a handler message or a reply, at a frozen tile: appended to the freeze log while it has room, as a record behind
the rings of the tile's Gallery (R76, R99, R100). `Migration.log` keeps beside it what the model's bodies hold more (log entry 6). The
flag tells a message's first flit. -/
def State.freezeLog (s : State) (t : Nat) (f : Flit) : Option (State × Bool) :=
  match s.vest.migs.find? (·.tile == t) with
  | none => none
  | some m =>
    if s.freezeRoom t ≤ m.log.length then none
    else
      let s1 := s.modVest fun v => { v with migs := updateWhere v.migs (·.tile == t) fun m => { m with log := m.log ++ [f] } }
      some (match s.galleryAt t ((s.getTile t).land.rings.sum + m.log.length) with
        | some k => s1.write k (flitRecord f s.cycle)
        | none => s1,
        !(m.log.any (fun g => g.hdr == f.hdr && g.fidx != f.fidx) || (s.partsAt t).any (partWants · f)))

/-- A flit at a tile, by its kind (R68); the flag tells whether it counts for its message. -/
def State.serveTile (s : State) (t : Nat) (f : Flit) : Option (State × Bool) :=
  match f.body with
  | .words _ =>
    if f.hdr.kind = 7 then some ((match s.groupOfTile t with
      | some gid => s.markerAt gid t f
      | none => s), false)
    else s.landFlit t f
  | .reply tag v => s.whole t f fun s => some (s.finishReply t tag v)
  | .request tag op => if (s.getTile t).frozen then s.freezeLog t f else s.whole t f fun s => s.serveAtTile t f tag op
  | .incr cid amount => if (s.getTile t).frozen then s.freezeLog t f else (s.incrFlit t f cid amount).map fun x => (x, true)
  | .lockReply r => if (s.getTile t).frozen then s.freezeLog t f else some (s.lockClientFlit t r, true)
  | .trig | .lock _ => some (s, true)

/-- A flit of a channel log is served at a tile as a local arrival: one that is refused is kept to be tried again (R78, R316). -/
def State.serveLogged (s : State) (t : Nat) (f : Flit) : State :=
  match s.serveTile t f with
  | some (s', _) => s'
  | none => s.modTile t fun x => { x with land := { x.land with logged := x.land.logged ++ [f] } }

/-- The refused flits of a channel log are tried again, in order. -/
def State.retryLogged (s : State) (t : Nat) : State :=
  (s.getTile t).land.logged.foldl (fun s f => s.serveLogged t f) (s.modTile t fun x => { x with land := { x.land with logged := [] } })

/-! ### Other nodes -/

/-- The Vestibule counts a TRIG for its launch (R331, R93). -/
def State.trigAt (s : State) (f : Flit) : State :=
  match s.sourcePart f with
  | none => s
  | some (pid, _) =>
    s.modJob pid fun j =>
      { j with tags := updateWhere j.tags (fun g => g.tag == f.hdr.ftag.toNat) fun g =>
          { g with trigs := Nat.min (g.trigs + 1) (2 ^ 32 - 1), recv := g.recv + 1 } }

/-- A flit at a node that is no tile; the flag tells whether it counts for its message. -/
def State.serveNode (s : State) (n : Nat) (f : Flit) : State × Bool :=
  match f.hdr.kind == 7, newelDie n, memoryDie n with
  | true, _, _ => match s.groupAt f.hdr.spkg.toNat f.hdr.stile.toNat with
    | some g => (s.markerAt g n f, true)
    | none => (s, true)
  | false, some d, _ => match f.body with
    | .lock r => (s.homeLock d f r, true)
    | .lockReply (.recall region serial) => (s.leaseRecalled d f.hdr region serial, true)
    | .lockReply (.hold region shared) => (s.leaseShared d f.hdr region shared, true)
    | _ => (s, true)
  | false, none, some d => match f.body with
    | .request tag op => (s.whole n f fun s => some (s.serveAtMemory d f tag op)).getD (s, true)
    | _ => (s, true)
  | false, none, none => match f.body with
    | .trig => (s.trigAt f, true)
    | _ => (s, true)

/-! ### Serving a flit -/

/-- A flit at node `n`: absorbed under a seal, held, or served, with the node's snapshot part before and its count after (R300, R308).
None means refused: the flit deflects. -/
def State.serveFlit (s : State) (n : Nat) (f : Flit) : Option State :=
  match s.flitPart n f with
  | some (pid, p) =>
    if s.heldBySeal n f then none
    else if p.sealed_ && !s.leavingAccess pid p f then some ((s.absorb pid).absorbed n f)
    else serveOpen
  | none => if s.heldBySeal n f then none else serveOpen
where
  /-- The flit is served. -/
  serveOpen : Option State :=
    let gid := if s.crosses f.hdr f.body then none else s.flitGroup n f
    let counts := f.hdr.kind != 7
    let s1 := match gid with
      | some g => if counts then s.onAccept g n f false else s
      | none => s
    match (if n < Config.tiles then s1.serveTile n f else if f.body == .trig && !s1.hasToken then none else some (s1.serveNode n f)) with
    | none => none
    | some (s2, first) =>
      some (match gid with
        | some g => if counts && first then s2.setNodeSnap g n ((s2.nodeSnap g n).count false f.hdr.colour) else s2
        | none => s2)

/-! ### Flit failures (R69, R288, R344) -/

/-- Whether a flit fails where it is checked. -/
def Flit.fails (f : Flit) : Bool := f.crcBad || Flit.malformed f

/-- A flit fails on a die: every partition with a tile on the die is sealed. -/
def State.flitFailure (s : State) (d : Nat) (f : Flit) : State :=
  (s.vest.parts.filter fun e => e.2.tiles.any fun t => dieOfTile t == d).foldl
    (fun s e => s.seal e.1 causeFlit d [f.hdr.h0, f.hdr.h1 f.fidx f.age]) s

end Sys2Proof.Machine
end

