-- ==== Sys2Proof/Machine/Arrive.lean ====
section
/-! DEFINITION. What a tile does of itself: retried local arrivals, Gallery reads, dispatch, HLIMIT, AGE reports, the end of waits for
outbound room, the answer to an XLATE, counter actions and held updates (spec/ 05 R74, R75, R79, R86, R90, R103, 07 R117, 13 R198). -/

namespace Sys2Proof.Machine

/-- Whether a tile acts for its job: its partition is not sealed and the tile is not frozen (R99, R289). -/
def State.tileActs (s : State) (t : Nat) : Bool := !s.sealedTile t && !(s.getTile t).frozen

/-! ### The Landing -/

/-- Whether a tile has local arrivals to try again. -/
def State.retryDue (s : State) (t : Nat) : Bool :=
  s.tileActs t && (!(s.getTile t).land.again.isEmpty || !(s.getTile t).land.logged.isEmpty)

/-- R74: refused local arrivals are tried again. -/
def execLocalArrivalRetry (t : Nat) (s : State) : Result := .next (if s.retryDue t then (s.retryArrivals t).retryLogged t else s)

/-- The oldest refilled record whose bytes have not been read. -/
def Landing.unreadHead (l : Landing) : Option Entry := l.slots.find? (·.unread)

/-- R75: a refilled record's bytes are there, and the message becomes eligible; uncorrectable bytes lead to containment (R285). -/
def execGalleryRecordRead (t : Nat) (s : State) : Result :=
  match (s.getTile t).land.unreadHead with
  | none => .next s
  | some e =>
    match (s.recordAt t e.prio e.recNo).bind fun k => s.badIn k 288 with
    | some b => .next (s.consumeBad t b [])
    | none => .next (s.modEntry t e.key fun x => { x with unread := false })

/-- R79: at most one message is dispatched. -/
def execDispatch (t : Nat) (s : State) : Result := .next (s.dispatch t)

/-! ### HLIMIT (R86) -/

/-- Whether HLIMIT is raised at a context now: never while it waits for outbound room or for a re-arrival, and once only where it awaits
the cancellation of a lock request. -/
def State.hlimitDue (s : State) (t c : Nat) : Bool :=
  let k := s.getCtx t c
  s.tileActs t && k.hlimit != 0 && k.born + k.hlimit ≤ s.cycle &&
    (match k.run with
      | .ready => true
      | .wait (.room ..) | .wait .rearrive | .wait (.locks .cancel ..) | .idle => false
      | .wait _ => true)

/-- The LKACQ or escalating LKCVT that a context waits for (R269). -/
def State.lockWait (s : State) (t c : Nat) : Option LockPend :=
  match (s.getCtx t c).run with
  | .wait (.locks _ tags _ _) =>
    (s.getTile t).locks.pend.find? fun p => tags.contains p.tag && (p.form == .acquire || p.form == .convert)
  | _ => none

/-- HLIMIT at a context. A lock request it waits for is cancelled at its home before the trap is reported (R269): the context waits for
the home's word. -/
def State.hlimit (s : State) (t c : Nat) : State :=
  let k := s.getCtx t c
  match s.lockWait t c with
  | some p =>
    let tag := (s.getTile t).mu.nextTag
    let s1 := s.cancelPend t p
    if (s1.getTile t).mu.nextTag = tag then s1.takeTrap t c trapHlimit k.pc k.insn
    else s1.modCtx t c fun k => { k with run := match k.run with
      | .wait (.locks _ _ d st) => .wait (.locks .cancel [tag] d st)
      | r => r }
  | none => s.takeTrap t c trapHlimit k.pc (if k.run = .ready then s.insnAt t k.pc else k.insn)

/-- R86: HLIMIT at the instruction due next, or at the wait that is given up. -/
def execHlimitExpiry (t c : Nat) (s : State) : Result := .next (if s.hlimitDue t c then s.hlimit t c else s)

/-! ### AGE (R103, R281) -/

/-- The head of queue p that is due for an AGE report. A record in the Gallery is no head, even while running handlers hold every slot of p (DESIGN
CHOICE, log entry 69). -/
def State.ageDue (s : State) (t p : Nat) : Option Entry :=
  let x := s.getTile t
  match x.land.head p with
  | some e =>
    if s.tileActs t ∧ x.regs.agelim ≠ 0 ∧ e.aged = false ∧ e.accept + x.regs.agelim.toNat + 1 ≤ s.cycle then some e else none
  | none => none

/-- R103: an advisory report names the blocked head; each acceptance reports once. -/
def execAgeReport (t p : Nat) (s : State) : Result :=
  match s.ageDue t p with
  | none => .next s
  | some e =>
    .next ((s.modEntry t e.key fun x => { x with aged := true }).report t e.hdr.ftag
      [reportWord0 0 0 0 false false true false 0x0C, 0, 0, (s.jobHeader t e.hdr).msgid, s.tileId t, (s.jobHeader t e.hdr).h0, 0, BitVec.ofNat 64 s.cycle] [])

/-! ### Memory nodes of a group (R296) -/

/-- The dies that home a backed page of a group. -/
def State.groupDies (s : State) (gid : Nat) : List Nat :=
  ((s.vest.pages.filter fun p => p.va.isSome && (s.groupParts gid).any fun e => e.1 == p.pid).map fun p =>
    homeDie (p.num * 0x10000)).foldl ins []

/-- A die that homes a page of a group for the first time joins its memory nodes in the group's colour, and cuts at once for a running
snapshot. -/
def State.joinDies (s : State) (gid : Nat) : State :=
  match s.group gid with
  | none => s
  | some g =>
    let news := (s.groupDies gid).filter fun d => !g.dies.contains d
    let s1 := s.modGroup gid fun g => { g with dies := news.foldl ins g.dies }
    let colour := match g.running with
      | some q => ~~~q.colour
      | none => g.colour
    let s2 := news.foldl (fun s d => s.setNodeSnap gid (Config.memoryNode d) { NodeSnap.reset with colour := colour }) s1
    match g.running with
    | some q => if q.start.isSome then s2 else news.foldl (fun s d => s.cut gid (Config.memoryNode d) q.sid) s2
    | none => s2

/-- The memory nodes of a tile's group brought up to date. -/
def State.joinDiesOf (s : State) (t : Nat) : State :=
  match s.groupOfTile t with
  | some g => s.joinDies g
  | none => s

/-! ### XLATE (R117) -/

/-- Puts a declined XLATE's trap to its message: reported, counted, and at the fourth time consumed (R277); a TRAPRPT handler's message is
consumed without a report, and a system handler's record goes to the Vestibule (R280). -/
def State.declined (s : State) (x : XlateReq) (key : Nat) : State :=
  match (s.getTile x.tile).entry key with
  | none => s
  | some e =>
    if e.hdr.cls = 0xFE then
      match s.partOf x.tile with
      | some (pid, _) => (s.freeSlot x.tile key).modJob pid fun j => { j with lost := j.lost + 1 }
      | none => s.freeSlot x.tile key
    else
      let s1 := if 4 ≤ e.traps + 1 then s.freeSlot x.tile key
                else s.modEntry x.tile key fun e => { e with traps := e.traps + 1, hold := false }
      match x.report with
      | none => s1
      | some (_, record) =>
        if (record.headD 0).extractLsb' 10 1 = 1 then s1.modVest fun v => { v with sysTraps := v.sysTraps ++ [record] }
        else s1.report x.tile x.ftag record x.after

/-- The XLATE the Vestibule handles next: the oldest of a tile that is not sealed. -/
def State.nextXlate (s : State) : Option XlateReq := s.vest.xlates.find? fun x => !s.sealedTile x.tile

/-- R117: the Vestibule backs the page or declines; the held message runs again or traps, and an engine command goes on or fails. -/
def execXlateResolution (s : State) : Result :=
  match s.nextXlate with
  | none => .next s
  | some x =>
    let s0 := s.modVest fun v => { v with xlates := v.xlates.erase x }
    let backed := s0.backFault x.tile x.va.toNat
    let s1 := (backed.getD s0).joinDiesOf x.tile
    match x.engine, x.key with
    | some (matrix, n), _ =>
      .next (s1.modTile x.tile fun y => y.modCmd matrix n fun c => { c with xlate := false, denied := backed.isNone })
    | none, some key =>
      if backed.isSome then .next (s1.modEntry x.tile key fun e => { e with hold := false }) else .next (s1.declined x key)
    | none, none => .next s1

/-! ### Outbound room (R198) -/

/-- Whether a context waits for room and its last message is now within the queue. -/
def State.roomEnded (s : State) (t c : Nat) : Option Ending :=
  match (s.getCtx t c).run with
  | .wait (.room e last) => if s.tileActs t ∧ (s.getTile t).beyondRoom last = false then some e else none
  | _ => none

/-- R198: the messages are in the queue; the COMMIT completes, or the handler ends. -/
def execCommitRoomWaitEnd (t c : Nat) (s : State) : Result :=
  match s.roomEnded t c with
  | some e => .next (s.finishCommit t c e)
  | none => .next s

/-! ### Counter actions (R90) -/

/-- The action to be carried out next at a tile, if it is of a kind and its engine has room. -/
def State.actionDue (s : State) (t kind : Nat) : Option Action :=
  let x := s.getTile t
  match x.cnt.actions with
  | a :: _ =>
    if s.tileActs t ∧ (s.jobOf t).isSome ∧ actionKind a.word = kind ∧ (kind ≠ 2 ∨ x.matrix.hasRoom true) ∧ (kind ≠ 3 ∨ x.copy.hasRoom false)
    then some a else none
  | [] => none

/-- The state without the action at the head of a tile's queue. -/
def State.popAction (s : State) (t : Nat) : State := s.modTile t fun x => { x with cnt := { x.cnt with actions := x.cnt.actions.drop 1 } }

/-- PRIO of a class at a tile. -/
def State.prioAt (s : State) (t : Nat) (cls : BitVec 8) : BitVec 2 :=
  match s.jobOf t with
  | some j => j.prioOf cls
  | none => 0

/-- Carries out the next action if it is of the kind. A launch leaves the queue as it arrives locally, although its arrival may be
refused: it then waits among the local arrivals and no longer counts among the 16 (DESIGN CHOICE, log entry 68). -/
def State.carryOut (s : State) (t kind : Nat) (f : Action → State → State) : State :=
  match s.actionDue t kind with
  | some a => f a (s.popAction t)
  | none => s

/-- Counter id and value, the payload of kinds 1 and 4 (R82, R90). -/
def Action.payload (a : Action) : List Word := [BitVec.ofNat 64 a.cid, a.value]

/-- R90 kind 1, R82: a handler is launched on the tile. -/
def execCounterActionLaunch (t : Nat) (s : State) : Result :=
  .next (s.carryOut t 1 fun a s => s.launchLocal t (actionClass a.word) (s.prioAt t (actionClass a.word)) a.ftag a.payload)

/-- R90 kind 2: the matrix record at OFFSET is posted. -/
def execCounterActionMpost (t : Nat) (s : State) : Result := .next (s.carryOut t 2 fun a s => s.postCounter t true a)

/-- R90 kind 3: the copy record at OFFSET is posted. -/
def execCounterActionCpost (t : Nat) (s : State) : Result := .next (s.carryOut t 3 fun a s => s.postCounter t false a)

/-- A kind-4 action: a message of the class to TADDR, at once; one to the tile itself arrives locally. -/
def State.actionSend (s : State) (t : Nat) (a : Action) : State :=
  let d := (actionTaddr a.word).setWidth 64
  let prio := s.prioAt t (actionClass a.word)
  match s.destOf t d with
  | .error _ => s
  | .ok (pkg, node) =>
    if pkg = s.pkg ∧ node = t then s.launchLocal t (actionClass a.word) prio a.ftag a.payload
    else s.sendNow t (s.header t 0 (actionClass a.word) prio a.ftag 0 pkg node) (.words (a.payload ++ List.replicate 6 0)) []

/-- R90 kind 4: a message is sent. -/
def execCounterActionSend (t : Nat) (s : State) : Result := .next (s.carryOut t 4 fun a s => s.actionSend t a)

/-- R90 kind 5: FULL of the granule at OFFSET is set, and its waiters are served. -/
def execCounterActionSetfull (t : Nat) (s : State) : Result :=
  .next (s.carryOut t 5 fun a s => (s.setFull (granule (poolBase t + actionOffset a.word))).wake t)

/-- An increment held in the reserved slot is applied once the action queue has room. -/
def State.applyReserved (s : State) (t : Nat) : State :=
  let x := s.getTile t
  match x.land.reserved with
  | some f =>
    match f.body with
    | .incr cid amount =>
      if x.cnt.hasRoom ∧ x.cnt.held = [] then
        s.setTile t { x with land := { x.land with reserved := none }, cnt := x.cnt.update cid.toNat amount f.hdr.ftag }
      else s
    | _ => s
  | none => s

/-- Whether a tile holds an update it can now apply. -/
def State.heldDue (s : State) (t : Nat) : Bool :=
  let x := s.getTile t
  s.tileActs t && x.cnt.hasRoom && (!x.cnt.held.isEmpty || x.cnt.adds.any x.addDue || (match x.land.reserved with
    | some f => match f.body with
      | .incr .. => true
      | _ => false
    | none => false))

/-- R90: held updates are applied in order while the action queue has room, and the completions that waited behind one have their effects
(R239); so are additions whose releases cover nothing outstanding any more (R188). -/
def execHeldUpdateApply (t : Nat) (s : State) : Result :=
  if s.heldDue t then
    let s1 := s.modTile t fun x => x.applyHeld x.cnt.held
    .next (((s1.runEnded t (s1.getTile t).matrix.ended.length).applyReserved t).modTile t fun x => x.applyAdds x.cnt.adds)
  else .next s

end Sys2Proof.Machine
end

