-- ==== Sys2Proof/Machine/Branch.lean ====
section
/-! DEFINITION. Branches, jumps and hardware loops (spec/ 11 R170 to R176). -/

namespace Sys2Proof.Machine

/-- A taken branch or jump (R170, R175). -/
def State.jumpTo (s : State) (target : Addr) (f : Ctx → Ctx) : State := s.modCur fun c => { (f c).goto target with run := .ready }

/-- A conditional branch of `len` bytes: taken, or completing sequentially (R170, R174). -/
def State.branchIf (s : State) (len : Nat) (taken : Bool) (target : Addr) : State :=
  if taken then s.jumpTo target id else s.retire len id

/-- The target of a relative branch (R170). -/
def relTarget {n : Nat} (pc : Addr) (off : BitVec n) : Addr := pc + 2 * off.signExtend 56

/-- JR and JLR (R170): ALIGN at an odd target, with no effect. -/
def State.jumpReg (s : State) (t : Word) (f : Ctx → Ctx) : State :=
  if t.extractLsb' 0 1 = 1 then s.trap (trapAlign (addrOf t)) else s.jumpTo (addrOf t) f

/-- A floating compare of two registers at precision P (R171): the outcome and the flags. -/
def fcondHolds (c : FCond) (p : Prec) (x y : Word) : Bool × Flags :=
  let f := fmtOfPrec p
  let a := x.toNat % 2 ^ f.width
  let b := y.toNat % 2 ^ f.width
  match c with
  | .eq => fcompare f true (· == .eq) a b
  | .ne => fcompare f true (· != .eq) a b
  | .lt => fcompare f false (· == .lt) a b
  | .le => fcompare f false (· != .gt) a b
  | .un => funord f a b
  | .ord => (!(funord f a b).1, (funord f a b).2)

/-- A floating conditional branch (R171): its flags are ORed into FPF whether or not it is taken. -/
def State.fbranch (s : State) (c : FCond) (p : Prec) (x y : Reg) (off : BitVec 12) : State :=
  let (taken, fl) := fcondHolds c p (s.cur.rd x) (s.cur.rd y)
  (s.modCur fun k => k.orFlags fl).branchIf 4 taken (relTarget s.cur.pc off)

/-- R170: an unconditional branch. -/
def execB (off : BitVec 24) (s : State) : Result :=
  .next (s.jumpTo (relTarget s.cur.pc off) id)

/-- R170: a branch that writes PC + 4 to g15. -/
def execBl (off : BitVec 24) (s : State) : Result :=
  .next (s.jumpTo (relTarget s.cur.pc off) fun c => c.wr 15 (zext64 (c.pc + 4)))

/-- R170: branch on condition EQ. -/
def execBcEq (x y : Reg) (off : BitVec 12) (s : State) : Result :=
  .next (s.branchIf 4 (condHolds .eq (s.cur.rd x) (s.cur.rd y)) (relTarget s.cur.pc off))

/-- R170: branch on condition NE. -/
def execBcNe (x y : Reg) (off : BitVec 12) (s : State) : Result :=
  .next (s.branchIf 4 (condHolds .ne (s.cur.rd x) (s.cur.rd y)) (relTarget s.cur.pc off))

/-- R170: branch on condition LT. -/
def execBcLt (x y : Reg) (off : BitVec 12) (s : State) : Result :=
  .next (s.branchIf 4 (condHolds .lt (s.cur.rd x) (s.cur.rd y)) (relTarget s.cur.pc off))

/-- R170: branch on condition GE. -/
def execBcGe (x y : Reg) (off : BitVec 12) (s : State) : Result :=
  .next (s.branchIf 4 (condHolds .ge (s.cur.rd x) (s.cur.rd y)) (relTarget s.cur.pc off))

/-- R170: branch on condition LTN. -/
def execBcLtn (x y : Reg) (off : BitVec 12) (s : State) : Result :=
  .next (s.branchIf 4 (condHolds .ltn (s.cur.rd x) (s.cur.rd y)) (relTarget s.cur.pc off))

/-- R170: branch on condition GEN. -/
def execBcGen (x y : Reg) (off : BitVec 12) (s : State) : Result :=
  .next (s.branchIf 4 (condHolds .gen (s.cur.rd x) (s.cur.rd y)) (relTarget s.cur.pc off))

/-- R170: branch on condition ANY. -/
def execBcAny (x y : Reg) (off : BitVec 12) (s : State) : Result :=
  .next (s.branchIf 4 (condHolds .any (s.cur.rd x) (s.cur.rd y)) (relTarget s.cur.pc off))

/-- R170: branch on condition NONE. -/
def execBcNone (x y : Reg) (off : BitVec 12) (s : State) : Result :=
  .next (s.branchIf 4 (condHolds .none (s.cur.rd x) (s.cur.rd y)) (relTarget s.cur.pc off))

/-- R171: floating branch on condition EQ. -/
def execFbcEq (p : Prec) (x y : Reg) (off : BitVec 12) (s : State) : Result :=
  .next (s.fbranch .eq p x y off)

/-- R171: floating branch on condition NE. -/
def execFbcNe (p : Prec) (x y : Reg) (off : BitVec 12) (s : State) : Result :=
  .next (s.fbranch .ne p x y off)

/-- R171: floating branch on condition LT. -/
def execFbcLt (p : Prec) (x y : Reg) (off : BitVec 12) (s : State) : Result :=
  .next (s.fbranch .lt p x y off)

/-- R171: floating branch on condition LE. -/
def execFbcLe (p : Prec) (x y : Reg) (off : BitVec 12) (s : State) : Result :=
  .next (s.fbranch .le p x y off)

/-- R171: floating branch on condition UN. -/
def execFbcUn (p : Prec) (x y : Reg) (off : BitVec 12) (s : State) : Result :=
  .next (s.fbranch .un p x y off)

/-- R171: floating branch on condition ORD. -/
def execFbcOrd (p : Prec) (x y : Reg) (off : BitVec 12) (s : State) : Result :=
  .next (s.fbranch .ord p x y off)

/-- R170: a jump to gA. -/
def execJr (a : Reg) (s : State) : Result :=
  .next (s.jumpReg (s.cur.rd a) id)

/-- R170: a jump to gA that writes PC + 4 to gD. -/
def execJlr (d a : Reg) (s : State) : Result :=
  .next (s.jumpReg (s.cur.rd a) fun c => c.wr d (zext64 (c.pc + 4)))

/-- LOOP (R173, R174): the level's loop registers; a zero count skips the body and completes at its end. -/
def State.enterLoop (s : State) (m : Word) (len : Nat) (level1 : Bool) : State :=
  if 2 ^ 32 ≤ m.toNat then s.trap trapIllOperand
  else
    let lb := s.cur.pc + 4
    let le := s.cur.pc + 4 + BitVec.ofNat 56 (2 * len)
    let l : Loop := { act := m != 0, count := m.extractLsb' 0 32, lb := lb, le := le }
    let set := fun (c : Ctx) =>
      if level1 then { c with loop1 := l, newer1 := if m = 0 then c.newer1 else true }
      else { c with loop0 := l, newer1 := if m = 0 then c.newer1 else false }
    s.modCur fun c => { (set c).seqTo (if m = 0 then le else lb) with run := .ready }

/-- R173: loop level 0. -/
def execLoop0 (c : Reg) (len : BitVec 16) (s : State) : Result :=
  .next (s.enterLoop (s.cur.rd c) len.toNat false)

/-- R173: loop level 1. -/
def execLoop1 (c : Reg) (len : BitVec 16) (s : State) : Result :=
  .next (s.enterLoop (s.cur.rd c) len.toNat true)

end Sys2Proof.Machine
end

