-- ==== Sys2Proof/Machine/Cnt.lean ====
section
/-! DEFINITION. Counter instructions (spec/ 05 R87 to R90, 13 R201). -/

namespace Sys2Proof.Machine

/-- The executing tile's counter unit changed, with the instruction completed. -/
def State.modCounter (s : State) (f : CounterUnit → CounterUnit) : State := s.modMe fun x => { x with cnt := f x.cnt }

/-- Bytes an action of a kind uses at its OFFSET (R88): none for kinds 0, 1 and 4. -/
def actionSpan (k : Nat) : Nat :=
  match k with
  | 2 | 3 => 64
  | 5 => 16
  | _ => 0

/-- The checks of CARM on its action and target (R88), but for the destination of kind 4. -/
def State.actionOk (s : State) (a target : Word) : Bool :=
  let k := actionKind a
  let o := actionOffset a
  let n := actionSpan k
  k ≤ 5 && a.extractLsb' 5 3 == 0 && (n == 0 || o % n == 0 && o + n ≤ s.scratch s.tile)
    && (k != 1 && k != 4 || s.classOk s.tile (actionClass a)) && !(actionAuto a && target == 0)

/-- CARM (R88, R89, R201): a CARM that would fire waits while the action queue is full. A firing it makes at once has the frame tag of the
handler that executes it (DESIGN CHOICE, log entry 70). -/
def State.carm (s : State) (id target action : Word) : State :=
  s.orTrap (counterOf id) fun cid =>
    if s.actionOk action target = false then s.trap trapIllOperand
    else
      s.orTrap (if actionKind action = 4 then (s.destOf s.tile ((actionTaddr action).setWidth 64)).map (fun _ => ()) else .ok ()) fun _ =>
        let k := s.me.cnt.get cid
        if s.me.cnt.addHeld s.ctx cid then s.waitFor (.added cid)
        else if k.value = target ∧ s.me.cnt.hasRoom = false then s.waitFor .actions
        else
          (s.modCounter fun u =>
            (u.put cid { k with target := target, action := action, armed := true }).fire cid s.cur.ftag).retire 4 (fun c => c)

/-- R201: arms a counter. -/
def execCarm (a b c : Reg) (s : State) : Result :=
  .next (s.carm (s.cur.rd a) (s.cur.rd b) (s.cur.rd c))

/-- CADD (R89, R201): it waits while the action queue is full. The addition is a release (R205): where the context has accesses
outstanding, it is made behind them, and only a CADD that returns VALUE waits for them (log entry 56). -/
def State.cadd (s : State) (d : Reg) (id amount : Word) : State :=
  s.orTrap (counterOf id) fun cid =>
    if s.me.cnt.addHeld s.ctx cid then s.waitFor (.added cid)
    else if s.me.cnt.hasRoom = false then s.waitFor .actions
    else if s.me.outTags s.ctx ≠ [] then
      if d = 0 then
        (s.modCounter fun u =>
          { u with adds := u.adds ++ [{ cid := cid, amount := amount, ftag := s.cur.ftag, ctx := s.ctx,
                                        after := s.me.outTags s.ctx }] }).retire 4 (fun c => c)
      else s.waitFor .drained
    else (s.modCounter fun u => u.update cid amount s.cur.ftag).retireG 4 d ((s.me.cnt.get cid).value + amount)

/-- R201: adds to a counter and returns VALUE after the addition. -/
def execCadd (d a b : Reg) (s : State) : Result :=
  .next (s.cadd d (s.cur.rd a) (s.cur.rd b))

/-- R201: reads VALUE. -/
def execCrd (d a : Reg) (s : State) : Result :=
  .next (s.orTrap (counterOf (s.cur.rd a)) fun cid =>
    if s.me.cnt.addHeld s.ctx cid then s.waitFor (.added cid) else s.retireG 4 d (s.me.cnt.get cid).value)

/-- R201: disarms a counter; VALUE is left. -/
def execCdis (a : Reg) (s : State) : Result :=
  .next (s.orTrap (counterOf (s.cur.rd a)) fun cid =>
    if s.me.cnt.addHeld s.ctx cid then s.waitFor (.added cid)
    else (s.modCounter fun u => u.put cid { u.get cid with armed := false }).retire 4 id)

/-- CINC (R201): a kind-4 message, injected at once, covering what the context has outstanding. -/
def State.cinc (s : State) (dst id amount : Word) : State :=
  if dst.extractLsb' 27 37 ≠ 0 then s.trap trapIllOperand
  else
    s.orTrap (counterOf id) fun _ =>
      s.orTrap (s.destOf s.tile dst) fun d =>
        (s.sendNow s.tile (s.header s.tile 4 0 0 s.cur.ftag 0 d.1 d.2) (.incr id amount) (s.me.outTags s.ctx)).retire 4 (fun c => c)

/-- R201: sends a counter increment. -/
def execCinc (a b c : Reg) (s : State) : Result :=
  .next (s.cinc (s.cur.rd a) (s.cur.rd b) (s.cur.rd c))

end Sys2Proof.Machine
end

