-- ==== Sys2Proof/Machine/Govern.lean ====
section
/-! DEFINITION. Power leave and its limits, the ends of waits of lock requests and of XINV, and the grace of a wounded transaction
(spec/ 27 R353, 17 R250, 19 R265, R270, R271, 07 R119). -/

namespace Sys2Proof.Machine

/-! ### Power leave (R250, R353) -/

/-- The leave given to a list of commands, in milliwatts. -/
def leaveSum (l : List LeaveReq) : Nat := (l.map (·.mw)).sum

/-- A partition's power share on a die, in 256ths (R27). -/
def State.shareOf (s : State) (pid d : Nat) : Nat :=
  match s.part pid with
  | some p => p.shares.getD d 0
  | none => 0

/-- The request a die's governor grants now (R353): the head of its strict FIFO, while the die and the head's partition have budget and neither
the die's power and temperature nor the package's power is over its limit. -/
def State.leaveHead (s : State) (d : Nat) : Option LeaveReq :=
  let g := (s.getDie d).gov
  match g.fifo with
  | [] => none
  | h :: _ =>
    let mine := leaveSum (g.held.filter fun q => q.pid == h.pid)
    if leaveSum g.held + h.mw ≤ g.budget ∧ (256 * (mine + h.mw) ≤ g.budget * s.shareOf h.pid d ∨ mine = 0)
        ∧ g.power ≤ g.budget ∧ g.above = false ∧ g.hot = false then some h
    else none

/-- The command with its leave granted: the cycles it waited are kept for its status word (R248). -/
def Cmd.grant (k : Cmd) (now : Nat) : Cmd :=
  match k.leave with
  | .queued since => { k with leave := .granted, waited := now - since }
  | _ => { k with leave := .granted }

/-- R353: the governor grants leave to the head of its FIFO. -/
def execLeaveGrant (die : Nat) (s : State) : Result :=
  match s.leaveHead die with
  | none => .next s
  | some h =>
    .next ((s.modDie die fun d => { d with gov := { d.gov with fifo := d.gov.fifo.erase h, held := d.gov.held ++ [h] } }).modTile h.tile
      fun x => x.modCmd h.matrix h.seq fun k => k.grant s.cycle)

/-- Whether the package is held to be over its power limit after a measurement: over it, and until it falls back below it. -/
def overLimit (was : Bool) (pkgMw : Nat) : Bool := decide (Config.packageLimitMw < pkgMw) || (was && decide (Config.packageLimitMw ≤ pkgMw))

/-- R353: the measured power of a die and of the package; a package over its limit stops all four governors. -/
def execGovernorPowerCheck (die dieMw pkgMw : Nat) (s : State) : Result :=
  let s1 := s.modDie die fun d => { d with gov := { d.gov with power := dieMw } }
  .next { s1 with dies := s1.dies.map fun d => { d with gov := { d.gov with above := overLimit d.gov.above pkgMw } } }

/-- R353: a die over its thermal limit stops granting. -/
def execThermalLimit (die : Nat) (s : State) : Result := .next (s.modDie die fun d => { d with gov := { d.gov with hot := true } })

/-- R353: the die has fallen below its thermal limit. -/
def execThermalLimitCleared (die : Nat) (s : State) : Result := .next (s.modDie die fun d => { d with gov := { d.gov with hot := false } })

/-! ### Locks -/

/-- Whether a transaction slot's grace has passed (R265). -/
def State.graceOver (s : State) (t slot : Nat) : Option Tx :=
  match mget (s.getTile t).locks.txs slot, s.jobOf t with
  | some x, some j =>
    if s.tileActs t ∧ x.begun ∧ x.state = .wounded ∧ x.since + j.grace ≤ s.cycle then some x else none
  | _, _ => none

/-- R265: the client revokes a transaction whose grace is over. -/
def execWoundgraceExpiry (t slot : Nat) (s : State) : Result :=
  match s.graceOver t slot with
  | some x => .next (s.revoke t slot x)
  | none => .next s

/-- Whether a context waits for lock answers of a form and has them all: its destination and status. -/
def State.locksDone (s : State) (t c : Nat) (form : LockForm) : Option (Reg × Nat) :=
  match (s.getCtx t c).run with
  | .wait (.locks f [] d st) => if f = form ∧ s.tileActs t then some (d, st) else none
  | _ => none

/-- A context whose lock instruction is complete goes on with its status. -/
def State.lockEnd (s : State) (t c : Nat) (form : LockForm) : State :=
  match s.locksDone t c form with
  | some (d, st) => s.modCtx t c fun k => { (k.wr d (BitVec.ofNat 64 st)).seq 4 with run := .ready }
  | none => s

/-- R270: every home has confirmed a TXEND. -/
def execTxendConfirm (t c : Nat) (s : State) : Result := .next (s.lockEnd t c .txend)

/-- R271: every instance holds the new matrix. -/
def execLkmatComplete (t c : Nat) (s : State) : Result := .next (s.lockEnd t c .matrix)

/-! ### XINV (R119) -/

/-- Whether an access of a tile is performed: its request is answered, and it waits no more at the tile's own memory unit. -/
def State.accessDone (s : State) (t tag : Nat) : Bool :=
  (s.getTile t).mu.out.all (fun o => o.tag != tag) && (s.getTile t).mu.waiters.all fun w => !(fromTile w.hdr s.pkg t && w.tag == tag)

/-- Whether a copy command has ended, or will write no more. -/
def State.copyGone (s : State) (t n : Nat) : Bool := s.sealedTile t || (s.getTile t).copy.cmds.all fun k => k.seq != n || k.dead

/-- Whether the accesses an XINV waits for are all performed. -/
def State.xinvDone (s : State) (t c : Nat) : Bool :=
  match (s.getCtx t c).run with
  | .wait (.xinv left cmds) => s.tileActs t && left.all (fun p => s.accessDone p.1 p.2) && cmds.all fun p => s.copyGone p.1 p.2
  | _ => false

/-- R119: the accesses made through removed translations are performed; the context goes on. -/
def execXinvComplete (t c : Nat) (s : State) : Result :=
  if s.xinvDone t c then .next (s.modCtx t c fun k => { k.seq 4 with run := .ready }) else .next s

end Sys2Proof.Machine
end

