-- ==== Sys2Proof/Machine/Sha512.lean ====
section
/-! DEFINITION. SHA-512, by which images, firmware and reports are measured (spec/ 00 R8, 25 R337 to R339). PRESUMED (log entry 20): spec/
names the function and does not define it; this is the function of FIPS 180-4, whose constants are the fractions of roots of primes. -/

namespace Sys2Proof.Machine

/-! ### Constants -/

/-- The greatest number whose `k`-th power is at most `n`, found bit by bit from `r` down. -/
def rootFrom (k n : Nat) : Nat → Nat → Nat
  | 0, r => r
  | b + 1, r => rootFrom k n b (if (r + 2 ^ b) ^ k ≤ n then r + 2 ^ b else r)

/-- The first 64 bits of the fraction of the `k`-th root of `p`. -/
def rootFraction (k p : Nat) : Word := BitVec.ofNat 64 (rootFrom k (p * 2 ^ (64 * k)) 70 0)

/-- The primes below 410, of which there are 80. -/
def smallPrimes : List Nat := (List.range 410).filter fun n => 2 ≤ n && (List.range 21).all fun d => d < 2 || n ≤ d || n % d != 0

/-- The round constants, from cube roots, and the initial digest, from square roots. -/
def shaRoundWords : List Word := smallPrimes.map (rootFraction 3)
def shaStart : List Word := (smallPrimes.take 8).map (rootFraction 2)

/-! ### One block -/

/-- A word turned right by each of some distances, the results added bit by bit. -/
def turns (ds : List Nat) (x : Word) : Word := ds.foldl (fun y d => y ^^^ x.rotateRight d) 0

/-- The words of a block, newest first, with one more word of its schedule. -/
def shaExtend (w : List Word) : List Word :=
  let near := w.getD 1 0
  let far := w.getD 14 0
  (w.getD 15 0 + w.getD 6 0 + (turns [1, 8] far ^^^ far >>> 7) + (turns [19, 61] near ^^^ near >>> 6)) :: w

/-- One round: the eight working words move up by one place, with what the round mixes in at the first and the fifth. -/
def shaStep (v : List Word) (k w : Word) : List Word :=
  let at_ := fun i => v.getD i 0
  let choice := (at_ 4 &&& at_ 5) ^^^ (~~~at_ 4 &&& at_ 6)
  let majority := (at_ 0 &&& at_ 1) ^^^ (at_ 0 &&& at_ 2) ^^^ (at_ 1 &&& at_ 2)
  let mixed := at_ 7 + turns [14, 18, 41] (at_ 4) + choice + k + w
  (mixed + turns [28, 34, 39] (at_ 0) + majority) :: (v.take 3 ++ (at_ 3 + mixed) :: (v.drop 4).take 3)

/-- The digest after one more block of 16 words. -/
def shaBlock (h block : List Word) : List Word :=
  let ws := ((List.range 64).foldl (fun w _ => shaExtend w) block.reverse).reverse
  List.zipWith (· + ·) h ((shaRoundWords.zip ws).foldl (fun v e => shaStep v e.1 e.2) h)

/-! ### A message -/

/-- Big-endian numbers of bytes, and back. -/
def beNat (bs : List Byte) : Nat := leNat bs.reverse
def beBytes (n x : Nat) : List Byte := (leBytes n x).reverse

/-- The digest after the first blocks of a padded message. -/
def shaBlocks : Nat → List Word → List Byte → List Word
  | 0, h, _ => h
  | n + 1, h, bs => shaBlocks n (shaBlock h ((List.range 16).map fun i => BitVec.ofNat 64 (beNat ((bs.drop (8 * i)).take 8)))) (bs.drop 128)

/-- The padded message: a one bit, zeros, and the length in bits as 16 bytes, together whole blocks. -/
def shaPad (m : List Byte) : List Byte := m ++ [0x80] ++ List.replicate ((239 - m.length % 128) % 128) 0 ++ beBytes 16 (8 * m.length)

/-- The digest, 64 bytes. -/
def sha512 (m : List Byte) : List Byte :=
  (shaBlocks ((shaPad m).length / 128) shaStart (shaPad m)).flatMap fun w => beBytes 8 w.toNat

end Sys2Proof.Machine
end

