-- ==== Sys2Proof/Machine/Manifest.lean ====
section
/-! DEFINITION. The manifest of a snapshot: its header, granule list, channel-log directory, images and job list (spec/ 23 R312, R313). -/

namespace Sys2Proof.Machine

/-- Bytes filled up with zeros to a multiple of 64. -/
def pad64 (b : List Byte) : List Byte := b ++ List.replicate ((64 - b.length % 64) % 64) 0

/-- The image of a node (R313): a 64-byte header with its logical tile or die, its length and the offset of its digest, then Fjarwin's own
bytes and their digest (log entry 60). -/
def imageRecord (sid node label : Nat) : List Byte :=
  let body := (List.range (Config.imageLength sid node)).map (Config.imageByte sid node)
  pad64 (leBytes 8 label ++ leBytes 8 body.length ++ leBytes 8 (64 + body.length) ++ List.replicate 40 0 ++ body ++ sha512 body)

/-- The tile images, in tile order: the tiles cut in another. -/
def Snapshot.inOrder (q : Snapshot) : List TileImage :=
  ((q.tiles.map (·.tile)).foldl ins []).filterMap fun t => q.tiles.find? (·.tile == t)
def Snapshot.tileSection (q : Snapshot) : List Byte := q.inOrder.flatMap fun i => imageRecord q.sid i.tile i.tile

/-- The Newel images. -/
def Snapshot.newelSection (q : Snapshot) : List Byte := q.newels.flatMap fun i => imageRecord q.sid (Config.newelNode i.die) i.die

/-- The counter images (R313), in tile order and id order. -/
def Snapshot.counterSection (q : Snapshot) : List Byte :=
  q.inOrder.flatMap fun i => (List.range 256).flatMap fun c =>
    match mget i.state.cnt.counters c with
    | some k => bytesOf [k.value, k.target, k.action, if k.armed then 1 else 0]
    | none => List.replicate 32 0

/-- A granule's record (R313): package, granule number and job index, then where the drain target holds its contents: by its place among
the pages of the snapshot (DESIGN CHOICE, log entry 60). -/
def Snapshot.granuleRecord (q : Snapshot) (pkg num : Nat) : List Byte :=
  let job := match q.pages.find? (·.num == num) with
    | some p => q.jobs.findIdx (·.1 == p.pid)
    | none => 0
  leBytes 8 (pkg * 2 ^ 49 + num % 2 ^ 33 * 2 ^ 16 + job % 2 ^ 16)
    ++ leBytes 8 ((q.pages.filter (·.va.isSome)).findIdx (·.num == num) * 0x10000)

/-- The node number of a channel log in the directory (R313). -/
def logNode (n : Nat) : Nat := if n = Config.vestibuleNode then 0xFFF else n

/-- The nodes that have logged something, in the order of their first records. -/
def Snapshot.logNodes (q : Snapshot) : List Nat := addAll [] (q.logs.map (·.1))

/-- The channel-log directory (R313), with the records of each entry behind it in the same order. -/
def Snapshot.logSection (q : Snapshot) (pkg : Nat) : List Byte :=
  (q.logNodes.flatMap fun n => leBytes 8 (pkg * 2 ^ 49 + logNode n * 2 ^ 37) ++ leBytes 8 (q.logs.filter (·.1 == n)).length)
    ++ q.logNodes.flatMap fun n => (q.logs.filter (·.1 == n)).flatMap fun l => l.2.bytes

/-- A list of tiles or packages as R163 has it: the number of elements, and each in two bytes. -/
def numberList (l : List Nat) : List Byte := leBytes 2 l.length ++ l.flatMap (leBytes 2)

/-- The job list (R312). -/
def State.jobSection (s : State) (q : Snapshot) : List Byte :=
  q.jobs.flatMap fun e =>
    let (tiles, pkgs) := match s.part e.1 with
      | some p => (p.tiles.map p.jobTile, (s.pkgsOf p).map p.jobPkg)
      | none => ([], [])
    e.2.2.name ++ leBytes 8 e.2.2.jobid.toNat ++ numberList tiles ++ numberList pkgs

/-- The packages of a snapshot's jobs. -/
def State.snapPkgs (s : State) (q : Snapshot) : List Nat :=
  (q.jobs.flatMap fun e => match s.part e.1 with
    | some p => s.pkgsOf p
    | none => []).foldl ins []

/-- Sections laid one behind the other from an offset, each filled up to a multiple of 64: their offsets and all their bytes. -/
def layOut : Nat → List (List Byte) → List Nat × List Byte
  | _, [] => ([], [])
  | at_, b :: l => (at_ :: (layOut (at_ + (pad64 b).length) l).1, pad64 b ++ (layOut (at_ + (pad64 b).length) l).2)

/-- The manifest of a group's snapshot (R312). -/
def State.manifest (s : State) (q : Snapshot) : List Byte :=
  let body := layOut 128
    [q.tileSection, q.granules.flatMap (q.granuleRecord s.pkg), q.logSection s.pkg, q.newelSection, q.counterSection,
     imageRecord q.sid Config.vestibuleNode 0, s.jobSection q]
  let at_ := fun (i : Nat) => leBytes 8 (body.1.getD i 0)
  [0x53, 0x4E, 0x41, 0x50] ++ leBytes 2 1 ++ leBytes 2 q.jobs.length ++ leBytes 4 q.sid ++ leBytes 4 q.parent ++ leBytes 8 q.time
    ++ leBytes 4 q.tiles.length ++ leBytes 4 (s.snapPkgs q).length ++ at_ 0 ++ at_ 1 ++ leBytes 8 q.granules.length ++ at_ 2 ++ at_ 3
    ++ at_ 4 ++ at_ 5 ++ at_ 6 ++ List.replicate 32 0 ++ body.2

end Sys2Proof.Machine
end

