-- ==== Sys2Proof/Machine/Router.lean ====
section
/-! DEFINITION. The fabric (spec/ 27 R341 to R347, 05 R68, R101): ejection, deflection and injection at every router, what goes to the
ports and to the host, and the events in which a flit that stands at its router is taken. -/

namespace Sys2Proof.Machine

/-! ### Age order -/

/-- The identifier key of R342. -/
def flitKey (f : Flit) : Nat :=
  f.hdr.spkg.toNat * 2 ^ 44 + f.hdr.stile.toNat * 2 ^ 32 + f.hdr.mseq.toNat * 2 ^ 16 + f.fidx.toNat

/-- Whether a flit goes before another (R342): the higher AGE, then the lower key. -/
def flitBefore (a b : Flit) : Bool := b.age.toNat < a.age.toNat || (a.age == b.age && flitKey a ≤ flitKey b)

/-- A flit put into a list kept in that order. -/
def ageInsert (f : Flit) : List Flit → List Flit
  | [] => [f]
  | g :: l => if flitBefore f g then f :: g :: l else g :: ageInsert f l

/-- Flits oldest first. -/
def ageSort (l : List Flit) : List Flit := l.foldr ageInsert []

/-! ### The planes -/

/-- The transits of a plane. -/
def Fabric.plane (f : Fabric) (pl : Nat) : List Transit := if pl = 0 then f.vn0 else f.vn1

/-- The fabric with the transits of a plane replaced. -/
def Fabric.setPlane (f : Fabric) (pl : Nat) (l : List Transit) : Fabric := if pl = 0 then { f with vn0 := l } else { f with vn1 := l }

/-- The router a transit stands at. -/
def Transit.router (t : Transit) : Nat := routerOf t.x t.y

/-- A flit is put on the input of a router. -/
def State.putTransit (s : State) (pl r : Nat) (f : Flit) : State :=
  { s with fabric := s.fabric.setPlane pl (s.fabric.plane pl ++ [{ x := routerX r, y := routerY r, flit := f }]) }

/-! ### Taking a flit at a node -/

/-- A forwarded flit with its own kind again (R101). -/
def restoreFlit (f : Flit) : Flit :=
  if f.hdr.kind = 11 then { f with hdr := { f.hdr with kind := f.hdr.origKind, origKind := 0 } } else f

/-- A node takes a flit, which counts in GOLD if it is golden (R355); none where it refuses it. -/
def State.take (s : State) (n : Nat) (f : Flit) : Option State :=
  (s.serveFlit n (restoreFlit f)).map fun s' =>
    if f.age = 4095 ∧ n < Config.tiles ∧ (s'.getTile n).regs.gold ≠ 255 then
      s'.modTile n fun x => { x with regs := { x.regs with gold := x.regs.gold + 1 } }
    else s'

/-- The node of this package a flit is for, if its router is `r`. -/
def State.nodeHere (s : State) (r : Nat) (f : Flit) : Option Nat :=
  if f.hdr.dpkg.toNat = s.pkg ∧ s.fabric.nodeRouter f.hdr.dtile.toNat = some r then some f.hdr.dtile.toNat else none

/-- The forwarding entry of a router for a flit (R18, R101). -/
def State.forwardOf (s : State) (r : Nat) (f : Flit) : Option Forward :=
  if f.hdr.kind = 11 ∨ f.hdr.dpkg.toNat ≠ s.pkg then none
  else s.fabric.forwards.find? fun w => w.router == r && w.tile == f.hdr.dtile.toNat

/-- A forwarding router takes a flit and sends it on as kind 11 on VN1 (R101). -/
def State.forward (s : State) (w : Forward) (f : Flit) : State :=
  { s with fabric := { s.fabric with
      forwards := updateWhere s.fabric.forwards (fun v => v.router == w.router && v.tile == w.tile) fun v => { v with used := s.cycle / 2 }
      fwd := s.fabric.fwd ++ [(w.router, { f with hdr := { f.hdr with kind := 11, origKind := f.hdr.kind } })] } }

/-! ### Ports and the host (R333, R345, R351) -/

/-- The flits of a plane. -/
def ofPlane (pl : Nat) (l : List Flit) : List Flit := l.filter fun f => f.hdr.plane == pl

/-- A host egress ring (log entry 17: every ring is registered, with this many records). -/
def Adapter.ring (a : Adapter) (q : Nat) : EgressRing := (mget a.egress q).getD { size := Config.egressRecords, recs := [] }

/-- The partition of a flit's sender, if it is sealed: its flits to the host are absorbed (R289). -/
def State.sealedSource (s : State) (f : Flit) : Option Nat :=
  match s.sourcePart f with
  | some (pid, p) => if p.sealed_ then some pid else none
  | none => none

/-- The messages on the host link of which the adapter has no flit yet, by their headers. -/
def State.linkHeaders (s : State) : List Header :=
  ((s.getPort 0).tx ++ (s.getPort 0).unacked.flatMap (·.flits)).foldl (fun l f =>
    if l.contains f.hdr || s.host.inbox.any (·.wants f) then l else l ++ [f.hdr]) []

/-- Whether the bridge takes a flit for the host: a later flit of a message goes with it; a first one is refused while its ring is full
(R333). -/
def State.hostTakes (s : State) (f : Flit) : Bool :=
  let here := s.host.inbox.map (·.hdr) ++ s.linkHeaders
  let r := s.host.ring f.hdr.dtile.toNat
  s.host.inbox.any (·.wants f) || s.linkHeaders.contains f.hdr
    || (decide (f.hdr.dtile.toNat < 256) && r.recs.length + (here.filter fun h => h.dtile == f.hdr.dtile).length < r.size)

/-- A flit reaches the adapter: it joins its message, or begins it; what a sealed partition sent is absorbed. -/
def State.toHost (s : State) (f : Flit) : State :=
  match s.sealedSource f with
  | some pid => s.absorb pid
  | none =>
    if s.host.inbox.any (·.wants f) then
      { s with host := { s.host with inbox := updateWhere s.host.inbox (fun x => x.wants f) (·.addFlit s.cycle f) } }
    else { s with host := { s.host with inbox := s.host.inbox ++ [{ Entry.ofFlit f with accept := s.cycle }] } }

/-- Whether flits leave by a port: it is UP, or pauses for a turnaround. -/
def Port.open (p : Port) : Bool := p.state == .up || p.state == .turning

/-- An attachment router ejects a flit into its port, if the port is there and its buffer of the flit's plane has room. At the bridge, what
a sealed partition sends to the host is absorbed. -/
def State.toPort (s : State) (p : Nat) (f : Flit) : Option State :=
  let room := (s.getPort p).open && decide ((ofPlane f.hdr.plane (s.getPort p).tx).length < Config.portRoom)
  let forHost := f.hdr.dpkg.toNat == Config.hostPackage && p % 7 == 0
  match (if forHost then s.sealedSource f else none) with
  | some pid => some (s.absorb pid)
  | none => if room && (!forHost || s.hostTakes f) then some (s.modPort p fun x => { x with tx := x.tx ++ [f] }) else none

/-! ### One router in one cycle (R342) -/

/-- What a router has done in the cycle. -/
structure RouterState where
  s     : State
  outs  : List Nat
  ejected : Nat
  ported : Bool

/-- The outputs that shorten a flit's way. -/
def State.wanted (s : State) (r : Nat) (f : Flit) : List Nat :=
  match s.targetOf r f.hdr with
  | some t => productive r t
  | none => []

/-- A flit leaves by an output. -/
def RouterState.out (q : RouterState) (pl r dir : Nat) (f : Flit) : RouterState :=
  { q with s := q.s.putTransit pl (hop r dir) f, outs := dir :: q.outs }

/-- A flit is ejected here, if it is for this router and is taken. -/
def RouterState.eject (q : RouterState) (r : Nat) (f : Flit) : Option RouterState :=
  match q.s.nodeHere r f, q.s.forwardOf r f with
  | some n, _ => if q.ejected < 2 then (q.s.take n f).map fun s => { q with s := s, ejected := q.ejected + 1 } else none
  | none, some w => if q.ejected < 2 then some { q with s := q.s.forward w f, ejected := q.ejected + 1 } else none
  | none, none =>
    if f.hdr.dpkg.toNat ≠ q.s.pkg ∧ q.ported = false ∧ portAt r = some (q.s.portFor f.hdr) then
      (q.s.toPort (q.s.portFor f.hdr) f).map fun s => { q with s := s, ported := true }
    else none

/-- Counts a deflection, and a flit that turns golden (R354). -/
def State.countDeflection (s : State) (f : Flit) : State :=
  { s with host := { s.host with deflected := s.host.deflected + 1,
                                 goldens := s.host.goldens + (if f.age.toNat = 4094 then 1 else 0) } }

/-- One arriving flit: checked, ejected, sent on, or deflected with AGE + 1. -/
def RouterState.arriving (q : RouterState) (pl r : Nat) (f : Flit) : RouterState :=
  if Flit.fails f then { q with s := q.s.flitFailure (routerDie r) f }
  else
    match q.eject r f with
    | some q' => q'
    | none =>
      match (q.s.wanted r f).find? fun d => !q.outs.contains d, [0, 1, 2, 3].find? fun d => !q.outs.contains d with
      | some d, _ => q.out pl r d f
      | none, some d =>
        { q with s := q.s.countDeflection f }.out pl r d { f with age := if f.age = 4095 then 4095 else f.age + 1 }
      | none, none => q

/-! ### Injection -/

/-- Where a flit to be injected at a router comes from. -/
inductive Source where
  | tile (t : Nat) | newel (d : Nat) | memory (d : Nat) | vestibule | port (p : Nat) | forward (r : Nat)
deriving DecidableEq, Repr

/-- The first request of a tile whose covered accesses are complete (R188). -/
def MemUnit.readyRequest (u : MemUnit) : Option Queued :=
  u.queue.find? fun q => q.after.all fun g => !u.out.any fun o => o.tag == g

/-- Whether the head of the outbound queue may go: what it covers is complete. -/
def Tile.outHead (x : Tile) : Option Msg :=
  match x.outq with
  | q :: _ => if q.after.all fun g => !x.mu.out.any fun o => o.tag == g then some q.msg else none
  | [] => none

/-- Whether a seal holds the requests a tile has still to inject: all but a leaving job's accesses through windows (R35, R289). -/
def State.heldOut (s : State) (t : Nat) : Bool :=
  match s.partOf t with
  | some (_, p) => p.sealed_ && !p.leaving
  | none => false

/-- The message a source offers on a plane with the place it stands in: flits already begun (`inl`), or a whole message. A tile's
message to itself is no fabric message, but a local arrival (R74). Nothing new of a sealed tile leaves on VN0. -/
def State.offer (s : State) (pl : Nat) : Source → Option (Flit ⊕ Msg)
  | .tile t =>
    let x := s.getTile t
    if pl = 1 then
      match ofPlane 1 x.outFl with
      | f :: _ => some (.inl f)
      | [] => x.vn1.head?.map .inr
    else
      match ofPlane 0 x.outFl, x.mu.readyRequest, (x.outHead.filter fun m => !(m.hdr.dpkg.toNat == s.pkg && m.hdr.dtile.toNat == t)) with
      | f :: _, _, _ => some (.inl f)
      | [], some q, _ => if s.heldOut t then none else some (.inr q.msg)
      | [], none, some m => if s.sealedTile t then none else some (.inr m)
      | [], none, none => none
  | .newel d => ((s.getDie d).newel.out.find? fun m => m.hdr.plane == pl).map .inr
  | .memory d =>
    match ofPlane pl (s.getDie d).memory.outFl with
    | f :: _ => some (.inl f)
    | [] => ((s.getDie d).memory.out.find? fun m => m.hdr.plane == pl).map .inr
  | .vestibule =>
    match ofPlane pl s.vest.outFl, s.vest.out.find? fun m => m.hdr.plane == pl with
    | f :: _, _ => some (.inl f)
    | [], some m => some (.inr m)
    | [], none => none
  | .port p => (ofPlane pl (s.getPort p).rx).head?.map .inl
  | .forward r => if pl = 0 then none else (s.fabric.fwd.find? fun e => e.1 == r).map fun e => .inl e.2

/-- A list without its first element that meets `p`. -/
def dropFirst {α : Type} (p : α → Bool) : List α → List α
  | [] => []
  | x :: l => if p x then l else x :: dropFirst p l

/-- The node number of a source that is a node. -/
def Source.node : Source → Option Nat
  | .tile t => some t
  | .newel d => some (Config.newelNode d)
  | .memory d => some (Config.memoryNode d)
  | .vestibule => some Config.vestibuleNode
  | .port _ | .forward _ => none

/-- The source without the flit or the message it offered, `rest` being the later flits of a message just begun. -/
def State.withdraw (s : State) (pl : Nat) (rest : List Flit) : Source → State
  | .tile t =>
    s.modTile t fun x =>
      if !(ofPlane pl x.outFl).isEmpty then { x with outFl := dropFirst (fun f => f.hdr.plane == pl) x.outFl }
      else if pl = 1 then { x with vn1 := x.vn1.drop 1, outFl := x.outFl ++ rest }
      else
        match x.mu.readyRequest with
        | some q => { x with mu := { x.mu with queue := dropFirst (· == q) x.mu.queue }, outFl := x.outFl ++ rest }
        | none => { x with outq := x.outq.drop 1, outFl := x.outFl ++ rest }
  | .newel d => s.modNewel d fun w => { w with out := dropFirst (fun m => m.hdr.plane == pl) w.out }
  | .memory d =>
    s.modMemory d fun w =>
      if (ofPlane pl w.outFl).isEmpty then
        { w with out := dropFirst (fun m => m.hdr.plane == pl) w.out, outFl := w.outFl ++ rest }
      else { w with outFl := dropFirst (fun f => f.hdr.plane == pl) w.outFl }
  | .vestibule =>
    s.modVest fun v =>
      if (ofPlane pl v.outFl).isEmpty then
        { v with out := dropFirst (fun m => m.hdr.plane == pl) v.out, outFl := v.outFl ++ rest }
      else { v with outFl := dropFirst (fun f => f.hdr.plane == pl) v.outFl }
  | .port p => s.modPort p fun x => { x with rx := dropFirst (fun f => f.hdr.plane == pl) x.rx }
  | .forward r => { s with fabric := { s.fabric with fwd := dropFirst (fun e => e.1 == r) s.fabric.fwd } }

/-- A tile that a mode-2 INJECT armed makes the next flit it injects fail its check (R287). The arm goes with the logical tile at a live
migration (DESIGN CHOICE, log entry 75). -/
def State.disarm (s : State) : Source → Flit → State × Flit
  | .tile t, f =>
    if (s.getTile t).regs.armed then
      (s.modTile t fun x => { x with regs := { x.regs with armed := false } }, { f with crcBad := true })
    else (s, f)
  | _, f => (s, f)

/-- The group in which a node's message counts: a tile's own, for other nodes that of the tile it goes to (R308). -/
def State.sendGroup (s : State) (n : Nat) (h : Header) : Option Nat :=
  if n < Config.tiles then s.groupOfTile n else s.groupAt h.dpkg.toNat h.dtile.toNat

/-- The flit a source injects now: the header gets its COLOUR and the message is counted when its first flit goes (R67, R308). -/
def State.injectFlit (s : State) (pl : Nat) (src : Source) : Flit ⊕ Msg → State × Option Flit
  | .inl f =>
    let r := (s.withdraw pl [] src).disarm src f
    (r.1, some r.2)
  | .inr m =>
    let c := match src.node with
      | some n => match s.sendGroup n m.hdr with
        | some g => s.onInject g n m.hdr m.body
        | none => (s, m.hdr)
      | none => (s, m.hdr)
    match ({ m with hdr := c.2 } : Msg).flits with
    | f :: rest =>
      let r := (c.1.withdraw pl rest src).disarm src f
      (r.1, some r.2)
    | [] => (c.1.withdraw pl [] src, none)

/-- The header of an offer. -/
def offerHdr : Flit ⊕ Msg → Header
  | .inl f => f.hdr
  | .inr m => m.hdr

/-- A flit whose target is its own router is taken there without entering the torus; refused, it deflects like any other (R74, R342;
DEDUCED, log entry 23), and waits while no output is free. -/
def RouterState.injectHere (q : RouterState) (pl r : Nat) (src : Source) (o : Flit ⊕ Msg) : RouterState :=
  match q.s.injectFlit pl src o with
  | (s, some f) =>
    if Flit.fails f then { q with s := s.flitFailure (routerDie r) f }
    else
      match { q with s := s }.eject r f, [0, 1, 2, 3].find? fun d => !q.outs.contains d with
      | some q', _ => q'
      | none, some d => { q with s := s.countDeflection f }.out pl r d { f with age := if f.age = 4095 then 4095 else f.age + 1 }
      | none, none => q
  | (s, none) => { q with s := s }

/-- Whether a group is being rolled back: until the rollback ends, what the restored nodes hold stays where it is (R316). -/
def State.rolling (s : State) (gid : Option Nat) : Bool := s.vest.rolls.any fun r => some r.group == gid

/-- Whether a rollback holds a source's message: that of a tile by its own group, that of another unit by the tile it goes to. -/
def State.heldByRollback (s : State) (src : Source) (h : Header) : Bool :=
  match src with
  | .tile t => s.rolling (s.groupOfTile t)
  | .port _ | .forward _ => false
  | _ => s.rolling (s.groupAt h.dpkg.toNat h.dtile.toNat)

/-- The injection of a source at a router (R342): where a productive output is free. -/
def RouterState.inject (q : RouterState) (pl r : Nat) (src : Source) : RouterState :=
  match q.s.offer pl src with
  | none => q
  | some o =>
    if q.s.heldByRollback src (offerHdr o) then q else
    match q.s.targetOf r (offerHdr o) with
    | none => { q with s := (q.s.injectFlit pl src o).1 }
    | some t =>
      if t = r then q.injectHere pl r src o
      else
        match (productive r t).find? fun d => !q.outs.contains d with
        | none => q
        | some d =>
          match q.s.injectFlit pl src o with
          | (s, some f) => { q with s := s }.out pl r d f
          | (s, none) => { q with s := s }

/-- The sources at a router: its tile, the units that hang on it, its port, and its forwarding entries. -/
def State.sourcesAt (s : State) (r : Nat) : List Source :=
  ((s.fabric.tileAt r).map Source.tile).toList
    ++ ([0, 1, 2, 3].filter fun d => coreRouter d 0 == r).flatMap (fun d => [Source.newel d, Source.memory d])
    ++ (if r = 0 then [Source.vestibule] else []) ++ ((portAt r).map Source.port).toList ++ [Source.forward r]

/-- One router on one plane: its arrivals oldest first, then the injections. -/
def State.routerStep (s : State) (pl r : Nat) (fs : List Flit) : State :=
  let q := (ageSort fs).foldl (fun (q : RouterState) f => q.arriving pl r f) ({ s := s, outs := [], ejected := 0, ported := false } : RouterState)
  ((s.sourcesAt r).foldl (fun (q : RouterState) src => q.inject pl r src) q).s

/-! ### A fabric cycle -/

/-- The routers with something to inject: those of tiles, units, ports and forwarding entries that hold flits. -/
def State.injectors (s : State) : List Nat :=
  (s.tiles.filter fun e => !e.2.vn1.isEmpty || !e.2.outFl.isEmpty || !e.2.mu.queue.isEmpty || !e.2.outq.isEmpty).filterMap
      (fun e => s.fabric.tileRouter e.1)
    ++ ([0, 1, 2, 3].filter fun d => !(s.getDie d).newel.out.isEmpty || !(s.getDie d).memory.out.isEmpty || !(s.getDie d).memory.outFl.isEmpty).map
        (coreRouter · 0)
    ++ (if s.vest.out.isEmpty && s.vest.outFl.isEmpty then [] else [0])
    ++ ([0, 1, 2, 3, 4, 5, 6].filter fun p => !(s.getPort p).rx.isEmpty).flatMap (fun p => (List.range 8).map (portRouter p + ·))
    ++ s.fabric.fwd.map (·.1)

/-- One plane in one fabric cycle: every router with arrivals or injections, in number order. -/
def State.planeCycle (s : State) (pl : Nat) : State :=
  let ins := s.fabric.plane pl
  let rs := (ins.map (·.router) ++ s.injectors).foldl ins_ []
  rs.foldl (fun s r => s.routerStep pl r ((ins.filter fun t => t.router == r).map (·.flit)))
    { s with fabric := s.fabric.setPlane pl [] }
where
  /-- A rising list with a number in it. -/
  ins_ (l : List Nat) (k : Nat) : List Nat := ins l k

/-- Messages of a tile to itself become local arrivals while they stand at the head of its outbound queue (R74). One that is refused
waits among the local arrivals and no longer holds back what follows it in the queue (R198; DESIGN CHOICE, log entry 58). -/
def State.selfArrivals (s : State) (t : Nat) : Nat → State
  | 0 => s
  | n + 1 =>
    match ofPlane 0 (s.getTile t).outFl, (s.getTile t).outHead with
    | [], some m =>
      if m.hdr.dpkg.toNat = s.pkg ∧ m.hdr.dtile.toNat = t then
        let h := { m.hdr with colour := (s.getTile t).snap.colour }
        let ws := match m.body with
          | .words ws => ws
          | _ => []
        ((s.modTile t fun x => { x with outq := x.outq.drop 1 }).arrive t { entry := Entry.ofWords h 0 ws, ctx := none }).selfArrivals t n
      else s
    | _, _ => s

/-- What the tiles do after the routers: their own messages arrive, behind the ejections of both planes, and reports move up (R74, R279). -/
def State.tilesAfter (s : State) : State :=
  s.tiles.foldl (fun s e =>
    if s.rolling (s.groupOfTile e.1) || s.sealedTile e.1 then s else (s.selfArrivals e.1 e.2.outq.length).modTile e.1 Tile.passReports) s

/-- The credits of a plane, and a port with more or fewer of them (R346). -/
def Port.credit (p : Port) (pl : Nat) : Nat := if pl = 0 then p.credit0 else p.credit1
def Port.withCredit (p : Port) (pl n : Nat) : Port := if pl = 0 then { p with credit0 := n } else { p with credit1 := n }

/-- The first `n` flits of a plane taken out of a list. -/
def dropPlane (pl : Nat) : Nat → List Flit → List Flit
  | 0, l => l
  | _, [] => []
  | n + 1, f :: fs => if f.hdr.plane = pl then dropPlane pl n fs else f :: dropPlane pl (n + 1) fs

/-- A port that is UP sends a frame of up to four flits of a plane, as far as its credits there go (R346). -/
def Port.framePlane (p : Port) (pl : Nat) : Port :=
  let fs := (ofPlane pl p.tx).take (Nat.min 4 (p.credit pl))
  if p.state = .up ∧ p.txl ≠ 0 ∧ fs ≠ [] then
    { p.withCredit pl (p.credit pl - fs.length) with
        tx := dropPlane pl fs.length p.tx, seq := p.seq + 1, unacked := p.unacked ++ [{ seq := p.seq, good := true, flits := fs }]
        flits := p.flits + fs.length }
  else p

/-- What a port sends in a fabric cycle: a frame of each plane, so that VN1 never waits for VN0. -/
def Port.frame (p : Port) : Port := (p.framePlane 1).framePlane 0

/-- R342: one fabric cycle. A fabric cycle is two core cycles (R341), so a second one in the same pair changes nothing. -/
def execRouterCycle (s : State) : Result :=
  if s.fabric.last = s.cycle / 2 + 1 then .next s
  else
    let s1 := ((s.planeCycle 0).planeCycle 1).tilesAfter
    .next { s1 with ports := s1.ports.map Port.frame, fabric := { s1.fabric with last := s.cycle / 2 + 1 } }

/-! ### A flit at its router is taken -/

/-- The oldest flit that stands at the router of node `n`, is for it and meets `p`, with its plane. -/
def State.oldestAt (s : State) (n : Nat) (p : Flit → Bool) : Option (Nat × Transit) :=
  let at_ := fun (pl : Nat) => (s.fabric.plane pl).filter fun t =>
    s.nodeHere t.router t.flit == some n && !Flit.fails t.flit && p t.flit
  let old := fun (l : List Transit) => l.foldl (fun b t => match b with
    | some u => if flitBefore u.flit t.flit then some u else some t
    | none => some t) none
  match old (at_ 0), old (at_ 1) with
  | some t, _ => some (0, t)
  | none, some t => some (1, t)
  | none, none => none

/-- A flit that stands at the router of node `n` and meets `p` is offered to the node: taken, or left to the routers. -/
def State.serveEvent (s : State) (n : Nat) (p : Flit → Bool) : State :=
  match s.oldestAt n p with
  | none => s
  | some (pl, t) =>
    match ({ s with fabric := s.fabric.setPlane pl (dropFirst (· == t) (s.fabric.plane pl)) } : State).take n t.flit with
    | some s' => s'
    | none => s

/-- Kinds 0 and 6. -/
def isHandlerFlit (f : Flit) : Bool := f.hdr.kind == 0 || f.hdr.kind == 6
/-- A memory request of a kind, ring operations apart. -/
def isRequest (k : BitVec 4) (ring : Bool) (f : Flit) : Bool :=
  match f.body with
  | .request _ (.ring ..) => ring && f.hdr.kind == k
  | .request _ _ => !ring && f.hdr.kind == k
  | _ => false
/-- A lock request whose operation meets `p`. -/
def isLock (p : LockOp → Bool) (f : Flit) : Bool :=
  match f.body with
  | .lock r => f.hdr.kind == 5 && p r.op
  | _ => false
/-- A flit to a lock client that meets `p`. -/
def isLockRep (p : LockRep → Bool) (f : Flit) : Bool :=
  match f.body with
  | .lockReply r => f.hdr.kind == 10 && p r
  | _ => false

/-- R74: a handler message's flit is accepted and placed, or refused. -/
def execHandlerMessageArrival (t : Nat) (s : State) : Result := .next (s.serveEvent t isHandlerFlit)
/-- R107: a read request is served at its home. -/
def execGetRequest (n : Nat) (s : State) : Result := .next (s.serveEvent n (isRequest 1 false))
/-- R200: a write request is performed at its home. -/
def execPutRequest (n : Nat) (s : State) : Result := .next (s.serveEvent n (isRequest 2 false))
/-- R192: an atomic is performed at its home. -/
def execAtomicRequest (n : Nat) (s : State) : Result := .next (s.serveEvent n (isRequest 3 false))
/-- R204: a RING operation is performed at its descriptor's home. -/
def execRingRequest (n : Nat) (s : State) : Result := .next (s.serveEvent n (isRequest 3 true))
/-- R89: an increment updates its counter. -/
def execCounterIncrement (t : Nat) (s : State) : Result :=
  .next (s.serveEvent t fun f => f.hdr.kind == 4 && match f.body with
    | .incr .. => true
    | _ => false)
/-- R200: reply data reaches its requester. -/
def execReplyData (t : Nat) (s : State) : Result := .next (s.serveEvent t fun f => f.hdr.kind == 8)
/-- R68: a status reply reaches its requester. -/
def execReplyStatus (t : Nat) (s : State) : Result := .next (s.serveEvent t fun f => f.hdr.kind == 9)
/-- R101: a forwarded flit is served as its own kind. -/
def execForwardedFlit (t : Nat) (s : State) : Result := .next (s.serveEvent t fun f => f.hdr.kind == 11)
/-- R261: a lock request at its home. -/
def execLockAcquireRequest (die : Nat) (s : State) : Result :=
  .next (s.serveEvent (Config.newelNode die) (isLock fun o => match o with
    | .acquire .. | .matrix _ => true
    | _ => false))
/-- R262: a conversion at its home. -/
def execLockConvertRequest (die : Nat) (s : State) : Result :=
  .next (s.serveEvent (Config.newelNode die) (isLock fun o => match o with
    | .convert _ => true
    | _ => false))
/-- R261: a release at its home. -/
def execLockReleaseRequest (die : Nat) (s : State) : Result :=
  .next (s.serveEvent (Config.newelNode die) (isLock fun o => o == .release || o == .endTx))
/-- R269: a cancellation at its home. -/
def execLockCancelRequest (die : Nat) (s : State) : Result :=
  .next (s.serveEvent (Config.newelNode die) (isLock fun o => o == .cancel))
/-- R261: an answer at the lock client. -/
def execLockGrantArrival (t : Nat) (s : State) : Result :=
  .next (s.serveEvent t (isLockRep fun r => match r with
    | .answer .. => true
    | _ => false))
/-- R264: a wound at the lock client. -/
def execWoundArrival (t : Nat) (s : State) : Result :=
  .next (s.serveEvent t (isLockRep fun r => match r with
    | .wound .. => true
    | _ => false))
/-- R266: a lease request at its region's home. -/
def execLeaseRequest (die : Nat) (s : State) : Result :=
  .next (s.serveEvent (Config.newelNode die) (isLock fun o => match o with
    | .lease _ => true
    | _ => false))
/-- R121: a recall reaches the die that holds the lease; so does the word of R306 that an X lease is held as S. -/
def execLeaseRecall (die : Nat) (s : State) : Result :=
  .next (s.serveEvent (Config.newelNode die) (isLockRep fun r => match r with
    | .recall .. | .hold .. => true
    | _ => false))
/-- R121: a release of a lease reaches the region's home. -/
def execLeaseReleaseAtHome (die : Nat) (s : State) : Result :=
  .next (s.serveEvent (Config.newelNode die) (isLock fun o => o == .leaser))
/-- R300: a marker arrives at a node. -/
def execSnapshotMarker (n : Nat) (s : State) : Result := .next (s.serveEvent n fun f => f.hdr.kind == 7)
/-- R331: a TRIG reaches the Vestibule. -/
def execTrigArrival (s : State) : Result :=
  .next (s.serveEvent Config.vestibuleNode fun f => match f.body with
    | .trig => true
    | _ => false)

end Sys2Proof.Machine
end

