-- ==== Sys2Proof/Machine/Snaps.lean ====
section
/-! DEFINITION. The course of a snapshot after its cuts, the drain, seals and lost packages, and rollback (spec/ 21 R288 to R291; 23 R296,
R303, R308 to R318). -/

namespace Sys2Proof.Machine

/-! ### Completion (R308, R309) -/

/-- The old-colour figures of a node that has cut: messages sent and accepted. -/
def NodeSnap.old (x : NodeSnap) : Nat × Nat := if x.colour = 1 then (x.sent0, x.recv0) else (x.sent1, x.recv1)

/-- Whether an old-colour flit of a group is on its way, or an old-colour reply of a memory node is still to be injected. -/
def State.oldFlying (s : State) (gid : Nat) (colour : BitVec 1) : Bool :=
  ((s.flying.map (·.hdr)) ++ s.dies.toList.flatMap fun d => d.memory.out.map (·.hdr)).any fun h =>
    h.kind != 7 && h.colour != colour && h.dpkg.toNat != Config.hostPackage && s.flitOf gid h

/-- Whether a running snapshot is balanced: every node has reported, the figures balance, no old flit is left (R308). -/
def State.balanced (s : State) (gid : Nat) (q : Snapshot) : Bool :=
  q.start.isNone && (s.groupNodes gid).all (fun n => (mget q.figures n).isSome)
    && (q.figures.map fun e => e.2.1).sum == (q.figures.map fun e => e.2.2).sum
    && !s.oldFlying gid q.colour

/-- Whether a running snapshot can be brought on: its logs closed, or, once they are, itself completed when every block is copied. -/
def State.canEnd (s : State) (gid : Nat) (q : Snapshot) : Bool :=
  if q.closed then (s.groupTiles gid).all fun t => (s.getTile t).uncop.isEmpty else s.balanced gid q

/-- Every channel log of a balanced snapshot closes (R308). -/
def State.closeLogs (s : State) (gid : Nat) : State :=
  ((s.groupNodes gid).foldl (fun s n => s.setNodeSnap gid n { s.nodeSnap gid n with logOn := false }) s).modGroup gid fun g =>
    g.modRunning fun r => { r with closed := true }

/-- The granule list of a snapshot (R311): every backed granule for the first, afterwards those written since the parent. -/
def State.granuleList (s : State) (gid : Nat) (q : Snapshot) : List Nat :=
  (q.pages.filter fun p => p.va.isSome && (q.parent == 0 || (s.getDie (homeDie (p.num * 0x10000))).memory.dirty.contains (gid, p.num))).map (·.num)

/-- The memory node from the moment a snapshot is COMPLETE: what was written since its cut is what was written since the parent (R305). -/
def MemNode.newParent (m : MemNode) (gid : Nat) : MemNode :=
  { m with dirty := m.dirty.filter (·.1 != gid) ++ m.fresh.filter (·.1 == gid), fresh := m.fresh.filter (·.1 != gid) }

/-- The snapshot is COMPLETE (R308): leases held as S are X again (R306), and a drained earlier one gives up its pre-images (R310). -/
def State.completeSnapshot (s : State) (gid : Nat) : State :=
  let s0 := (s.groupNodes gid).foldl (fun s n => s.setNodeSnap gid n { s.nodeSnap gid n with cut := false, logOn := false }) s
  let done := s0.modGroup gid fun g => g.modRunning fun r => { r with state := .complete, granules := s.granuleList gid r }
  let s1 := ([0, 1, 2, 3].foldl (fun s d => s.modMemory d fun m => m.newParent gid) done).openLeases gid
  let old : List Nat := match s1.group gid with
    | some g => (g.snaps.filter fun (r : Snapshot) => r.state == .drained).map (·.sid)
    | none => []
  old.foldl (fun s n => s.freePre gid n) s1

/-- Brings a group's running snapshot on if it can be: its logs close, and with them closed and every block copied it is COMPLETE. -/
def State.tryComplete (s : State) (gid : Nat) : State :=
  let step := fun (s : State) => match (s.group gid).bind (·.running) with
    | some q => if s.canEnd gid q = false then s else if q.closed then s.completeSnapshot gid else s.closeLogs gid
    | none => s
  step (step s)

/-- The group whose running snapshot has something to learn from node `n`: changed figures, or its completion. -/
def State.reportDue (s : State) (n : Nat) : Option Nat :=
  (s.vest.groups.find? fun g => match g.running with
    | some q => q.start.isNone && (s.groupNodes g.id).contains n &&
        (n == Config.vestibuleNode && !(s.nodeSnap g.id n).cut || (s.nodeSnap g.id n).cut &&
          (mget q.figures n != some (s.nodeSnap g.id n).old || s.canEnd g.id q))
    | none => false).map (·.id)

/-- R308: a node's figures reach the Vestibule, which cuts itself at the latest now; a balanced snapshot completes. -/
def execSnapshotCountReport (n : Nat) (s : State) : Result :=
  match s.reportDue n with
  | none => .next s
  | some gid =>
    match (s.group gid).bind (·.running) with
    | none => .next s
    | some q =>
      let s0 := if (s.nodeSnap gid n).cut then s else s.cut gid n q.sid
      .next ((s0.modGroup gid fun g => g.modRunning fun q => { q with figures := mput q.figures n (s0.nodeSnap gid n).old }).tryComplete gid)

/-- R303: the background copier saves a tile's next uncopied block. A full area or uncorrectable data fails the snapshot (R309). -/
def execBackgroundBlockCopy (t : Nat) (s : State) : Result :=
  match (s.getTile t).uncop, s.groupOfTile t with
  | b :: _, some gid => .next ((s.saveBlock (poolBase t + b * 4096)).tryComplete gid)
  | _, _ => .next s

/-! ### The drain (R311) -/

/-- What the image of a snapshot holds of a page: its pre-image, or the live contents (R305). -/
def State.pageImage (s : State) (gid sid num : Nat) : List Host.Cell :=
  match (s.getDie (homeDie (num * 0x10000))).memory.preOf gid sid num with
  | some p => p.bytes
  | none => s.granuleCells (num * 0x10000)

/-- The COMPLETE snapshot of a group that is drained next. -/
def Group.toDrain (g : Group) : Option Snapshot := g.snaps.find? (·.state == .complete)

/-- What the drain target holds of the parent, and the granules it lacks: the snapshot's granule list, or every granule where the target
does not hold the parent (R311). -/
def Group.drainFrom (g : Group) (q : Snapshot) : List Host.Cell × List Nat :=
  match g.snaps.find? fun r => r.state == .drained && r.sid == q.parent with
  | some r => (r.full, q.granules)
  | none => ([], (q.pages.filter (·.va.isSome)).map (·.num))

/-- The uncorrectable data a drain of these granules meets: in a pre-image, or in live contents that are the image. -/
def State.drainBad (s : State) (gid sid : Nat) (nums : List Nat) : Option Nat :=
  nums.findSome? fun n => match (s.getDie (homeDie (n * 0x10000))).memory.preOf gid sid n with
    | some p => if p.lost then some (n * 0x10000) else none
    | none => s.badIn (n * 0x10000) 0x10000

/-- The drain target of a group: that of its first job (R311). -/
def State.drainTarget (s : State) (gid : Nat) : Nat :=
  match s.groupParts gid with
  | (_, p) :: _ => match p.job with
    | some j => j.drain
    | none => 0
  | [] => 0

/-- R311: the drain target gets the manifest and the increment, and has the whole image; earlier drained images are superseded, and
pre-images a later snapshot makes needless are freed (R310). Uncorrectable data in the way is a consumption (R285). -/
def execSnapshotDrain (grp : Nat) (s : State) : Result :=
  match (s.group grp).bind fun g => g.toDrain.map fun q => (g, q) with
  | none => .next s
  | some (g, q) =>
    let (base, nums) := g.drainFrom q
    match s.drainBad grp q.sid nums with
    | some k => .next (s.consumeBad Config.vestibuleNode k [])
    | none =>
    let full := nums.foldl (fun m n => memReplace m (n * 0x10000) (n * 0x10000 + 0x10000) (s.pageImage grp q.sid n)) base
    let s1 := s.modGroup grp fun g =>
      { g with snaps := (g.snaps.filter fun r => !(r.state == .drained && r.sid < q.sid)).map fun r =>
          if r.sid == q.sid then
            { r with state := .drained, target := s.drainTarget grp, manifest := s.manifest q, full := full }
          else r }
    let later : Bool := match s1.group grp with
      | some g => g.snaps.any fun (r : Snapshot) => q.sid < r.sid && r.state == .complete
      | none => false
    .next (if later then s1.freePre grp q.sid else s1)

/-! ### SNAPQ (R298) -/

/-- The context whose SNAPQ is answered next. -/
def State.snapqNext (s : State) : Option (Nat × Nat × Reg × Nat) :=
  (s.tiles.flatMap fun e => [0, 1, 2, 3, 4, 5, 6, 7].filterMap fun c =>
    match (e.2.getCtx c).run with
    | .wait (.snapq d n) => if s.tileActs e.1 then some (e.1, c, d, n) else none
    | _ => none).head?

/-- R298: the Vestibule answers a SNAPQ. -/
def execSnapqAnswer (s : State) : Result :=
  match s.snapqNext with
  | some (t, c, d, n) => .next (s.modCtx t c fun k => { (k.wr d (s.snapqValue t n)).seq 4 with run := .ready })
  | none => .next s

/-! ### Rollback: what allows it (R291, R314) -/

/-- The retained snapshot of a group with an identifier. -/
def Group.snap (g : Group) (sid : Nat) : Option Snapshot := g.snaps.find? fun q => q.sid == sid

/-- The pages that a group has now. -/
def State.pagesNow (s : State) (gid : Nat) : List Nat :=
  (s.vest.pages.filter fun p => p.va.isSome && (s.groupParts gid).any fun e => e.1 == p.pid).map (·.num)

/-- Whether local mode can restore a snapshot: it is the latest COMPLETE one, and no granule whose image is its live contents holds
uncorrectable data. That counts pages backed since the cut, which local mode leaves as they are (DEDUCED, log entry 83). -/
def State.localOk (s : State) (gid : Nat) (g : Group) (q : Snapshot) : Bool :=
  (match g.latest with
    | some r => r.sid == q.sid
    | none => false)
  && !(s.groupParts gid).any (fun e => (s.pkgsOf e.2).any s.fabric.lost.contains)
  && (s.drainBad gid q.sid ((q.pages.filter (·.va.isSome)).map (·.num) ++ s.pagesNow gid)).isNone

/-- Adds a rollback to those in progress. -/
def State.addRoll (s : State) (gid sid : Nat) (remote : Bool) (asked : Option (Nat × Nat)) : State :=
  s.modVest fun v => { v with rolls := v.rolls ++ [{ group := gid, sid := sid, remote := remote, step := 1, asked := asked }] }

/-- The automatic rollback after a fault (R291): if every image of the group asks for it, locally where that is possible, else from the
latest DRAINED snapshot; otherwise the jobs wait for the host. -/
def State.autoRoll (s : State) (gid : Nat) : State :=
  match s.group gid with
  | none => s
  | some g =>
    let all := (s.groupParts gid).all fun e => match e.2.job with
      | some j => j.autoroll
      | none => true
    if all = false ∨ s.vest.rolls.any (fun r => r.group == gid) ∨ (s.groupParts gid).any (·.2.leaving) then s
    else
      match g.latest with
      | none => s
      | some q =>
        if s.localOk gid g q then s.addRoll gid q.sid false none
        else
          match (g.snaps.filter fun r => r.state == .drained).getLast? with
          | some r => s.addRoll gid r.sid true none
          | none => s

/-! ### Seals (R289, R347) -/

/-- R289: every node has confirmed a partition's seal: what instructions of the seal's own cycle had still to send or report is dropped
(R294), the containment report is written, and an automatic rollback may begin. -/
def execSealComplete (pid : Nat) (s : State) : Result :=
  let mine := s.vest.seals.filter fun c => c.pid == pid
  if mine = [] then .next s
  else
    let n := match s.part pid with
      | some p => p.absorbed
      | none => 0
    let s0 := match s.part pid with
      | some p => if p.sealed_ ∧ p.leaving = false then p.tiles.foldl (fun (s : State) t => s.modTile t Tile.dropSends) s else s
      | none => s
    let s1 := s0.modVest fun v =>
      { v with seals := v.seals.filter fun c => c.pid != pid
               reports := v.reports ++ (mine.filter fun c => c.cause != 0).map fun c => { c with absorbed := n } }
    let gid := ((s1.part pid).bind (·.job)).map (·.group)
    match gid with
    | some g => .next (if mine.any fun c => c.cause != 0 then s1.autoRoll g else s1)
    | none => .next s1

/-- R288, R347: a package to which no route remains is lost, and every partition that spans it is sealed. -/
def execPackageLoss (p : Nat) (s : State) : Result :=
  if p = s.pkg ∨ s.fabric.lost.contains p then .next s
  else
    let s1 : State := { s with fabric := { s.fabric with lost := ins s.fabric.lost p } }
    .next ((s1.vest.parts.filter fun e => (s1.pkgsOf e.2).contains p).foldl (fun s e => s.seal e.1 causePackage p []) s1)

/-! ### Rollback step 1: nothing of the group is left on its way (R316) -/

/-- The packages a group spans. -/
def State.groupPkgs (s : State) (gid : Nat) : List Nat := ((s.groupParts gid).flatMap fun e => s.pkgsOf e.2).foldl ins []

/-- A Newel instance without the leases on regions of its own package that a group holds. -/
def Newel.dropLeases (w : Newel) (pkg : Nat) (regions pkgs : List Nat) : Newel :=
  { w with home := w.home.filter fun l => !(regions.contains l.region && pkgs.contains l.pkg)
           leases := w.leases.filter fun l => !(l.1 / 2 ^ 19 == pkg && regions.contains (l.1 % 2 ^ 19)) }

/-- Every lease that dies hold on a group's regions is released: on regions of this package at once, on those of other packages by a
message to their home (R316). -/
def State.releaseLeases (s : State) (gid : Nat) : State :=
  let pkgs := s.groupPkgs gid
  let regions := s.groupRegions gid
  [0, 1, 2, 3].foldl (fun s d =>
    ((s.getDie d).newel.leases.filter fun l => l.1 / 2 ^ 19 != s.pkg && pkgs.contains (l.1 / 2 ^ 19)).foldl (fun s l =>
      s.leaseRecalled d { spkg := BitVec.ofNat 15 (l.1 / 2 ^ 19),
                          stile := BitVec.ofNat 12 (Config.newelNode (homeDie (l.1 % 2 ^ 19 * 0x200000))) } (l.1 % 2 ^ 19)
        ((mget (s.getDie d).newel.got l.1).getD 0))
      (s.modNewel d fun w => w.dropLeases s.pkg regions pkgs)) s

/-- Removes every flit and message of a group that is on its way, its power leave, its XLATEs, and the leases its dies hold on its
regions. -/
def State.clearGroup (s : State) (gid : Nat) : State :=
  let mine := fun (h : Header) => s.flitOf gid h
  let keepF := fun (f : Flit) => !mine f.hdr
  let keepM := fun (m : Msg) => !mine m.hdr
  let tiles := s.groupTiles gid
  let s1 : State :=
    { s with
      fabric := { s.fabric with vn0 := s.fabric.vn0.filter fun t => keepF t.flit
                                vn1 := s.fabric.vn1.filter fun t => keepF t.flit
                                fwd := s.fabric.fwd.filter fun e => keepF e.2 }
      ports := s.ports.map fun p => { p with tx := p.tx.filter keepF, rx := p.rx.filter keepF,
                                             unacked := p.unacked.map fun r => { r with flits := r.flits.filter keepF } }
      dies := s.dies.map fun d =>
        { d with
          newel := { d.newel with
            out := d.newel.out.filter keepM
            waiting := d.newel.waiting.filter fun w => keepF w.flit }
          memory := { d.memory with out := d.memory.out.filter keepM, outFl := d.memory.outFl.filter keepF,
                                    parts := d.memory.parts.filter fun p => !mine p.hdr }
          gov := { d.gov with held := d.gov.held.filter fun q => !tiles.contains q.tile
                              fifo := d.gov.fifo.filter fun q => !tiles.contains q.tile } } }
  (s1.releaseLeases gid).modVest fun v =>
    { v with out := v.out.filter keepM, outFl := v.outFl.filter keepF, xlates := v.xlates.filter fun x => !tiles.contains x.tile }

/-! ### Step 2: restore (R301, R316, R318) -/

/-- A command posted again: nothing of its earlier run is left (R301, R302). -/
def Cmd.again (k : Cmd) : Cmd :=
  { k with leave := .notAsked, waited := 0, dead := false, xlate := false, denied := false, rows := [], fail := 0, tags := [], got := [],
           result := none }

/-- An engine with its commands posted again. -/
def Engine.again (e : Engine) : Engine := { e with cmds := e.cmds.map Cmd.again }

/-- A message whose age goes on as at the capture. -/
def Entry.rebase (e : Entry) (delta now : Nat) : Entry := { e with accept := e.accept + delta, ready := now, hold := false, unread := false }

/-- The memory unit without the requests of engine commands, which are posted again. -/
def MemUnit.withoutEngines (u : MemUnit) : MemUnit :=
  let gone := (u.out.filter fun o => o.ctx == 8 && !o.lock).map (·.tag)
  { u with
    out := u.out.filter fun o => !gone.contains o.tag
    queue := u.queue.filter fun q => match q.msg.body with
      | .request tag _ => !gone.contains tag
      | _ => true }

/-- The registers of an image, with those that no image holds as they are now. -/
def TileRegs.restore (img now : TileRegs) : TileRegs :=
  { now with jobid := img.jobid, qdepth := img.qdepth, agelim := img.agelim, promo := img.promo, hlimit := img.hlimit, ctxres := img.ctxres }

/-- A tile as its image has it, with ages and grace times rebased. -/
def TileImage.restored (i : TileImage) (now : Tile) (cycle : Nat) : Tile :=
  let x := i.state
  let d := cycle - i.cycle
  { x with
    ctxs := x.ctxs.map fun k => { k with born := k.born + d }
    land := { x.land with
      slots := x.land.slots.map fun e => e.rebase d cycle
      spill := x.land.spill.map fun e => e.rebase d cycle
      again := x.land.again.map fun a => { a with entry := a.entry.rebase d cycle } }
    regs := x.regs.restore now.regs
    matrix := x.matrix.again
    copy := x.copy.again
    mu := x.mu.withoutEngines
    locks := { x.locks with txs := x.locks.txs.map fun e => (e.1, { e.2 with since := e.2.since + d }) }
    sid := now.sid, uncop := [], tlb := [], frozen := now.frozen }

/-- Restores one tile with its pool, FULL bits and spilled records. -/
def State.restoreTile (s : State) (i : TileImage) : State :=
  let lo := poolBase i.tile
  let hi := lo + Config.poolBytes
  let s1 : State :=
    { s with
      mem := memReplace s.mem lo hi i.bytes
      empty := (s.empty.filter fun g => !(lo / 16 ≤ g && g < hi / 16)) ++ i.empty
      bad := s.bad.filter fun b => !(lo ≤ b.1 && b.1 < hi) }
  let s2 := s1.setTile i.tile (i.restored (s1.getTile i.tile) s1.cycle)
  (s2.getTile i.tile).land.spill.foldl (fun s e => s.writeRecord i.tile e) s2

/-- Restores a Newel instance's locks, queues and matrices of a group. -/
def State.restoreNewel (s : State) (gid : Nat) (i : NewelImage) : State :=
  let asids := (s.groupParts gid).map (·.2.asid)
  s.modNewel i.die fun w =>
    { w with
      locks := w.locks.filter (fun e => !asids.contains e.asid) ++ i.locks
      matrices := i.matrices.foldl (fun m e => mput m e.1 e.2) (w.matrices.filter fun e => !asids.any fun a => a.toNat == e.1)
      out := w.out ++ i.out
      waiting := w.waiting ++ i.waiting }

/-- Restores one HBM page: the pre-images of the other snapshots are saved first, and the page takes a spare's good cells (R310, R316). -/
def State.restorePage (s : State) (gid sid num : Nat) (cells : List Host.Cell) : State :=
  let d := homeDie (num * 0x10000)
  let s1 := ((s.snapsToSave gid d false).filter (· != sid)).foldl (fun s n => s.savePre gid d (num * 0x10000) n) s
  { s1.markDirty gid d (num * 0x10000) false with
    mem := memReplace s1.mem (num * 0x10000) (num * 0x10000 + 0x10000) cells
    bad := s1.bad.filter fun b => b.1 / 0x10000 != num }

/-- Spare granules for what a group's jobs hold of HBM beside the pages of their address spaces, where it holds uncorrectable data: the
Gallery, which takes the records of the tile images, page tables and snapshot areas (R291, R316; log entry 83). -/
def State.spareOwn (s : State) (gid : Nat) : State :=
  let own := (s.vest.pages.filter fun p => p.va.isNone && (s.groupParts gid).any fun e => e.1 == p.pid).map (·.num)
  { s with bad := s.bad.filter fun b => !own.contains (b.1 / 0x10000) }

/-- HBM of a group: in local mode every granule with a pre-image for the snapshot, in remote mode every granule of the group's pages, from
the full image. -/
def State.restoreHbm (s : State) (gid : Nat) (q : Snapshot) (remote : Bool) : State :=
  if remote then (s.pagesNow gid).foldl (fun s n => s.restorePage gid q.sid n q.full) s
  else
    (s.dies.toList.flatMap fun d => d.memory.pre.filter fun p => p.grp == gid && p.sid == q.sid).foldl
      (fun s p => s.restorePage gid q.sid p.granule p.bytes) s

/-- The Vestibule's own image: the frame tags of the group's jobs, and its work queues (R307). -/
def State.restoreVest (s : State) (q : Snapshot) : State :=
  let s1 := q.jobs.foldl (fun s e => s.modJob e.1 fun j =>
    { j with tags := e.2.2.tags.map (fun t => { t with sweep := none }), lastTag := e.2.2.lastTag }) s
  (q.queues.foldl (fun s e => s.modVest fun v => { v with queues := mput v.queues e.1 e.2 }) s1).modVest fun v =>
    { v with out := v.out ++ q.outs }

/-- Everything of step 2. -/
def State.restoreGroup (s : State) (gid : Nat) (q : Snapshot) (remote : Bool) : State :=
  let s1 := q.tiles.foldl State.restoreTile (s.spareOwn gid)
  let s2 := q.newels.foldl (fun s i => s.restoreNewel gid i) s1
  (s2.restoreHbm gid q remote).restoreVest q

/-! ### Step 3: the channel logs (R304, R316) -/

/-- A logged handler flit arrives: it joins its message, is placed, or waits as a local arrival. -/
def State.redeliver (s : State) (t : Nat) (f : Flit) : State :=
  if (s.getTile t).land.again.any fun a => a.entry.wants f then
    s.modTile t fun x =>
      { x with land := { x.land with again := updateWhere x.land.again (fun a => a.entry.wants f) fun a =>
          { a with entry := a.entry.addFlit s.cycle f } } }
  else
    match s.landFlit t f with
    | some (s', _) => s'
    | none => s.keepArrival t { entry := Entry.ofFlit f, ctx := none }

/-- One logged flit is served at its node under its own kind. -/
def State.redeliverAt (s : State) (n : Nat) (f : Flit) : State :=
  if n < Config.tiles then
    match f.body with
    | .words _ => s.redeliver n f
    | _ => s.serveLogged n f
  else (s.serveNode n f).1

/-! ### Steps 4 and 5: RESUME, colours, the ingress replay (R316, R317) -/

/-- RESUME reaches a tile: class 0xFF, the snapshot and the rollback count. Its COLOUR bit is 0: it is built before step 5 sets the colours
(DESIGN CHOICE, log entry 76). -/
def State.resumeAt (s : State) (sid rcount t : Nat) : State :=
  let h : Header := { kind := 0, cls := 0xFF, dpkg := BitVec.ofNat 15 s.pkg, dtile := BitVec.ofNat 12 t, spkg := BitVec.ofNat 15 s.pkg,
                      stile := BitVec.ofNat 12 Config.vestibuleNode, mseq := s.vest.mseq }
  (s.arrive t { entry := Entry.ofWords h 0 [BitVec.ofNat 64 sid, BitVec.ofNat 64 rcount], ctx := none }).modVest fun v =>
    { v with mseq := v.mseq + 1 }

/-- A tag that a launch after the cut allocated is there again. -/
def Job.ensureTag (j : Job) (tag queue serial : Nat) : Job :=
  if tag = 0 ∨ j.tags.any (fun t => t.tag == tag) then j
  else { j with tags := j.tags ++ [{ tag := tag, serial := serial, queue := queue, trigs := 0, sent := 0, recv := 0, sweep := none }], lastTag := tag }

/-- A message of the replay log is injected again, counted as sent for its tag. -/
def State.replayOne (s : State) (i : Ingress) : State :=
  let s1 := s.modJob i.pid fun j =>
    let j' := j.ensureTag i.hdr.ftag.toNat i.queue i.serial
    { j' with tags := updateWhere j'.tags (fun t => t.tag == i.hdr.ftag.toNat) fun t => { t with sent := t.sent + 1 } }
  s1.modVest fun v => { v with out := v.out ++ [{ hdr := i.hdr, body := .words i.words }] }

/-- Every node of the group has the snapshot's colour and figures that begin anew, as has what is on its way, and the partitions run
again. -/
def State.unsealGroup (s : State) (gid : Nat) (colour : BitVec 1) : State :=
  let s1 := (s.recolour gid colour).recount gid colour
  (s1.groupParts gid).foldl (fun s e => s.modPart e.1 fun p => { p with sealed_ := false, fault := false, absorbed := 0 })
    (s1.modGroup gid fun g => { g with colour := colour })

/-- One step of a rollback (R316). -/
def State.rollStep (s : State) (r : Rollback) (q : Snapshot) : State :=
  let gid := r.group
  match r.step with
  | 1 => ((s.groupParts gid).foldl (fun s e => s.sealPart e.1 false) s |>.dropSnapshot gid .abandoned).clearGroup gid
  | 2 => s.restoreGroup gid q r.remote
  | 3 => q.logs.foldl (fun s l => l.2.flits.foldl (fun s f => s.redeliverAt l.1 f) s) s
  | 4 =>
    let n := (match s.group gid with
      | some g => g.rcount
      | none => 0) + 1
    (s.groupTiles gid).foldl (fun s t => s.resumeAt r.sid n t) (s.modGroup gid fun g => { g with rcount := n, rsid := r.sid })
  | _ =>
    let replay := match s.group gid with
      | some g => g.replay
      | none => []
    replay.foldl State.replayOne (s.unsealGroup gid q.colour)

/-- The rollback whose next step can run: its seals are complete. -/
def State.rollNext (s : State) : Option Rollback :=
  s.vest.rolls.find? fun r => !s.vest.seals.any fun c => (s.groupParts r.group).any fun e => e.1 == c.pid

/-- R316: a step of a rollback is complete and the next begins. -/
def execRollbackStep (s : State) : Result :=
  match s.rollNext with
  | none => .next s
  | some r =>
    match (s.group r.group).bind (·.snap r.sid) with
    | none => .next (s.modVest fun v => { v with rolls := v.rolls.erase r })
    | some q =>
      let s1 := s.rollStep r q
      .next (s1.modVest fun v =>
        { v with rolls := if 5 ≤ r.step then v.rolls.erase r else updateWhere v.rolls (· == r) fun r => { r with step := r.step + 1 } })

end Sys2Proof.Machine
end

