-- ==== Sys2Proof/Machine/Groups.lean ====
section
/-! DEFINITION. Shared windows as they are mapped and unmapped, and the snapshot groups they make (spec/ 01 R32 to R35; 23 R295). -/

namespace Sys2Proof.Machine

/-! ### Windows (R32) -/

/-- A window that both jobs declare: the owner's partition and record, and the guest's. -/
structure WindowPair where
  owner : Nat
  ow    : Window
  guest : Nat
  gw    : Window
deriving DecidableEq, Repr

/-- Whether an owner's and a guest's records declare one window. -/
def windowMatch (j : Job) (w : Window) (k : Job) (v : Window) : Bool :=
  !w.guest && v.guest && w.name == v.name && w.partner == k.name && v.partner == j.name && w.len == v.len

/-- Every window that two resident jobs declare. -/
def State.windowPairs (s : State) : List WindowPair :=
  let js := s.vest.parts.filterMap fun e => if e.2.leaving then none else e.2.job.map fun j => (e.1, j)
  js.flatMap fun o => js.flatMap fun g =>
    if o.1 = g.1 then []
    else o.2.windows.flatMap fun w =>
      (g.2.windows.filter fun v => windowMatch o.2 w g.2 v).map fun v => { owner := o.1, ow := w, guest := g.1, gw := v }

/-- The pages of a window. -/
def WindowPair.pages (w : WindowPair) : List Nat := List.range (w.ow.len / 0x10000)

/-- Whether a window's scratchpad backing is what R32 asks for: a tile of the owner, and a range of its scratchpad. R164 has no status for
another; such a window is not mapped (DESIGN CHOICE, log entry 59). -/
def State.windowBacked (s : State) (p : Partition) (w : Window) : Bool :=
  w.tile == 0xFFFF || (p.tiles.contains (p.realTile w.tile) && w.off + w.len ≤ s.scratch (p.realTile w.tile))

/-- Maps one page of a window on both sides, each with its own rights. An HBM page is the owner's, within its quota. DESIGN CHOICE (log
entry 59): R32 does not say when the HBM pages behind a window are backed, nor what happens where the owner's quota or memory has no room;
they are backed when the window is mapped, and a page without room stays unmapped on both sides. -/
def State.mapWindowPage (s : State) (w : WindowPair) (i : Nat) : State :=
  let va := w.ow.va + i * 0x10000
  let ga := w.gw.va + i * 0x10000
  match s.part w.owner with
  | none => s
  | some p =>
    if s.windowBacked p w.ow = false then s
    else if w.ow.tile ≠ 0xFFFF then
      let pa := p.realTile w.ow.tile * 0x10000000 + w.ow.off + i * 0x10000
      (s.mapPage w.owner va (s.pte pa true w.ow.rw false true)).mapPage w.guest ga (s.pte pa true w.gw.rw false true)
    else
      match s.backPage w.owner va false with
      | none => s
      | some s1 =>
        match s1.ownPage w.owner va with
        | some g => (s1.mapPage w.owner va (s.pte (g.num * 0x10000) true w.ow.rw false false)).mapPage w.guest ga
                      (s.pte (g.num * 0x10000) true w.gw.rw false false)
        | none => s1

/-- Maps every window of a partition whose partner is resident. -/
def State.mapWindows (s : State) (pid : Nat) : State :=
  (s.windowPairs.filter fun w => w.owner == pid || w.guest == pid).foldl (fun s w => w.pages.foldl (fun s i => s.mapWindowPage w i) s) s

/-- Unmaps every window of a partition on both sides, with the translations cached of it (R35, R119). -/
def State.unmapWindows (s : State) (pid : Nat) : State :=
  (s.windowPairs.filter fun w => w.owner == pid || w.guest == pid).foldl (fun s w =>
    w.pages.foldl (fun s i => (s.unmapPage w.owner (w.ow.va + i * 0x10000)).unmapPage w.guest (w.gw.va + i * 0x10000)) s) s

/-! ### Groups (R295) -/

/-- The partitions that windows join to those of `c`, directly or through others. -/
def joined (link : Nat → Nat → Bool) (all : List Nat) : Nat → List Nat → List Nat
  | 0, c => c
  | n + 1, c => joined link all n (c ++ all.filter fun b => !c.contains b && c.any fun a => link a b)

/-- The group of a partition's job. -/
def State.groupOfPart (s : State) (pid : Nat) : Option Nat := ((s.part pid).bind (·.job)).map (·.group)

/-- Whether a page of a window is mapped for its guest: such a window joins its jobs. -/
def State.windowMapped (s : State) (w : WindowPair) : Bool :=
  (s.part w.guest).any fun p => w.pages.any fun i => (s.leafIn p (w.gw.va + i * 0x10000)).isSome

/-- The groups that the windows now mapped make, as lists of partitions. Jobs of one group that are being unloaded together stay together
(R315). -/
def State.components (s : State) : List (List Nat) :=
  let ws := s.windowPairs.filter s.windowMapped
  let leaving := fun n => (s.part n).any (·.leaving)
  let link := fun a b => (leaving a && leaving b && s.groupOfPart a == s.groupOfPart b) ||
    ws.any fun w => (w.owner == a && w.guest == b) || (w.owner == b && w.guest == a)
  let all := s.vest.parts.filterMap fun e => e.2.job.map fun _ => e.1
  all.foldl (fun cs a => if cs.any (·.contains a) then cs else cs ++ [joined link all all.length [a]]) []

/-- The partitions of `comp` become one new group, which goes on from group `g`: a running snapshot of any group they leave is abandoned,
and no snapshot of the old shape is retained (log entry 22). -/
def State.newGroup (s : State) (gids : List Nat) (g : Nat) (comp : List Nat) : State :=
  let s0 := gids.foldl (fun s n => s.dropSnapshot n .abandoned) s
  match s0.group g with
  | none => s
  | some old =>
    let id := s0.vest.nextId
    let s1 := s0.modVest fun v =>
      { v with nextId := id + 1, groups := v.groups ++ [{ old with id := id, snaps := [], replay := [], logging := false, dies := [] }] }
    ((comp.foldl (fun s p => s.modJob p fun j => { j with group := id }) s1).joinDies id).recount id old.colour

/-- Groups without a job are gone, with all that nodes kept for them. -/
def State.dropGroups (s : State) : State :=
  let live := (s.vest.groups.filter fun g => !(s.groupParts g.id).isEmpty).map (·.id)
  { (s.modVest fun v => { v with groups := v.groups.filter (fun g => live.contains g.id), rolls := v.rolls.filter fun r => live.contains r.group })
    with dies := s.dies.map fun d =>
      { d with newel := { d.newel with snaps := d.newel.snaps.filter fun e => live.contains e.1 }
               memory := { d.memory with snaps := d.memory.snaps.filter fun e => live.contains e.1
                                         pre := d.memory.pre.filter fun p => live.contains p.grp
                                         dirty := d.memory.dirty.filter (fun e => live.contains e.1)
                                         fresh := d.memory.fresh.filter fun e => live.contains e.1 } } }

/-- The snapshot groups brought up to date with the windows that are mapped. Jobs that make a group together as before stay in it. Every
other becomes a new one, the last of a group that falls apart as much as the rest: its snapshots are of another shape, its memory nodes are
found anew, and its figures begin anew. -/
def State.regroup (s : State) : State :=
  (s.components.foldl (fun s1 comp =>
    let gids := (comp.filterMap s.groupOfPart).foldl (fun l g => if l.contains g then l else l ++ [g]) []
    match gids with
    | [] => s1
    | g :: rest =>
      if rest = [] ∧ ((s.groupParts g).all fun e => comp.contains e.1) then s1 else s1.newGroup gids g comp) s).dropGroups

end Sys2Proof.Machine
end

