-- ==== Sys2Proof/Machine/Move.lean ====
section
/-! DEFINITION. Live migration of a tile: freeze, stream, remap, resume, and the retirement of forwarding entries (spec/ 05 R99 to R102,
01 R20, R23). A tile's state is held under its logical number, so streaming it moves nothing in the model. -/

namespace Sys2Proof.Machine

/-- The state with the migration of a tile changed. -/
def State.modMig (s : State) (t : Nat) (f : Migration → Migration) : State :=
  s.modVest fun v => { v with migs := updateWhere v.migs (·.tile == t) f }

/-- Whether a snapshot of a tile's group is running (R102). -/
def State.snappingTile (s : State) (t : Nat) : Bool :=
  match s.groupOfTile t with
  | some g => s.snapping g
  | none => false

/-- Whether a flit is request `tag` of a tile. -/
def State.isRequestOf (s : State) (t tag : Nat) (f : Flit) : Bool :=
  match f.body with
  | .request g _ => g == tag && fromTile f.hdr s.pkg t
  | _ => false

/-- Whether a request of a tile can only be answered once a frozen tile resumes: it waits in the tile's own memory unit, or stands in a
freeze log. -/
def State.waitsFrozen (s : State) (t tag : Nat) : Bool :=
  (s.getTile t).waitList.any (fun w => fromTile w.hdr s.pkg t && w.tag == tag) || s.vest.migs.any fun m => m.log.any (s.isRequestOf t tag)

/-- Whether a command of an engine is running. -/
def Engine.busy (e : Engine) : Bool := e.cmds.any fun k => !k.dead && (k.result.isSome || k.rows != [] || k.tags != [])

/-- Whether a frozen tile is at rest: its engines have finished their current commands, and the replies to its requests are applied, but
for those that come only after it resumes and those of lock requests, whose answers the freeze log takes (log entry 47). Under a seal
nothing of the tile moves any more, and it is at rest as it stands (R290). -/
def State.atRest (s : State) (t : Nat) : Bool :=
  let x := s.getTile t
  s.sealedTile t || (!x.matrix.busy && !x.copy.busy && x.mu.out.all fun o => o.lock || s.waitsFrozen t o.tag)

/-- The migration that can begin: no snapshot of its group runs, and the tile is not being migrated already. -/
def State.migBegin (s : State) : Option Migration :=
  s.vest.migs.find? fun m => m.phase == 0 && !s.snappingTile m.tile && !s.vest.migs.any fun n => n.tile == m.tile && n.phase != 0

/-- The frozen tile at rest. -/
def State.migRest (s : State) : Option Migration := s.vest.migs.find? fun m => m.phase == 1 && s.atRest m.tile

/-- R99 phases 1 and 2: a migration begins by freezing its tile; a tile at rest is streamed. -/
def execMigrationStream (s : State) : Result :=
  match s.migRest, s.migBegin with
  | some m, _ => .next (s.modMig m.tile fun m => { m with phase := 2 })
  | none, some m =>
    .next ((s.modVest fun v => { v with migs := updateWhere v.migs (· == m) fun m => { m with phase := 1 } }).modTile m.tile fun x =>
      { x with frozen := true })
  | none, none => .next s

/-- R99 phase 3: the mapping names the new core, the old router holds a forwarding entry, the old core is retired (R19), and MIGCNT rises
(R23). -/
def State.remap (s : State) (m : Migration) : State :=
  let d := dieOfTile m.tile
  let old := (s.fabric.coreOf m.tile).getD 0
  let s1 : State :=
    { s with fabric := { s.fabric with
        moved := mput s.fabric.moved m.tile m.core
        retired := s.fabric.retired ++ [(d, old)]
        forwards := s.fabric.forwards ++ [{ router := coreRouter d old, tile := m.tile, core := m.core, used := s.cycle / 2 }] } }
  (s1.modTile m.tile fun x =>
    { x with regs := { x.regs with migcnt := if x.regs.migcnt = 255 then 255 else x.regs.migcnt + 1 } }).modMig m.tile fun m =>
      { m with phase := 3 }

/-- R99: the Vestibule installs the new mapping. -/
def execMigrationRemap (s : State) : Result :=
  match s.vest.migs.find? (·.phase == 2) with
  | some m => .next (s.remap m)
  | none => .next s

/-- A freeze-log flit is applied before the tile takes any other (R100): where its unit would refuse it, a request waits beyond the
table's 32 entries and an increment is held (log entry 47). -/
def State.applyLogged (s : State) (t : Nat) (f : Flit) : State :=
  match s.serveTile t f, f.body with
  | some (s', _), _ => s'
  | none, .request tag op => s.modTile t fun x => { x with mu := { x.mu with waiters := x.mu.waiters ++ [{ op := op, hdr := f.hdr, tag := tag }] } }
  | none, .incr cid amount => (s.modTile t fun x => x.addFig f.hdr.ftag 0 1).dataUpdate t cid.toNat amount f.hdr.ftag none
  | none, _ => s

/-- A snapshot of a group that waited for a migration begins (R102, R298). -/
def State.startWaiting (s : State) (gid : Nat) : State :=
  match (s.group gid).bind (·.running) with
  | some q =>
    match q.start with
    | some n => (s.modGroup gid fun g => g.modRunning fun q => { q with start := none }).cut gid n q.sid
    | none => s
  | none => s

/-- Record `i` of the freeze log is replayed. Uncorrectable data in the Gallery is not passed on: the Vestibule is told, and containment follows
(R285). -/
def State.replayLogged (s : State) (t i : Nat) (f : Flit) : State :=
  match (s.galleryAt t ((s.getTile t).land.rings.sum + i)).bind fun k => s.badIn k 288 with
  | some b => s.consumeBad t b []
  | none => s.applyLogged t f

/-- R99 phase 5: what spilled during the freeze moves up, the new core applies the freeze log in order and resumes; a waiting snapshot
of the group begins. -/
def State.resumeTile (s : State) (m : Migration) : State :=
  let s1 := (s.modVest fun v => { v with migs := v.migs.erase m }).modTile m.tile fun x =>
    { x with frozen := false, land := x.land.refillAll x.regs s.cycle }
  let s2 := (m.log.mapIdx fun i f => (i, f)).foldl (fun s e => s.replayLogged m.tile e.1 e.2) s1
  match s2.groupOfTile m.tile with
  | some g => if s2.migrating g then s2 else s2.startWaiting g
  | none => s2

/-- R99: the tile resumes on its new core. -/
def execMigrationResume (s : State) : Result :=
  match s.vest.migs.find? (·.phase == 3) with
  | some m => .next (s.resumeTile m)
  | none => .next s

/-- Whether a forwarding entry has forwarded nothing for 2^16 fabric cycles. -/
def State.forwardIdle (s : State) (w : Forward) : Bool := w.used + 2 ^ 16 ≤ s.cycle / 2

/-- R101: idle forwarding entries of a router are retired. -/
def execForwardingEntryRetire (r : Nat) (s : State) : Result :=
  .next { s with fabric := { s.fabric with forwards := s.fabric.forwards.filter fun w => !(w.router == r && s.forwardIdle w) } }

end Sys2Proof.Machine
end

