-- ==== Sys2Proof/Machine/Queues.lean ====
section
/-! DEFINITION. Work queues and packets: rings, doorbells, reconcile passes, the start and completion of packets, halts and destruction
(spec/ 25 R320 to R328, R334). -/

namespace Sys2Proof.Machine

/-! ### Bytes -/

/-- The little-endian number of `n` bytes at an offset. -/
def natAt (b : List Byte) (o n : Nat) : Nat := leNat ((b.drop o).take n)

/-- Whether the bytes from `o` up to but not including `e` are zero. -/
def zeroAt (b : List Byte) (o e : Nat) : Bool := ((b.drop o).take (e - o)).all (· == 0)

/-! ### Status codes (R326) -/

def stOk : Nat := 0x00
def stBadPkt : Nat := 0x01
def stPerm : Nat := 0x02
def stNoJob : Nat := 0x03
def stSealed : Nat := 0x04
def stDiscarded : Nat := 0x05
def stKilled : Nat := 0x06
def stOverLen : Nat := 0x07
def stBadImage : Nat := 0x10
def stNoClass : Nat := 0x11
def stBadSram : Nat := 0x12
def stBadTiles : Nat := 0x13
def stBudget : Nat := 0x14
def stNoQuota : Nat := 0x15
def stResident : Nat := 0x16
def stNoArea : Nat := 0x17
def stBadCounter : Nat := 0x18
def stBadClass : Nat := 0x20
def stPartition : Nat := 0x21
def stNoTag : Nat := 0x22
def stNoSvc : Nat := 0x23
def stRunning : Nat := 0x30
def stFailed : Nat := 0x31
def stAbandoned : Nat := 0x32
def stNoSnap : Nat := 0x33
def stNoLocal : Nat := 0x34
def stShape : Nat := 0x35
def stNoPark : Nat := 0x36
def stSpareDie : Nat := 0x40
def stBusyTile : Nat := 0x41
def stBusyId : Nat := 0x42
def stAsidUsed : Nat := 0x43
def stNoPart : Nat := 0x44
def stAbsent : Nat := 0x45
def stBadQ : Nat := 0x50

/-! ### Addresses of queues (R320, R325) -/

/-- The HBM address of an operand address: itself in a host queue; in a job's, translated by the owner's page table. -/
def State.queueKey (s : State) (owner a : Nat) : Option Nat :=
  if owner = 0 then (if a < Config.hbmBytes then some a else none)
  else
    match s.part owner with
    | none => none
    | some p =>
      match s.leafIn p a with
      | some l => if pteSpb l.pte then none else some (ptePa l.pte + (a - l.base))
      | none => none

/-- Bytes at an operand address; those that no address reaches read zero (log entry 19). R285 names no consumer for what the Vestibule reads of
queues and operands or writes there in part: it goes on with the data unchecked (DESIGN CHOICE, log entry 74). -/
def State.operandBytes (s : State) (owner a n : Nat) : List Byte :=
  (List.range n).map fun i => match s.queueKey owner (a + i) with
    | some k => s.byteAt k
    | none => 0

/-- The colour in which the Vestibule writes for a queue's owner. -/
def State.vestColour (s : State) (owner : Nat) : BitVec 1 :=
  match ((s.part owner).bind (·.job)).bind fun j => s.group j.group with
  | some g => g.node.colour
  | none => 0

/-- The Vestibule writes bytes for a queue's owner. -/
def State.vestWrite (s : State) (owner k : Nat) (bs : List Byte) : State := s.writeAt (s.vestColour owner) k bs

/-! ### Queues -/

/-- A work queue. -/
def State.queue (s : State) (n : Nat) : Option Queue := mget s.vest.queues n

/-- The state with a queue changed. -/
def State.modQueue (s : State) (n : Nat) (f : Queue → Queue) : State :=
  match s.queue n with
  | some q => s.modVest fun v => { v with queues := mput v.queues n (f q) }
  | none => s

/-- Word 3 of a control block (R320). -/
def Queue.word3 (q : Queue) : Nat := q.drops * 2 ^ 32 + q.hstat * 256 + q.state

/-- The Vestibule's words of a control block are written. -/
def State.syncQueue (s : State) (n : Nat) : State :=
  match s.queue n with
  | some q => s.vestWrite q.owner (q.ctl + 16) (leBytes 8 q.head.toNat ++ leBytes 8 q.word3)
  | none => s

/-- A doorbell's effect on a queue, or with `pass` a tail shadow's (R321): accepted, or discarded and counted. Where a doorbell and a pass
name the same tail, the second of them changes nothing (R340). So does a pass that reads the pair accepted last, with no doorbell between:
R321 would count it in DROPS, a new queue's (0, 0) and each pass over an idle queue alike (DESIGN CHOICE, log entry 61). -/
def Queue.ring (q : Queue) (pass : Bool) (w : Word) : Queue :=
  let seq := w.extractLsb' 32 32
  let idx := w.extractLsb' 0 32
  if seq = q.seq ∧ idx = q.tail ∧ (pass ∨ q.passed) then { q with passed := q.passed && pass }
  else if q.state ≠ 2 ∧ 1 ≤ (seq - q.seq).toNat ∧ (seq - q.seq).toNat < 2 ^ 31 ∧ (idx - q.head).toNat ≤ q.units then
    { q with seq := seq, tail := idx, passed := pass }
  else { q with drops := Nat.min (q.drops + 1) (2 ^ 32 - 1) }

/-- The address of a unit (R320). -/
def Queue.unitAddr (q : Queue) (u : BitVec 32) : Nat := q.base + 64 * (u.toNat % q.units)

/-- The bytes of consecutive units. -/
def State.units (s : State) (q : Queue) (u : BitVec 32) : Nat → List Byte
  | 0 => []
  | n + 1 => s.operandBytes q.owner (q.unitAddr u) 64 ++ s.units q (u + 1) n

/-- Units written and not started; a tail behind the start leaves none. -/
def Queue.known (q : Queue) : Nat := if (q.tail - q.start).toNat ≤ q.units then (q.tail - q.start).toNat else 0

/-! ### Packets (R323) -/

/-- The commands of R325 by the event that processes them. -/
inductive VCmd where
  | loadjob | unloadjob | unloadKeep | launch | waittag | signal | snapshot | rollLocal | rollRemote | rollParked | rollDiscard
  | migrate | partCreate | partDestroy | createq | destroyq | attest | injecterr | bad
deriving DecidableEq, Repr

/-- The command of a packet. -/
def pktCmd (b : List Byte) : VCmd :=
  match natAt b 0 1 with
  | 0x01 => .loadjob
  | 0x02 => match natAt b 4 1 with
    | 0 => .unloadjob
    | 1 => .unloadKeep
    | _ => .bad
  | 0x03 => .launch
  | 0x04 => .waittag
  | 0x05 => .signal
  | 0x06 => .snapshot
  | 0x07 => match natAt b 13 1, natAt b 12 1 with
    | 0, 0 => .rollLocal
    | 0, 1 => .rollRemote
    | 1, 0 | 1, 1 => .rollParked
    | 1, 2 => .rollDiscard
    | _, _ => .bad
  | 0x08 => .migrate
  | 0x09 => match natAt b 4 1 with
    | 0 => .partCreate
    | 1 => .partDestroy
    | _ => .bad
  | 0x0A => .destroyq
  | 0x0B => .createq
  | 0x0C => .attest
  | 0x0D => .injecterr
  | _ => .bad

/-- The operand bytes a command uses, as ranges (R325). -/
def VCmd.used : VCmd → List (Nat × Nat)
  | .loadjob => [(8, 40)]
  | .unloadjob | .unloadKeep | .partDestroy => [(4, 5)]
  | .launch => [(8, 22)]
  | .waittag | .destroyq => [(8, 10)]
  | .signal => [(8, 20), (24, 56)]
  | .snapshot | .bad => []
  | .rollLocal | .rollRemote => [(8, 13)]
  | .rollParked | .rollDiscard => [(8, 56)]
  | .migrate => [(8, 14)]
  | .partCreate => [(4, 5), (8, 10), (16, 25), (28, 36)]
  | .createq => [(8, 10), (16, 24)]
  | .attest => [(8, 48)]
  | .injecterr => [(8, 13), (16, 24)]

/-- Whether byte 2 names what the command asks for: a partition, none, or either. -/
def VCmd.partOk (c : VCmd) (pid : Nat) : Bool :=
  match c with
  | .migrate | .destroyq | .attest | .rollParked | .rollDiscard => pid == 0
  | .createq => pid ≤ 63
  | _ => 1 ≤ pid && pid ≤ 63

/-- The operands that only their own command can judge (R325, R327, R330, R336). A queue number of 64 or more is no operand of CREATEQ's range,
BADPKT; DESTROYQ finds no such queue, BADQ (DESIGN CHOICE, log entry 77). LOADJOB takes any package for its drain target, one that names
none too (DESIGN CHOICE, log entry 84). -/
def VCmd.operandsOk (c : VCmd) (b : List Byte) : Bool :=
  match c with
  | .launch =>
    (natAt b 8 8 != 0 || natAt b 16 4 == 0) && (if natAt b 3 1 % 2 = 1 then natAt b 20 2 != 0 else natAt b 20 2 == 0)
  | .signal => natAt b 17 1 ≤ 4 && zeroAt b (24 + 8 * natAt b 17 1) 56
  | .loadjob => natAt b 8 8 / 2 ^ 40 % 2 ^ 9 == 0 && natAt b 32 8 % 2 ^ 49 == 0
  | .partCreate => natAt b 16 8 % 0x200000 == 0 && zeroAt b 64 128 && zeroAt b 272 320 && !zeroAt b 128 272
  | .injecterr => natAt b 12 1 ≤ 2 && (natAt b 12 1 != 2 || natAt b 16 8 == 0)
  | .createq => natAt b 8 2 < 64
  | .migrate => natAt b 12 2 < Config.coresPerDie || natAt b 12 2 == 0xFFFF
  | _ => true

/-- Whether a packet passes BADPKT's checks but for those that need the state (R323, R325). -/
def pktOk (b : List Byte) : Bool :=
  let c := pktCmd b
  c != .bad && natAt b 1 1 / 16 == 0 && natAt b 1 1 % 16 + 1 == (if c = .partCreate then 5 else 1)
    && natAt b 3 1 / 4 == 0 && (natAt b 3 1 % 2 == 0 || c == .launch)
    && c.partOk (natAt b 2 1)
    && (List.range 52).all (fun i => c.used.any (fun r => r.1 ≤ i + 4 && i + 4 < r.2) || natAt b (i + 4) 1 == 0)
    && c.operandsOk b

/-- Whether a queue's owner may issue a command (R325). -/
def pktPerm (owner : Nat) (b : List Byte) : Bool :=
  owner == 0 || (([VCmd.launch, .waittag, .signal, .snapshot].contains (pktCmd b)) && natAt b 2 1 == owner)

/-- What stands at the start of a queue. -/
inductive Head where
  | none
  | overlong
  | packet (bytes : List Byte)
deriving DecidableEq, Repr

/-- Whether a started packet holds back every later one: a WAITTAG (R324). -/
def Packet.holds (p : Packet) : Bool := !p.done && pktCmd p.bytes == .waittag

/-- The packet a queue can start now (R324, R328). -/
def State.headOf (s : State) (n : Nat) : Head :=
  match s.queue n with
  | none => .none
  | some q =>
    if q.state ≠ 0 ∨ q.known = 0 ∨ q.pend.any Packet.holds then .none
    else
      let u := natAt (s.units q q.start 1) 1 1 % 16 + 1
      if q.units < u then .overlong
      else if q.known < u then .none
      else
        let b := s.units q q.start u
        if natAt b 3 1 / 2 % 2 = 1 ∧ q.pend.any (fun p => !p.done) then .none else .packet b

/-- HEAD moves past the packets that are complete at the front (R323). -/
def Queue.advance : Nat → Queue → Queue
  | 0, q => q
  | n + 1, q =>
    match q.pend with
    | p :: ps => if p.done then Queue.advance n { q with pend := ps, head := q.head + BitVec.ofNat 32 p.units } else q
    | [] => q

/-- The packets at work: those of the queue, and those it had before it was created anew (R328). -/
def Queue.atWork (q : Queue) : List Packet := q.pend ++ q.former

/-- A packet at work is done. -/
def Queue.finish (q : Queue) (idx : Nat) : Queue :=
  let q' := { q with pend := updateWhere q.pend (·.idx == idx) fun p => { p with done := true }, former := q.former.filter (·.idx != idx) }
  q'.advance q'.pend.length

/-- A started packet completes: COMPL is written to its first unit, and HEAD moves on (R323). -/
def State.complete (s : State) (n idx status value : Nat) : State :=
  match (s.queue n).bind fun q => q.atWork.find? fun p => p.idx == idx && !p.done with
  | none => s
  | some p =>
    let s1 := match s.queueKey p.owner (p.addr + 56) with
      | some k => s.vestWrite p.owner k (leBytes 8 (value % 2 ^ 32 * 2 ^ 32 + 0x8000 + status))
      | none => s
    (s1.modQueue n fun q => q.finish idx).syncQueue n

/-- A packet at work: its queue, number, owner and bytes. -/
structure Pkt where
  n     : Nat
  idx   : Nat
  owner : Nat
  bytes : List Byte

/-- PART of a packet. -/
def Pkt.part (p : Pkt) : Nat := natAt p.bytes 2 1

/-- What a command answers at once: its status and VALUE; none while it goes on. -/
abbrev Answer := Option (Nat × Nat)

/-- The number of the packet at the head of a queue. -/
def Queue.headIdx (q : Queue) : Nat := q.gen * 2 ^ 32 + q.start.toNat

/-- Starts the packet at the head of a queue (R324). -/
def State.push (s : State) (n : Nat) (b : List Byte) : State :=
  s.modQueue n fun q =>
    { q with start := q.start + BitVec.ofNat 32 (b.length / 64)
             pend := q.pend ++ [{ idx := q.headIdx, owner := q.owner, addr := q.unitAddr q.start, units := b.length / 64, bytes := b,
                                  done := false, mark := 0 }] }

/-! ### Checks of BADPKT that need the state (R323, R325, R330, R339) -/

/-- The active tag of a serial number. -/
def Job.live (j : Job) (tag serial : Nat) : Option Tag := j.tags.find? fun t => t.tag == tag && t.serial == serial

/-- A queue's latest launch that allocated a tag, if the tag is still active; none once it is retired. -/
def State.lastLaunch (s : State) (n : Nat) : Option (Option Tag) :=
  match (s.queue n).bind (·.launch) with
  | none => none
  | some (pid, tag, serial) => some (((s.part pid).bind (·.job)).bind fun j => j.live tag serial)

/-- AFTERTRIG of a packet. -/
def Pkt.afterTrig (p : Pkt) : Bool := natAt p.bytes 3 1 % 2 == 1

/-- The message records of a table at an operand address; none where one breaks the layout of R163. -/
def State.msgTable (s : State) (owner : Nat) : Nat → Nat → Option (List MsgRec)
  | 0, _ => some []
  | n + 1, a =>
    let b := s.operandBytes owner a 16
    let nw := natAt b 9 1
    if 32 < nw ∨ zeroAt b 10 16 = false then none
    else
      (s.msgTable owner n (a + 16 + 8 * nw)).map fun l =>
        { taddr := BitVec.ofNat 64 (natAt b 0 8), cls := BitVec.ofNat 8 (natAt b 8 1),
          words := wordsOf nw (s.operandBytes owner (a + 16) (8 * nw)) } :: l

/-- A LAUNCH's override table, where it names one. -/
def State.override (s : State) (p : Pkt) : Option (Option (List MsgRec)) :=
  if natAt p.bytes 8 8 = 0 then none else some (s.msgTable p.owner (natAt p.bytes 16 4) (natAt p.bytes 8 8))

/-- The park record a packet names. -/
def State.pktPark (s : State) (p : Pkt) : Option Park := s.vest.parks.find? fun x => x.id == natAt p.bytes 14 2

/-- Whether a packet cannot name a parked group of `n` jobs: too many jobs, or targets beyond them (R315). -/
def parkBadPkt (b : List Byte) (n : Nat) : Bool := 40 < n || !zeroAt b (16 + n) 56

/-- The resident jobs with their partitions, in the order of the partitions' numbers. -/
def State.residentJobs (s : State) : List (Nat × Job) := s.vest.parts.filterMap fun e => e.2.job.map fun j => (e.1, j)

/-- The length of an attestation report, with its signature (R339). -/
def State.reportLength (s : State) : Nat := 0x90 + 96 * s.residentJobs.length + 512

/-- Whether a packet is bad for what the state holds: AFTERTRIG with no predecessor, an override table that breaks its layout, targets that
do not fit the parked group, a report that does not fit memory. -/
def State.pktBad (s : State) (p : Pkt) : Bool :=
  match pktCmd p.bytes with
  | .launch => (p.afterTrig && (s.lastLaunch p.n).isNone) || s.override p == some none
  | .rollParked | .rollDiscard => match s.pktPark p with
    | some x => parkBadPkt p.bytes x.jobs.length
    | none => false
  | .attest => Config.hbmBytes < natAt p.bytes 8 8 + s.reportLength
  | _ => false

/-- Whether a packet completes with BADPKT. -/
def State.badPkt (s : State) (p : Pkt) : Bool := !pktOk p.bytes || s.pktBad p

/-- The packet of command `c` that queue `n` can start, if its own condition holds (R324, R330). A packet that BADPKT or PERM refuses
is not held. -/
def State.startable (s : State) (n : Nat) (c : VCmd) (ready : State → Pkt → Bool) : Option Pkt :=
  match s.queue n, s.headOf n with
  | some q, .packet b =>
    let p : Pkt := { n := n, idx := q.headIdx, owner := q.owner, bytes := b }
    if pktCmd b = c ∧ (s.badPkt p ∨ pktPerm q.owner b = false ∨ ready s p) then some p else none
  | _, _ => none

/-- Starts and runs a packet: BADPKT first, PERM second, then the command (R360). -/
def State.runPacket (s : State) (p : Pkt) (run : State → Pkt → State × Answer) : State :=
  let s1 := s.push p.n p.bytes
  if s.badPkt p then s1.complete p.n p.idx stBadPkt 0
  else if pktPerm p.owner p.bytes = false then s1.complete p.n p.idx stPerm 0
  else
    match run s1 p with
    | (s2, some a) => s2.complete p.n p.idx a.1 a.2
    | (s2, none) => s2

/-- The state with a started packet's mark set. -/
def State.markPacket (s : State) (p : Pkt) (m : Nat) : State :=
  s.modQueue p.n fun q => { q with pend := updateWhere q.pend (·.idx == p.idx) fun k => { k with mark := m } }

/-- The first packet of a command that is at work on a queue and whose end has come, with its answer. -/
def State.ending (s : State) (n : Nat) (c : VCmd) (fin : State → Pkt → Packet → Option (Nat × Nat)) : Option (Pkt × Nat × Nat) :=
  match s.queue n, s.hasToken with
  | some q, true =>
    (q.atWork.filterMap fun k =>
      let p : Pkt := { n := n, idx := k.idx, owner := k.owner, bytes := k.bytes }
      if !k.done && pktCmd k.bytes == c then (fin s p k).map fun a => (p, a.1, a.2) else none).head?
  | _, _ => none

/-- A command's event on a queue: one at work that can end does so; else the next packet of the command starts. `after` is what the end
of one does beside its completion. -/
def State.command (s : State) (n : Nat) (c : VCmd) (ready : State → Pkt → Bool) (run : State → Pkt → State × Answer)
    (fin : State → Pkt → Packet → Option (Nat × Nat)) (after : State → Pkt → State) : State :=
  match s.ending n c fin with
  | some (p, st, v) => (after s p).complete n p.idx st v
  | none =>
    match s.startable n c ready with
    | some p => s.runPacket p run
    | none => s

/-- Whether a command's event on a queue has something to do. -/
def State.commandDue (s : State) (n : Nat) (c : VCmd) (ready : State → Pkt → Bool)
    (fin : State → Pkt → Packet → Option (Nat × Nat)) : Bool :=
  (s.ending n c fin).isSome || (s.startable n c ready).isSome

/-- A command that waits for nothing and ends at once. -/
def always : State → Pkt → Bool := fun _ _ => true
def noEnd : State → Pkt → Packet → Option (Nat × Nat) := fun _ _ _ => none
def noAfter : State → Pkt → State := fun s _ => s

/-! ### Doorbells (R321, R328, R334) -/

/-- The halt of a queue whose packet is longer than its ring, and the refusal of a packet that is no command. -/
def State.headFault (s : State) (n : Nat) : State :=
  match s.headOf n with
  | .overlong => (s.modQueue n fun q => { q with state := 1, hstat := stOverLen }).syncQueue n
  | .packet b =>
    if pktCmd b = .bad then
      match s.queue n with
      | some q => (s.push n b).complete n q.headIdx stBadPkt 0
      | none => s
    else s
  | .none => s

/-- Whether the head of a queue is a fault. -/
def State.headFaulty (s : State) (n : Nat) : Bool :=
  match s.headOf n with
  | .overlong => true
  | .packet b => pktCmd b == .bad
  | .none => false

/-- R321: a doorbell token is accepted or discarded. With none waiting, the head of the queue is looked at: an over-long packet halts it
(R328), an unassigned command completes with BADPKT. -/
def execDoorbell (q : Nat) (s : State) : Result :=
  match s.vest.tokens.find? (·.1 == q) with
  | some t =>
    .next (((s.modVest fun v => { v with tokens := v.tokens.erase t }).modQueue q fun k => k.ring false t.2).syncQueue q)
  | none => .next (s.headFault q)

/-- The tail shadow of a queue, applied exactly as a doorbell. -/
def State.reconcile (s : State) (n : Nat) : State :=
  match s.queue n with
  | some q => (s.modQueue n fun k => k.ring true (s.read64 (q.ctl + 8))).syncQueue n
  | none => s

/-- A timer's token: with room in the matching store its work is done, else it waits (R334). -/
def State.onTimer (s : State) (timer : Bool × Nat) (work : State → State) : State :=
  if s.hasToken then (work s).modVest fun v => { v with timers := v.timers.erase timer }
  else if s.vest.timers.contains timer then s
  else s.modVest fun v => { v with timers := v.timers ++ [timer] }

/-- Whether a timer's token is due: its period is over, or it has waited and finds room. -/
def State.timerDue (s : State) (timer : Bool × Nat) (elapsed : Bool) : Bool := elapsed || (s.hasToken && s.vest.timers.contains timer)

/-- R321: a reconcile pass reads TAILSH. -/
def execReconcilePass (q : Nat) (s : State) : Result := .next (s.onTimer (true, q) fun s => s.reconcile q)

/-! ### CREATEQ and DESTROYQ (R320, R328) -/

/-- Whether a number of units is a power of two from 2 to 65,536. -/
def unitsOk (n : Nat) : Bool := (List.range 16).any fun i => n == 2 ^ (i + 1)

/-- CREATEQ: the queue is created or replaced from its control block, whose address the host's packet gives as a physical one. A replaced
queue that was halted has its tail shadow read; its commands at work go on. BADQ is for a control block that is no aligned 64 bytes of HBM, a
BASE or NUNITS that R320 does not allow, and an owner that is no partition; a running queue may be replaced (DESIGN CHOICE, log entry 84). -/
def State.createq (s : State) (p : Pkt) : State × Answer :=
  let n := natAt p.bytes 8 2
  let a := natAt p.bytes 16 8
  let owner := p.part
  let base := (s.read64 (a + 32)).toNat
  let units := (s.read64 (a + 40)).toNat
  if a % 64 ≠ 0 ∨ Config.hbmBytes < a + 64 ∨ base % 64 ≠ 0 ∨ unitsOk units = false ∨ (owner ≠ 0 ∧ (s.part owner).isNone) then
    (s, some (stBadQ, 0))
  else
    let q : Queue := { ctl := a, base := base, units := units, owner := owner, state := 0, hstat := 0, seq := 0, tail := 0, head := 0,
                       start := 0, drops := 0, passed := false, pend := [], gen := 0, former := [], launch := none }
    match s.queue n with
    | none => ((s.modVest fun v => { v with queues := mput v.queues n q }).syncQueue n, some (stOk, 0))
    | some old =>
      let s1 := (s.modVest fun v =>
        { v with queues := mput v.queues n { q with gen := old.gen + 1, former := old.atWork.filter fun p => !p.done } }).syncQueue n
      (if old.state = 1 then s1.reconcile n else s1, some (stOk, 0))

/-- The packets of a queue that have not started complete with DISCARDED (R328). -/
def State.discard (s : State) (n : Nat) : Nat → State
  | 0 => s
  | fuel + 1 =>
    match s.queue n with
    | none => s
    | some q =>
      if q.known = 0 then s
      else
        let u := Nat.min (natAt (s.units q q.start 1) 1 1 % 16 + 1) q.known
        ((s.push n (s.units q q.start u)).complete n q.headIdx stDiscarded 0).discard n fuel

/-- DESTROYQ. -/
def State.destroyq (s : State) (p : Pkt) : State × Answer :=
  let n := natAt p.bytes 8 2
  match s.queue n with
  | none => (s, some (stBadQ, 0))
  | some q =>
    if q.state = 2 then (s, some (stBadQ, 0))
    else (((s.discard n q.known).modQueue n fun q => { q with state := 2 }).syncQueue n, some (stOk, 0))

/-- R320: CREATEQ. -/
def execCreateq (q : Nat) (s : State) : Result := .next (s.command q .createq always State.createq noEnd noAfter)

/-- R328: DESTROYQ. -/
def execDestroyq (q : Nat) (s : State) : Result := .next (s.command q .destroyq always State.destroyq noEnd noAfter)

end Sys2Proof.Machine
end

