-- ==== Sys2Proof/Machine/Launch.lean ====
section
/-! DEFINITION. Launches, frame tags and their completion, signals, and messages from and to the host (spec/ 05 R91 to R94; 25 R327, R329
to R333). -/

namespace Sys2Proof.Machine

/-! ### Messages of the Vestibule (R327, R335) -/

/-- The package and tile a Vestibule operand names, if they lie in a partition: 0x7FFE is the own package; 0xFFF names no tile (R22,
R327). The numbers are the job's (R318; log entry 21). A word with a bit above bit 26 names no tile of the partition: PARTITION rather than
BADPKT (DESIGN CHOICE, log entry 84). -/
def State.vestDest (s : State) (p : Partition) (taddr : Word) : Option (Nat × Nat) :=
  let pkg := s.partPkg p (taddr.extractLsb' 12 15).toNat
  let t := s.partTile p pkg (taddr.extractLsb' 0 12).toNat
  if taddr.extractLsb' 27 37 = 0 ∧ s.partHas p pkg t then some (pkg, t) else none

/-- The header of a message the Vestibule sends to a tile. Its MSEQ comes from one counter of the Vestibule, which its own messages and the
host's records share and no job load resets: R67 gives a counter of source tiles alone (DESIGN CHOICE, log entry 79). -/
def State.vestHeader (s : State) (cls : BitVec 8) (prio : BitVec 2) (ftag nwords : Nat) (dest : Nat × Nat) : Header :=
  { kind := 0, cls := cls, prio := prio, ftag := BitVec.ofNat 12 ftag, nflit := BitVec.ofNat 2 ((nwords + 7) / 8 - 1),
    dpkg := BitVec.ofNat 15 dest.1, dtile := BitVec.ofNat 12 dest.2, spkg := BitVec.ofNat 15 s.pkg,
    stile := BitVec.ofNat 12 Config.vestibuleNode, mseq := s.vest.mseq }

/-- Payload words filled up to whole flits. -/
def padWords (h : Header) (ws : List Word) : List Word := ws ++ List.replicate (8 * (h.nflit.toNat + 1) - ws.length) 0

/-- The Vestibule injects a message into a partition, and the ingress replay log of its group records it (R307). -/
def State.vestSend (s : State) (pid : Nat) (h : Header) (ws : List Word) (queue : Nat) (replay : Bool) : State :=
  let s1 := s.modVest fun v => { v with mseq := v.mseq + 1, out := v.out ++ [{ hdr := h, body := .words (padWords h ws) }] }
  match (s.part pid).bind (·.job) with
  | some j =>
    if replay then
      let serial := ((j.tags.find? fun t => t.tag == h.ftag.toNat).map (·.serial)).getD 0
      s1.modGroup j.group fun g =>
        if g.logging then
          { g with replay := g.replay ++ [{ pid := pid, queue := queue, serial := serial, hdr := h, words := padWords h ws }] }
        else g
    else s1
  | none => s1

/-- Counts a message the Vestibule sends for a tag (R93). -/
def Job.countSent (j : Job) (tag : Nat) : Job :=
  { j with tags := updateWhere j.tags (fun t => t.tag == tag) fun t => { t with sent := t.sent + 1 } }

/-- Whether the Vestibule may send a class for a command: VALID, not SYS, not architectural (R71, R327). -/
def Job.vestClassOk (j : Job) (cls : BitVec 8) : Bool := j.classOk cls

/-! ### LAUNCH (R329, R330) -/

/-- The tag after `t`, cyclically through 1 to 4,095. -/
def nextTagAfter (t : Nat) : Nat := t % 4095 + 1

/-- The first tag after `t` that is not active. -/
def Job.freeTag (j : Job) : Nat → Nat → Nat
  | 0, t => nextTagAfter t
  | n + 1, t => if j.tags.any (fun g => g.tag == nextTagAfter t) then j.freeTag n (nextTagAfter t) else nextTagAfter t

/-- Whether a LAUNCH can start (R329, R330): its predecessor has triggered or is retired, and a tag is free. One for a sealed job is not
held: it is answered SEALED (R340). -/
def State.launchReady (s : State) (p : Pkt) : Bool :=
  (match s.part p.part with
    | some q => q.job.isSome && q.sealed_
    | none => false)
  || (match p.afterTrig, s.lastLaunch p.n with
    | true, some (some t) => natAt p.bytes 20 2 ≤ t.trigs
    | _, _ => true)
  && (match (s.part p.part).bind (·.job) with
    | some j => j.tags.length < Config.activeTags
    | none => true)

/-- The first fault of message records in table order, each checked for its class and then its tile (R360). -/
def State.msgFault (s : State) (p : Partition) (j : Job) : List MsgRec → Option Nat
  | [] => none
  | m :: ms =>
    if j.vestClassOk m.cls = false then some stBadClass
    else if (s.vestDest p m.taddr).isNone then some stPartition
    else s.msgFault p j ms

/-- Sends one record of a launch. -/
def State.sendRecord (s : State) (pid tag queue : Nat) (m : MsgRec) : State :=
  match s.part pid with
  | none => s
  | some p =>
    match p.job, s.vestDest p m.taddr with
    | some j, some t =>
      (s.vestSend pid (s.vestHeader m.cls (j.prioOf m.cls) tag m.words.length t) m.words queue true).modJob pid fun j => j.countSent tag
    | _, _ => s

/-- LAUNCH: a tag is allocated and every message injected, or none. -/
def State.launch (s : State) (k : Pkt) : State × Answer :=
  match s.part k.part with
  | none => (s, some (stNoJob, 0))
  | some p =>
    match p.job with
    | none => (s, some (stNoJob, 0))
    | some j =>
      let ms := match s.override k with
        | some l => l.getD []
        | none => j.msgs
      if p.sealed_ then (s, some (stSealed, 0))
      else
        match s.msgFault p j ms with
        | some e => (s, some (e, 0))
        | none =>
          let tag := j.freeTag Config.activeTags j.lastTag
          let serial := s.vest.nextId
          let s1 := (s.modJob k.part fun j =>
            { j with lastTag := tag,
                     tags := j.tags ++ [{ tag := tag, serial := serial, queue := k.n, trigs := 0, sent := 0, recv := 0,
                                          sweep := none }] }).modVest fun v => { v with nextId := v.nextId + 1 }
          let s2 := ms.foldl (fun s m => s.sendRecord k.part tag k.n m) s1
          (s2.modQueue k.n fun q => { q with launch := some (k.part, tag, serial) }, some (stOk, tag))

/-- R329: LAUNCH. -/
def execLaunch (q : Nat) (s : State) : Result := .next (s.command q .launch State.launchReady State.launch noEnd noAfter)

/-! ### WAITTAG (R325) -/

/-- The serial number of the launch a WAITTAG waits for; 0 where it waits for none. -/
def State.waitSerial (s : State) (k : Pkt) (j : Job) : Nat :=
  if natAt k.bytes 8 2 = 0 then
    match s.lastLaunch k.n with
    | some (some t) => t.serial
    | _ => 0
  else
    match j.tags.find? fun t => t.tag == natAt k.bytes 8 2 with
    | some t => t.serial
    | none => 0

/-- WAITTAG: it ends at once, or waits with the launch's serial number as its mark. -/
def State.waittag (s : State) (k : Pkt) : State × Answer :=
  match (s.part k.part).bind (·.job) with
  | none => (s, some (stNoJob, 0))
  | some j =>
    let n := s.waitSerial k j
    if n = 0 then (s, some (stOk, 0)) else (s.markPacket k n, none)

/-- Whether a launch is still active in some job. -/
def State.serialLive (s : State) (n : Nat) : Bool :=
  s.vest.parts.any fun e => match e.2.job with
    | some j => j.tags.any fun t => t.serial == n
    | none => false

/-- The end of a WAITTAG: its tag is retired. (An unload ends it with KILLED, where the job goes; a rollback makes tags anew.) -/
def State.waitEnd (s : State) (_ : Pkt) (k : Packet) : Option (Nat × Nat) :=
  if s.serialLive k.mark ∨ s.vest.rolls ≠ [] then none else some (stOk, 0)

/-- R325: WAITTAG. -/
def execWaittag (q : Nat) (s : State) : Result := .next (s.command q .waittag always State.waittag State.waitEnd noAfter)

/-! ### SIGNAL (R327) -/

/-- SIGNAL: one message into a partition. -/
def State.signal (s : State) (k : Pkt) : State × Answer :=
  match s.part k.part with
  | none => (s, some (stNoJob, 0))
  | some p =>
    match p.job with
    | none => (s, some (stNoJob, 0))
    | some j =>
      let tag := natAt k.bytes 18 2
      let cls := BitVec.ofNat 8 (natAt k.bytes 16 1)
      if p.sealed_ then (s, some (stSealed, 0))
      else if tag ≠ 0 ∧ j.tags.any (fun t => t.tag == tag) = false then (s, some (stNoTag, 0))
      else if j.vestClassOk cls = false then (s, some (stBadClass, 0))
      else
        match s.vestDest p (BitVec.ofNat 64 (natAt k.bytes 8 8)) with
        | none => (s, some (stPartition, 0))
        | some t =>
          let ws := wordsOf (natAt k.bytes 17 1) (k.bytes.drop 24)
          ((s.vestSend k.part (s.vestHeader cls (j.prioOf cls) tag ws.length t) ws k.n true).modJob k.part fun j => j.countSent tag,
            some (stOk, 0))

/-- R327: SIGNAL. -/
def execSignal (q : Nat) (s : State) : Result := .next (s.command q .signal always State.signal noEnd noAfter)

/-! ### The completion of launches (R93, R94) -/

/-- Whether a tile is busy for a frame tag (R93). -/
def Tile.busyFor (x : Tile) (tag : BitVec 12) : Bool :=
  (x.land.slots ++ x.land.spill).any (fun e => e.hdr.ftag == tag)
    || x.land.again.any (fun a => a.entry.hdr.ftag == tag)
    || x.ctxs.toList.any (fun k => k.run != .idle && k.ftag == tag)
    || (x.matrix.cmds ++ x.matrix.ended ++ x.copy.cmds).any (fun k => k.ftag == tag)
    || x.cnt.actions.any (fun a => a.ftag == tag)
    || x.cnt.held.any (fun h => h.ftag == tag)
    || x.cnt.adds.any (fun h => h.ftag == tag)
    || x.mu.out.any (fun o => o.ftag == tag)
    || (match x.land.reserved with
        | some f => f.hdr.ftag == tag
        | none => false)
    || x.land.logged.any (fun f => f.hdr.ftag == tag)

/-- The sums of SENT and RECV of a tag over a partition's tiles and the Vestibule, and whether any tile is busy. -/
def State.sweepTag (s : State) (p : Partition) (t : Tag) : Nat × Nat × Bool :=
  let tag := BitVec.ofNat 12 t.tag
  let figs := p.tiles.map fun n => (mget (s.getTile n).figs t.tag).getD (0, 0)
  ((figs.map (·.1)).sum + t.sent, (figs.map (·.2)).sum + t.recv, p.tiles.any fun n => (s.getTile n).busyFor tag)

/-- One sweep of a tag: it is freed if this sweep and the one before both find it balanced and idle, with equal totals. -/
def State.sweepOne (s : State) (pid : Nat) (t : Tag) : State :=
  match s.part pid with
  | none => s
  | some p =>
    let (sent, recv, busy) := s.sweepTag p t
    if busy = false ∧ sent = recv ∧ t.sweep = some (sent, recv) then
      (p.tiles.foldl (fun s n => s.modTile n fun x => { x with figs := mdel x.figs t.tag }) s).modJob pid fun j =>
        { j with tags := j.tags.filter fun g => g.serial != t.serial || g.tag != t.tag }
    else
      s.modJob pid fun j =>
        { j with tags := updateWhere j.tags (fun g => g.serial == t.serial && g.tag == t.tag) fun g =>
            { g with sweep := if busy = false ∧ sent = recv then some (sent, recv) else none } }

/-- A sweep of the active tags of a partition that is not sealed. -/
def State.sweepPart (s : State) (pid : Nat) : State :=
  match (s.part pid).filter fun p => !p.sealed_ with
  | some p => match p.job with
    | some j => j.tags.foldl (fun s t => s.sweepOne pid t) s
    | none => s
  | none => s

/-- R94: the Vestibule reads every tile's figures for the partition's active tags; the result is a token (R334). -/
def execLaunchSweep (pid : Nat) (s : State) : Result := .next (s.onTimer (false, pid) fun s => s.sweepPart pid)

/-! ### The host (R332, R333) -/

/-- Whether word 0 of a record names this package, by its own number, as 0x7FFE, or by the number that a renamed job has for it (R318,
R332). -/
def State.recordHere (s : State) (w : Word) : Bool :=
  let pkg := (w.extractLsb' 12 15).toNat
  pkg == s.pkg || pkg == Config.thisPackage || match s.part (w.extractLsb' 32 6).toNat with
    | some p => p.job.isSome && s.partPkg p pkg == s.pkg
    | none => false

/-- R332: a record written to an ingress mailbox is injected as a class-0xFC message, absorbed under a seal, or dropped and counted. One for
another package is for that package's Vestibule to inject or to drop, whatever the partition id names here (log entry 14). -/
def execHostinRecord (mailbox : Nat) (rec : List Word) (s : State) : Result :=
  let w := rec.getD 0 0
  if s.recordHere w = false then .next s else
  let drop := { s with host := { s.host with drops := mput s.host.drops mailbox ((mget s.host.drops mailbox).getD 0 + 1) } }
  let pid := (w.extractLsb' 32 6).toNat
  let q := (w.extractLsb' 48 12).toNat
  match s.part pid with
  | none => .next drop
  | some p =>
    if p.job.isNone ∨ w.extractLsb' 27 5 ≠ 0 ∨ w.extractLsb' 38 10 ≠ 0 ∨ w.extractLsb' 60 4 ≠ 0 then .next drop
    else
      match s.vestDest p ((w.extractLsb' 0 27).setWidth 64) with
      | none => .next drop
      | some t =>
        if t.1 ≠ s.pkg then .next s
        else if p.sealed_ then .next (s.absorb pid)
        else
          let h := { s.vestHeader 0xFC 0 0 8 t with spkg := BitVec.ofNat 15 Config.hostPackage, stile := BitVec.ofNat 12 q }
          .next (s.vestSend pid h ((List.range 7).map fun i => rec.getD (i + 1) 0) 0 true)

/-- The message for the host that is delivered next: it is whole, and its ring has room. -/
def State.egressNext (s : State) : Option Entry :=
  s.host.inbox.find? fun e => e.complete && (s.host.ring e.hdr.dtile.toNat).recs.length < (s.host.ring e.hdr.dtile.toNat).size

/-- R333: a message for the host is written to its egress ring, laid out as in R76, and the Vestibule counts it as received (R93): with the
tags of the job, so where the partition is on this package. The tags of a partition that lies wholly on other packages of the group are not
in this state (log entry 14). -/
def execEgressDelivery (s : State) : Result :=
  match s.egressNext with
  | none => .next s
  | some e =>
    let q := e.hdr.dtile.toNat
    let r := s.host.ring q
    let s1 : State :=
      { s with host := { s.host with
          inbox := s.host.inbox.erase e
          egress := mput s.host.egress q { r with recs := r.recs ++ [wordsOf 36 e.bytes] } } }
    match s1.partAt e.hdr.spkg.toNat e.hdr.stile.toNat with
    | some (pid, _) =>
      .next (s1.modJob pid fun j =>
        { j with tags := updateWhere j.tags (fun t => t.tag == e.hdr.ftag.toNat) fun t => { t with recv := t.recv + 1 } })
    | none => .next s1

/-- R333: the host consumes records of a ring. -/
def execEgressRingConsumed (q n : Nat) (s : State) : Result :=
  let r := s.host.ring q
  .next { s with host := { s.host with egress := mput s.host.egress q { r with recs := r.recs.drop n } } }

end Sys2Proof.Machine
end

