-- ==== Sys2Proof/Machine/Image.lean ====
section
/-! DEFINITION. Reading and checking an Omior image (spec/ 05 R70; 09 R161 to R164). -/

namespace Sys2Proof.Machine

/-! ### Sections -/

/-- A section entry (R163). -/
structure Section where
  kind : Nat
  tset : Nat
  addr : Nat
  len  : Nat
  doff : Nat
  dlen : Nat
  /-- bytes 1 and 4 to 7 are zero -/
  zero : Bool
deriving DecidableEq, Repr

/-- Whether an image has its header, class table and section table. -/
def imgWhole (b : List Byte) : Bool := 0x880 ≤ b.length && 0x880 + 32 * natAt b 6 2 ≤ b.length

/-- The section table. -/
def imgSections (b : List Byte) : List Section :=
  (List.range (natAt b 6 2)).map fun i =>
    let e := (b.drop (0x880 + 32 * i)).take 32
    { kind := natAt e 0 1, tset := natAt e 2 2, addr := natAt e 8 8, len := natAt e 16 8, doff := natAt e 24 4, dlen := natAt e 28 4,
      zero := zeroAt e 1 2 && zeroAt e 4 8 }

/-- The payload of a section. -/
def Section.payload (x : Section) (b : List Byte) : List Byte := (b.drop x.doff).take x.dlen

/-- The sections of a kind. -/
def ofKind (k : Nat) (l : List Section) : List Section := l.filter (·.kind == k)

/-- Bytes cut into records of a size. -/
def records (size : Nat) (b : List Byte) : List (List Byte) :=
  (List.range (b.length / size)).map fun i => (b.drop (size * i)).take size

/-- Tile lists of a TILES payload: each a count and so many numbers; one past the payload reads 0 (DESIGN CHOICE, log entry 67). -/
def tileLists : Nat → List Byte → List (List Nat)
  | 0, _ => []
  | n + 1, b =>
    if b.length < 2 then []
    else
      let k := natAt b 0 2
      ((List.range k).map fun i => natAt b (2 + 2 * i) 2) :: tileLists n (b.drop (2 + 2 * k))

/-- The tile lists of an image: those of its first TILES section (DESIGN CHOICE, log entry 67). -/
def imgLists (b : List Byte) : List (List Nat) :=
  match ofKind 8 (imgSections b) with
  | x :: _ => tileLists (x.dlen / 2) (x.payload b)
  | [] => []

/-- The tiles of a section's TSET; 0xFFFF is none. -/
def Section.tiles (x : Section) (b : List Byte) : List Nat := if x.tset = 0xFFFF then [] else (imgLists b).getD x.tset []

/-- The message records of a MESSAGES payload (R163); none where one breaks the layout. -/
def imgRecords : Nat → List Byte → Option (List MsgRec)
  | _, [] => some []
  | 0, _ => none
  | n + 1, b =>
    let nw := natAt b 9 1
    if b.length < 16 + 8 * nw ∨ 32 < nw ∨ zeroAt b 10 16 = false then none
    else
      (imgRecords n (b.drop (16 + 8 * nw))).map fun l =>
        { taddr := BitVec.ofNat 64 (natAt b 0 8), cls := BitVec.ofNat 8 (natAt b 8 1), words := wordsOf nw (b.drop 16) } :: l

/-- The messages of an image. -/
def imgMessages (b : List Byte) : Option (List MsgRec) :=
  (ofKind 6 (imgSections b)).foldl (fun acc x => match acc, imgRecords (x.dlen / 16 + 1) (x.payload b) with
    | some l, some m => some (l ++ m)
    | _, _ => none) (some [])

/-- A counter record (R163). -/
structure CounterRec where
  tile : Nat
  id   : Nat
  armed : Bool
  value : Word
  target : Word
  action : Word
deriving DecidableEq, Repr

/-- The counter records of an image. -/
def imgCounters (b : List Byte) : List CounterRec :=
  (ofKind 5 (imgSections b)).flatMap fun x => (records 32 (x.payload b)).map fun r =>
    { tile := natAt r 0 2, id := natAt r 2 1, armed := natAt r 3 1 % 2 == 1, value := BitVec.ofNat 64 (natAt r 8 8),
      target := BitVec.ofNat 64 (natAt r 16 8), action := BitVec.ofNat 64 (natAt r 24 8) }

/-- The windows of an image (R163). -/
def imgWindows (b : List Byte) : List Window :=
  (ofKind 7 (imgSections b)).flatMap fun x => (records 64 (x.payload b)).map fun r =>
    { name := r.take 16, partner := (r.drop 16).take 16, guest := natAt r 32 1 == 1, rw := natAt r 33 1 == 1, tile := natAt r 36 2,
      va := natAt r 40 8, len := natAt r 48 8, off := natAt r 56 8 }

/-- The class table (R70): the SYS bit is cleared in entries of an image. -/
def imgClasses (b : List Byte) : List Word :=
  (wordsOf 256 (b.drop 0x80)).map fun w => w &&& ~~~0x10

/-- The declared ranges (R163): TEXT sections, executable, and DATA ranges. -/
def imgRanges (b : List Byte) : List Range :=
  (imgSections b).filterMap fun x =>
    if x.kind = 1 then some { va := x.addr, len := x.len, x := true }
    else if x.kind = 2 then some { va := x.addr, len := x.len, x := false } else none

/-- The pages backed at load (R163): all of a TEXT section, and the payload of a DATA range, with whether they are text. -/
def imgPages (b : List Byte) : List (Nat × Bool) :=
  let span := fun (x : Section) => if x.kind = 1 then x.len else x.dlen
  let pages := (imgSections b).flatMap fun x =>
    if (x.kind = 1 ∨ x.kind = 2) ∧ span x ≠ 0 then
      (List.range ((x.addr + span x - 1) / 0x10000 - x.addr / 0x10000 + 1)).map fun i => (x.addr / 0x10000 + i, x.kind == 1)
    else []
  pages.foldl (fun l p => if l.any fun q => q.1 == p.1 then l else l ++ [p]) []

/-! ### The header -/

def imgQdepth (b : List Byte) : Nat := natAt b 0x28 8
def imgGallery (b : List Byte) : Nat := natAt b 0x50 4
def imgAccq (b : List Byte) : Nat := natAt b 0x20 8 % 32
def imgRings (b : List Byte) : List Nat := (List.range 4).map fun p => natAt b 0x58 8 / 2 ^ (12 * p) % 4096
def imgSnap (b : List Byte) : Bool := natAt b 0x3D 1 % 2 == 1

/-! ### BADIMAGE -/

/-- Whether two byte ranges overlap. -/
def overlap (a n c m : Nat) : Bool := n != 0 && m != 0 && a < c + m && c < a + n

/-- Whether two elements of a list, at different places, are related. -/
def anyPair {α : Type} (r : α → α → Bool) : List α → Bool
  | [] => false
  | x :: l => l.any (r x) || anyPair r l

/-- Whether two sections of one kind overlap: by address, and for scratchpad sections on a tile of both. -/
def sectionsOverlap (b : List Byte) (x y : Section) : Bool :=
  x.kind == y.kind && overlap x.addr x.len y.addr y.len &&
    (x.kind ≤ 2 || (x.tiles b).any (y.tiles b).contains)

/-- Whether a TEXT section and a DATA range touch one page (R160). -/
def sharePage (x y : Section) : Bool :=
  x.kind == 1 && y.kind == 2 && x.len != 0 && y.len != 0 &&
    x.addr / 0x10000 ≤ (y.addr + y.len - 1) / 0x10000 && y.addr / 0x10000 ≤ (x.addr + x.len - 1) / 0x10000

/-- Whether a section entry breaks R163 or R164 by itself. DESIGN CHOICE (log entry 67): R164 has no status for a payload that is not 8-aligned
or overlaps the header or tables, for DLEN above LENGTH in types 4 to 9, or for an EMPTY entry with a payload, and these are accepted. -/
def Section.broken (x : Section) (b : List Byte) : Bool :=
  !x.zero || x.kind == 0 || 10 ≤ x.kind || b.length < x.doff + x.dlen
    || ([1, 2, 3].contains x.kind && x.len < x.dlen)
    || (x.kind == 1 && x.addr % 2 != 0)
    || ((x.kind == 1 || x.kind == 2) && Config.systemTextVa < x.addr + x.len)
    || (x.kind == 4 && (x.addr % 16 != 0 || x.len % 16 != 0))
    || (x.kind == 5 && (x.dlen % 32 != 0 || (records 32 (x.payload b)).any fun r => natAt r 3 1 / 2 != 0 || !zeroAt r 4 8))
    || (x.kind == 7 && (x.dlen % 64 != 0 || (records 64 (x.payload b)).any fun r =>
        1 < natAt r 32 1 || 1 < natAt r 33 1 || !zeroAt r 34 36 || !zeroAt r 38 40 || natAt r 40 8 % 0x10000 != 0
          || natAt r 48 8 % 0x10000 != 0 || natAt r 48 8 == 0 || natAt r 56 8 % 0x10000 != 0))
    || (x.kind == 9 && x.dlen % 2 != 0)

/-- Whether the header breaks R162: magic, version, reserved fields. R164 names no status for a GALLERY that is no multiple of 64 KiB or a
CTXRES above 7: BADIMAGE too (DESIGN CHOICE, log entry 85). -/
def imgHeaderBroken (b : List Byte) : Bool :=
  b.take 4 != [0x4F, 0x4D, 0x49, 0x4F] || natAt b 4 2 != 1 || natAt b 0x20 8 / 32 != 0 || natAt b 0x28 8 / 2 ^ 24 != 0
    || 7 < natAt b 0x3C 1 || natAt b 0x3D 1 / 4 != 0 || !zeroAt b 0x54 0x58 || natAt b 0x58 8 / 2 ^ 48 != 0 || !zeroAt b 0x60 0x80
    || imgGallery b % 0x10000 != 0

/-- BADIMAGE (R164). -/
def imgBad (b : List Byte) : Bool :=
  !imgWhole b || imgHeaderBroken b || (imgSections b).any (fun x => x.broken b) || anyPair (sectionsOverlap b) (imgSections b)
    || (imgSections b).any (fun x => (imgSections b).any fun y => sharePage x y) || (imgMessages b).isNone

/-! ### The other statuses of R164, in its order -/

/-- NOCLASS (R70): a VALID entry with an odd address, an architectural class that is not VALID, a reserved bit. -/
def imgNoClass (b : List Byte) : Bool :=
  let t := wordsOf 256 (b.drop 0x80)
  t.any (fun w => (w.extractLsb' 0 1 == 1 && w.extractLsb' 8 1 == 1) || w.extractLsb' 3 1 == 1 || w.extractLsb' 5 3 != 0)
    || (t.drop 0xFC).any fun w => w.extractLsb' 0 1 == 0

/-- BADSRAM (R110). -/
def imgBadSram (b : List Byte) : Bool :=
  16 < imgAccq b || (imgSections b).any fun x =>
    (x.kind == 3 || x.kind == 4) && scratchBytes (BitVec.ofNat 5 (imgAccq b)) < x.addr + x.len

/-- Whether a list names the same numbers as another. -/
def sameSet (a b : List Nat) : Bool := a.all b.contains && b.all a.contains

/-- The tile and package of a message record lie in the partition. -/
def State.recordIn (s : State) (p : Partition) (m : MsgRec) : Bool :=
  (s.vestDest p m.taddr).isSome

/-- BADTILES, for a partition on packages `pkgs`: with a renaming table, the image's numbers are the job's. R164 names no status for a TSET
that names no list of the TILES section: BADTILES too (DESIGN CHOICE, log entry 85). -/
def State.imgBadTiles (s : State) (b : List Byte) (p : Partition) (pkgs : List Nat) : Bool :=
  let own := p.tiles.map p.jobTile
  !sameSet ((imgLists b).getD 0 []) own || !sameSet ((imgLists b).getD 1 []) pkgs
    || (imgSections b).any (fun x => x.tset != 0xFFFF && ((imgLists b).length ≤ x.tset || !(x.tiles b).all own.contains))
    || (imgCounters b).any (fun c => !own.contains c.tile)
    || (match imgMessages b with
        | some l => l.any fun m => !s.recordIn p m
        | none => true)

/-- Host egress queues an image grants. -/
def imgHostq (b : List Byte) : List Nat := (ofKind 9 (imgSections b)).flatMap fun x => (records 2 (x.payload b)).map fun r => natAt r 0 2

/-- Whether CARM would take a record's TARGET and ACTION (R88): an ACTION of zero always passes. Tile 0xFFF is the sender's own (R30). -/
def State.imgCounterOk (s : State) (b : List Byte) (p : Partition) (c : CounterRec) : Bool :=
  let a := c.action
  let k := actionKind a
  let n := actionSpan k
  let o := actionOffset a
  let cls := (imgClasses b).getD (actionClass a).toNat 0
  let d := actionTaddr a
  let t := (d.extractLsb' 0 12).toNat
  let pkg := s.partPkg p (d.extractLsb' 12 15).toNat
  a == 0 ||
    (k ≤ 5 && a.extractLsb' 5 3 == 0 && (n == 0 || o % n == 0 && o + n ≤ scratchBytes (BitVec.ofNat 5 (imgAccq b)))
      && (k != 1 && k != 4 || (actionClass a).toNat < 0xFC && cls.extractLsb' 0 1 == 1)
      && !(actionAuto a && c.target == 0)
      && (k != 4 || (if pkg = Config.hostPackage then (imgHostq b).contains t
            else s.partHas p pkg (if t = 0xFFF then p.realTile c.tile else s.partTile p pkg t))))

/-- BUDGET: QDEPTH, GALLERY and RINGS within the partition's, at least one freeze-log record. -/
def imgOverBudget (b : List Byte) (p : Partition) : Bool :=
  let depths := (List.range 4).map fun i => imgQdepth b / 64 ^ i % 64
  63 < depths.sum || p.landing < depths.sum || p.gallery < imgGallery b || (imgRings b).any (· == 0)
    || imgGallery b < 288 * ((imgRings b).sum + 1)

/-- The first status of R164 that applies. -/
def State.imgFault (s : State) (b : List Byte) (p : Partition) (pkgs : List Nat) : Option Nat :=
  if imgBad b then some stBadImage
  else if imgNoClass b then some stNoClass
  else if imgBadSram b then some stBadSram
  else if s.imgBadTiles b p pkgs then some stBadTiles
  else if (imgCounters b).any (fun c => !s.imgCounterOk b p c) then some stBadCounter
  else if imgOverBudget b p then some stBudget
  else if p.quota < 0x10000 * (imgPages b).length then some stNoQuota
  else none

end Sys2Proof.Machine
end

