-- ==== Sys2Proof/Machine/Loader.lean ====
section
/-! DEFINITION. Loading and unloading of jobs: LOADJOB, UNLOADJOB and UNLOADJOB with KEEP (spec/ 09 R163, R164; 25 R325, R335, R338; 23
R315; 01 R35). -/

namespace Sys2Proof.Machine

/-! ### What an image puts into memory (R163) -/

/-- Writes bytes at a virtual address of a partition, page by page. -/
def State.writeVirtual (s : State) (pid va : Nat) (bs : List Byte) : Nat → State
  | 0 => s
  | n + 1 =>
    let room := 0x10000 - va % 0x10000
    let s1 := match (s.part pid).bind fun p => s.leafIn p va with
      | some l => s.write (ptePa l.pte + (va - l.base)) (bs.take room)
      | none => s
    if bs.length ≤ room then s1 else s1.writeVirtual pid (va + room) (bs.drop room) n

/-- Backs every page that is backed at load; none if that fails. -/
def State.backPages (s : State) (pid : Nat) : List (Nat × Bool) → Option State
  | [] => some s
  | (n, x) :: l =>
    match s.backPage pid (n * 0x10000) x with
    | some s1 => s1.backPages pid l
    | none => none

/-- The payloads of TEXT sections and DATA ranges. -/
def State.fillPages (s : State) (pid : Nat) (b : List Byte) : State :=
  (imgSections b).foldl (fun s x =>
    if (x.kind = 1 ∨ x.kind = 2) ∧ x.dlen ≠ 0 then s.writeVirtual pid x.addr (x.payload b) (x.dlen / 0x10000 + 2) else s) s

/-! ### Tiles -/

/-- A tile of a partition with nothing on it: its own identity and the registers that are not the job's stay. -/
def Tile.cleared (x : Tile) : Tile :=
  { Tile.reset with
    regs := { TileRegs.reset with
      pid := x.regs.pid, asid := x.regs.asid, xpkg := x.regs.xpkg, xroot := x.regs.xroot, errCnt := x.regs.errCnt, cec := x.regs.cec
      gold := x.regs.gold, scrdiv := x.regs.scrdiv, scrub := x.regs.scrub, migcnt := x.regs.migcnt } }

/-- A pool of zeros with every FULL bit set. -/
def State.zeroPool (s : State) (t : Nat) : State :=
  let lo := poolBase t
  let hi := lo + Config.poolBytes
  { s with mem := memZero s.mem lo hi, empty := s.empty.filter (fun g => !(lo / 16 ≤ g && g < hi / 16))
           bad := s.bad.filter fun b => !(lo ≤ b.1 && b.1 < hi) }

/-- The registers an image gives a tile (R162). -/
def imgRegs (b : List Byte) (r : TileRegs) : TileRegs :=
  { r with
    jobid := BitVec.ofNat 64 (natAt b 0x18 8), qdepth := BitVec.ofNat 24 (imgQdepth b), agelim := BitVec.ofNat 32 (natAt b 0x30 4)
    promo := BitVec.ofNat 32 (natAt b 0x34 4), hlimit := BitVec.ofNat 32 (natAt b 0x38 4), ctxres := BitVec.ofNat 3 (natAt b 0x3C 1)
    accq := BitVec.ofNat 5 (imgAccq b) }

/-- The counters an image gives a tile of number `n`. -/
def imgTileCounters (b : List Byte) (n : Nat) : Map Counter :=
  ((imgCounters b).filter fun c => c.tile == n).foldl (fun m c =>
    mput m c.id { value := c.value, target := c.target, action := c.action, armed := c.armed }) []

/-- A tile loaded from an image: `n` is its number in the job. -/
def State.loadTile (s : State) (b : List Byte) (t n : Nat) : State :=
  let s1 := (s.zeroPool t).modTile t fun x =>
    let y := x.cleared
    { y with regs := imgRegs b y.regs, land := { y.land with rings := imgRings b },
             cnt := { y.cnt with counters := imgTileCounters b n } }
  (imgSections b).foldl (fun s x =>
    if (x.tiles b).contains n then
      if x.kind = 3 then s.write (poolBase t + x.addr) (x.payload b)
      else if x.kind = 4 then (List.range (x.len / 16)).foldl (fun s i => { s with empty := ins s.empty ((poolBase t + x.addr) / 16 + i) }) s
      else s
    else s) s1

/-! ### LOADJOB -/

/-- The highest class below 0xFC that is not VALID: the service class (R335). -/
def freeClass (classes : List Word) : Option Nat :=
  ((List.range 0xFC).filter fun c => (classes.getD c 0).extractLsb' 0 1 == 0).getLast?

/-- The class table with the service handler installed. -/
def withService (classes : List Word) : List Word :=
  match freeClass classes with
  | some c => classes.set c (BitVec.ofNat 64 (Config.systemTextVa * 256 + 0x11))
  | none => classes

/-- The job record of an image. -/
def jobOfImage (b : List Byte) (gallery areaAt area drain gid lastTag : Nat) : Job :=
  { name := (b.drop 8).take 16, jobid := BitVec.ofNat 64 (natAt b 0x18 8), accq := BitVec.ofNat 5 (imgAccq b)
    classes := withService (imgClasses b), snapCap := imgSnap b, autoroll := natAt b 0x3D 1 / 2 % 2 == 1, trapt := natAt b 0x3E 2
    srseed := BitVec.ofNat 64 (natAt b 0x40 8), grace := natAt b 0x48 8, gallery := gallery, galleryBytes := imgGallery b
    hostq := imgHostq b, ranges := imgRanges b, windows := imgWindows b, msgs := (imgMessages b).getD [], tags := [], lastTag := lastTag
    digest := sha512 b, image := b, service := freeClass (imgClasses b), lost := 0, group := gid, areaAt := areaAt,
    area := area, drain := drain }

/-- Loads a checked image: pages, tiles, the job, its windows and group; none where memory for the Gallery or a page is lacking. -/
def State.loadImage (s : State) (pid : Nat) (b : List Byte) (areaAt area drain : Nat) : Option State :=
  match s.part pid with
  | none => none
  | some p =>
    let galleryPages := imgGallery b / 0x10000 * p.tiles.length
    match s.newRun pid galleryPages with
    | none => none
    | some (g, s1) =>
      match s1.backPages pid (imgPages b) with
      | none => none
      | some s2 =>
        let s3 := p.tiles.foldl (fun s t => s.loadTile b t (p.jobTile t)) (s2.fillPages pid b)
        let gid := s3.vest.nextId
        let s4 := (s3.modPart pid fun p =>
          { p with job := some (jobOfImage b (g * 0x10000) areaAt area drain gid p.lastTag), sealed_ := false, fault := false, sealedAt := 0, leaving := false,
                   absorbed := 0 }).modVest fun v =>
          { v with nextId := gid + 1
                   groups := v.groups ++ [{ id := gid, lastId := 0, colour := 0, snaps := [], past := [], rcount := 0, rsid := 0,
                                            replay := [], logging := false, logged := 0, node := .reset, dies := [] }] }
        some (((s4.mapWindows pid).joinDies gid).regroup)

/-- The image a LOADJOB names: its bytes, if they lie in HBM and can be read. What another package's HBM holds is not in this state
(log entry 14). -/
def State.imageAt (s : State) (a len : Nat) : Option (List Byte) :=
  let pa := a % 2 ^ 40
  let pkg := s.pkgOf (a / 2 ^ 49)
  if namesPackage (a / 2 ^ 49) = false ∨ Config.hbmBytes < pa + len ∨ (pkg = s.pkg ∧ (s.badIn pa len).isSome) then none
  else if pkg = s.pkg then some (s.read pa len)
  else some ((List.range len).map fun i => BitVec.ofNat 8 ((Config.remoteWord pkg ((pa + i) / 8 * 8) s.cycle).toNat / 256 ^ ((pa + i) % 8)))

/-- Reserves a snapshot area (R297): its PA with the state. -/
def State.reserveArea (s : State) (pid area : Nat) : Option (Nat × State) :=
  if area = 0 then some (0, s) else (s.newRun pid ((area + 0xFFFF) / 0x10000)).map fun r => (r.1 * 0x10000, r.2)

/-- LOADJOB: the first status of R360 that applies, or the job is resident. -/
def State.loadjob (s : State) (k : Pkt) : State × Answer :=
  match s.part k.part with
  | none => (s, some (stNoPart, 0))
  | some p =>
    if p.job.isSome then (s, some (stResident, 0))
    else
      match s.imageAt (natAt k.bytes 8 8) (natAt k.bytes 16 8) with
      | none => (s, some (stBadImage, 0))
      | some b =>
        match s.imgFault b p (s.pkgsOf p) with
        | some e => (s, some (e, 0))
        | none =>
          let area := natAt k.bytes 24 8
          if area = 0 ∧ (imgSnap b ∨ imgWindows b ≠ []) then (s, some (stNoArea, 0))
          else
            match s.reserveArea k.part area with
            | none => (s, some (stNoArea, 0))
            | some (at_, s1) =>
              match s1.loadImage k.part b at_ area (natAt k.bytes 32 8 / 2 ^ 49) with
              | some s2 => (s2, some (stOk, 0))
              | none => (s, some (stNoQuota, 0))

/-- Whether no rollback is in progress: a command that changes the groups waits for that (log entry 22). -/
def State.rollsOver (s : State) (_ : Pkt) : Bool := s.vest.rolls.isEmpty

/-- R164: LOADJOB. -/
def execLoadjob (q : Nat) (s : State) : Result := .next (s.command q .loadjob State.rollsOver State.loadjob noEnd noAfter)

/-! ### UNLOADJOB (R35, R325) -/

/-- Whether a body is one of those requests. -/
def isRequestIn (tags : List Nat) : Body → Bool
  | .request tag _ => tags.contains tag
  | _ => false

/-- What the seal of an unloading leaves of a tile: the accesses through windows that it still has to inject (R35), each after those of
them that it covers: the others that it covers are absorbed and never performed. `y` is the tile before the seal. -/
def Tile.keepWindow (x y : Tile) (j : Job) : Tile :=
  let tags := y.windowTags j
  let lost := (y.mu.queue.filter fun q => !isRequestIn tags q.msg.body).filterMap Queued.tag?
  { x with mu := { x.mu with
      queue := (y.mu.queue.filter fun q => isRequestIn tags q.msg.body).map fun q => { q with after := q.after.filter tags.contains }
      out := y.mu.out.filter fun o => !lost.contains o.tag } }

/-- What an unloading leaves of a tile that a fault had sealed before: none of its accesses is performed any more (R289). -/
def Tile.keepNone (x : Tile) : Tile := { x.dropSends with mu := { x.dropSends.mu with out := [] } }

/-- The unloading of a partition's job begins: its windows are unmapped and it is sealed without a fault, if none has sealed it before. A
running snapshot of its group is abandoned (R309). -/
def State.beginUnload (s : State) (pid : Nat) : State :=
  let s0 := match s.groupOfPart pid with
    | some g => s.dropSnapshot g .abandoned
    | none => s
  let s1 := (s0.unmapWindows pid).modPart pid fun p => { p with leaving := true }
  let s2 := s1.sealPart pid false
  let s3 := match s1.part pid with
    | some p => match p.job with
      | some j => p.tiles.foldl (fun (s : State) t => s.modTile t fun (x : Tile) =>
          if p.sealed_ then x.keepNone else x.keepWindow (s1.getTile t) j) s2
      | none => s2
    | none => s2
  s3.modVest fun v => { v with seals := v.seals ++ [{ pid := pid, cause := 0, place := 0, record := [], absorbed := 0 }] }

/-- Whether a header comes from or goes to a tile of a partition. -/
def State.hdrOf (s : State) (p : Partition) (h : Header) : Bool :=
  (h.spkg.toNat == s.pkg && p.tiles.contains h.stile.toNat) || (h.dpkg.toNat == s.pkg && p.tiles.contains h.dtile.toNat)

/-- The messages that units and the Vestibule have still to inject. -/
def State.waitingMsgs (s : State) : List Msg :=
  (s.tiles.flatMap fun e => e.2.vn1) ++ (s.dies.toList.flatMap fun d => d.newel.out ++ d.memory.out) ++ s.vest.out

/-- Whether request `tag` of tile `t` waits at a tile for a full bit or for ring room. -/
def State.waitsAtTile (s : State) (t tag : Nat) : Bool :=
  s.tiles.any fun e => e.2.waitList.any fun w => fromTile w.hdr s.pkg t && w.tag == tag

/-- Whether a job has an access through its windows in flight, on tiles `ts`, other than a wait: a request, or a running copy command
with a row there. -/
def State.windowOut (s : State) (ts : List Nat) (j : Job) : Bool :=
  ts.any fun t => (((s.getTile t).windowTags j).any fun tag => !s.waitsAtTile t tag)
    || (!s.sealedTile t && (s.getTile t).copy.cmds.any fun k => !k.dead && k.pages.any j.inWindow)

/-- Whether an access is in flight through a window of the job of `pid`, from either side. Those of a job that a fault has sealed are not
performed any more (R289). -/
def State.windowBusy (s : State) (pid : Nat) (p : Partition) : Bool :=
  match p.job with
  | none => false
  | some j =>
    s.windowOut p.tiles j || s.vest.parts.any fun e => e.1 != pid && !(e.2.sealed_ && !e.2.leaving) && (match e.2.job with
      | some k =>
        s.windowOut e.2.tiles { k with windows := k.windows.filter fun v => v.partner == j.name && j.windows.any fun w => w.name == v.name }
      | none => false)

/-- Whether the job of a partition has nothing left on its way, or held for a lease at its home, so that its unloading can end. -/
def State.quiet (s : State) (pid : Nat) (p : Partition) : Bool :=
  p.leaving && !s.vest.seals.any (fun c => c.pid == pid)
    && !s.flying.any (fun f => s.hdrOf p f.hdr) && !s.waitingMsgs.any (fun m => s.hdrOf p m.hdr)
    && !s.dies.toList.any (fun d => d.newel.waiting.any fun w => s.hdrOf p w.flit.hdr)
    && !s.vest.migs.any (fun m => m.phase != 0 && p.tiles.contains m.tile) && !s.windowBusy pid p

/-- The waits of other partitions at a tile of an unloaded owner end with XLATE (R35). -/
def State.endWaits (s : State) (p : Partition) (t : Nat) : State :=
  ((s.getTile t).waitList.filter fun w => !(w.hdr.spkg.toNat == s.pkg && p.tiles.contains w.hdr.stile.toNat)).foldl (fun s w =>
    s.modVest fun v =>
      { v with mseq := v.mseq + 1
               out := v.out ++ [replyTo w.hdr 9 ((s.getTile w.hdr.stile.toNat).snap.colour) s.pkg Config.vestibuleNode v.mseq
                 (.reply w.tag .unmapped)] }) s

/-- The waits of an unloaded job at other tiles are gone. -/
def State.dropForeignWaits (s : State) (p : Partition) : State :=
  { s with tiles := s.tiles.map fun e => (e.1,
      (e.2.waitList.filter fun w => w.hdr.spkg.toNat == s.pkg && p.tiles.contains w.hdr.stile.toNat).foldl
        (fun x w => x.dropWaiter s.pkg e.1 w) e.2) }

/-- WAITTAGs for a launch of a job whose unloading ends complete with KILLED (R325, R340). -/
def State.killWaits (s : State) (pid : Nat) : State :=
  let serials : List Nat := match (s.part pid).bind (·.job) with
    | some j => j.tags.map (·.serial)
    | none => []
  s.vest.queues.foldl (fun s e =>
    (e.2.atWork.filter fun k => !k.done && pktCmd k.bytes == .waittag && serials.contains k.mark).foldl (fun s k =>
      s.complete e.1 k.idx stKilled 0) s) s

/-- A partition's page table holding nothing but the system text. -/
def State.freshTable (s : State) (pid : Nat) : State :=
  match s.part pid with
  | none => s
  | some p =>
    ({ s with mem := memZero s.mem p.root (p.root + 0x10000) } : State).mapPage pid Config.systemTextVa
      (s.pte Config.systemTextPa true false true false)

/-- The job of a partition is gone: memory freed, and with it the work queues that lie there; tiles cleared; its locks, leave and
translations dropped. -/
def State.endUnload (s : State) (pid : Nat) : State :=
  match s.part pid with
  | none => s
  | some p =>
    let s1 := (p.tiles.foldl (fun s t => s.endWaits p t) (s.killWaits pid)).dropForeignWaits p
    let s2 := p.tiles.foldl (fun s t => s.modTile t Tile.cleared) s1
    let s3 : State := { s2 with dies := s2.dies.map fun d =>
      { d with
        dtu := d.dtu.filter fun e => e.asid != p.asid
        newel := { d.newel with locks := d.newel.locks.filter fun e => e.asid != p.asid
                                matrices := mdel d.newel.matrices p.asid.toNat }
        gov := { d.gov with held := d.gov.held.filter fun q => !p.tiles.contains q.tile
                            fifo := d.gov.fifo.filter fun q => !p.tiles.contains q.tile } } }
    let s4 := s3.modVest fun v =>
      { v with xlates := v.xlates.filter (fun x => !p.tiles.contains x.tile)
               migs := v.migs.filter (fun m => !p.tiles.contains m.tile)
               queues := v.queues.filter (fun e => e.2.owner != pid)
               pages := v.pages.filter fun g => g.pid != pid || g.num * 0x10000 == p.root }
    ((s4.modPart pid fun p =>
      { p with job := none, lastTag := ((p.job.map (·.lastTag)).getD p.lastTag), sealed_ := false, fault := false, sealedAt := 0,
               leaving := false, rename := [], pkgNames := [], farNames := [], absorbed := 0, used := 0 }).freshTable pid).regroup

/-- UNLOADJOB. -/
def State.unloadjob (s : State) (k : Pkt) : State × Answer :=
  match s.part k.part with
  | none => (s, some (stNoJob, 0))
  | some p =>
    if p.job.isNone then (s, some (stNoJob, 0))
    else (if p.leaving then s else (s.beginUnload k.part).regroup, none)

/-- The end of an UNLOADJOB: the job is quiet. -/
def State.unloadEnd (s : State) (k : Pkt) (_ : Packet) : Option (Nat × Nat) :=
  match s.part k.part with
  | none => some (stNoJob, 0)
  | some p => if p.job.isNone then some (stNoJob, 0) else if s.quiet k.part p then some (stOk, 0) else none

/-- R325: UNLOADJOB. -/
def execUnloadjob (q : Nat) (s : State) : Result :=
  .next (s.command q .unloadjob State.rollsOver State.unloadjob State.unloadEnd fun s k => s.endUnload k.part)

/-! ### UNLOADJOB with KEEP (R315) -/

/-- The group's latest snapshot, if it is DRAINED. -/
def Group.latestDrained (g : Group) : Option Snapshot := g.snaps.find? fun q => q.sid == g.lastId && q.state == .drained

/-- The packages of a partition, rising, with its tiles on each (R314). -/
def State.shapeOf (s : State) (pid : Nat) : List (Nat × List Nat) :=
  match s.part pid with
  | some p => (s.pkgsOf p).map fun n =>
      (n, if n = s.pkg then p.tiles else ((s.vest.peers.filter fun q => q.pkg == n && q.asid == p.asid).flatMap (·.tiles)).foldl ins [])
  | none => []

/-- A free park id. -/
def State.parkId (s : State) : Nat :=
  ((List.range (s.vest.parks.length + 1)).find? fun i => !s.vest.parks.any fun p => p.id == i + 1).getD 0 + 1

/-- The group of a packet's partition. -/
def State.pktGroup (s : State) (k : Pkt) : Option Group := (s.groupOfPart k.part).bind s.group

/-- UNLOADJOB with KEEP. -/
def State.unloadKeep (s : State) (k : Pkt) : State × Answer :=
  match s.pktGroup k with
  | none => (s, some (stNoJob, 0))
  | some g =>
    if g.latestDrained.isNone then (s, some (stNoSnap, 0))
    else (((s.groupParts g.id).foldl (fun s e => if e.2.leaving then s else s.beginUnload e.1) s).regroup, none)

/-- Its end: every job of the group is quiet. VALUE is the park id. -/
def State.keepEnd (s : State) (k : Pkt) (_ : Packet) : Option (Nat × Nat) :=
  match s.pktGroup k with
  | none => some (stNoJob, 0)
  | some g => if (s.groupParts g.id).all fun e => s.quiet e.1 e.2 then some (stOk, s.parkId) else none

/-- The group is parked and every job of it unloaded: it holds no partition's memory, queue, lock or lease. -/
def State.park (s : State) (k : Pkt) : State :=
  match s.pktGroup k with
  | none => s
  | some g =>
    match g.latestDrained with
    | none => s
    | some q =>
      let s1 := s.modVest fun v =>
        { v with parks := v.parks ++ [{ id := s.parkId, group := { g with snaps := [], replay := [], logging := false }, snap := q,
                                        jobs := q.jobs.map fun e => e.2.2
                                        shapes := q.jobs.map fun e => s.shapeOf e.1 }] }
      (s.groupParts g.id).foldl (fun s e => s.endUnload e.1) (s1.releaseLeases g.id)

/-- R315: UNLOADJOB with KEEP. -/
def execUnloadjobKeep (q : Nat) (s : State) : Result :=
  .next (s.command q .unloadKeep State.rollsOver State.unloadKeep State.keepEnd State.park)

end Sys2Proof.Machine
end

