-- ==== Sys2Proof/Machine/Link.lean ====
section
/-! DEFINITION. Wellia ports: frames, retries, lanes, turnarounds, records and routes (spec/ 27 R345 to R351, R354). The far end is outside
the model: its frames, acknowledgements, credits and answers arrive as events. -/

namespace Sys2Proof.Machine

/-! ### Frames (R346) -/

/-- Whether a port's buffers have room for the flits of a frame, on each plane that it brings flits of. -/
def Port.roomFor (p : Port) (fs : List Flit) : Bool :=
  [0, 1].all fun pl => (ofPlane pl fs).isEmpty || (ofPlane pl p.rx).length + (ofPlane pl fs).length ≤ Config.portRoom

/-- A frame from the far end: one with a bad CRC is counted; the next in order is accepted if its flits find room; every other is
discarded. -/
def Port.receive (p : Port) (f : Frame) : Port :=
  if p.state ≠ .up then p
  else if f.good = false then { p with crcerr := p.crcerr + 1 }
  else if f.seq = p.expect ∧ p.roomFor f.flits then { p with rx := p.rx ++ f.flits, expect := p.expect + 1, rcvd := p.rcvd + f.flits.length }
  else p

/-- R346: a link frame is accepted or discarded. -/
def execLinkFrameReceive (port : Nat) (frame : Frame) (s : State) : Result := .next (s.modPort port fun p => p.receive frame)

/-- An acknowledgement: the frames up to a number are gone, and credits for flits that left the far end's buffers come back. -/
def Port.acked (p : Port) (a : Ack) : Port :=
  { p with unacked := p.unacked.filter fun f => a.seq < f.seq
           credit0 := Nat.min (p.credit0 + a.back0) Config.portRoom, credit1 := Nat.min (p.credit1 + a.back1) Config.portRoom }

/-- R346: an acknowledgement frees the frames up to a number. Those of the bridge port have reached the adapter (R351). -/
def execFrameAck (port : Nat) (a : Ack) (s : State) : Result :=
  let done := (s.getPort port).unacked.filter fun f => f.seq ≤ a.seq
  let s1 := s.modPort port fun p => p.acked a
  .next (if port % 7 = 0 then (done.flatMap (·.flits)).foldl State.toHost s1 else s1)

/-- R346: the frames not acknowledged are sent again. -/
def execFrameRetryTimeout (port : Nat) (s : State) : Result :=
  .next (s.modPort port fun p => if p.state = .up then { p with retries := p.retries + p.unacked.length } else p)

/-! ### Ports down (R348, R351) -/

/-- A port goes down: with every frame acknowledged its flits are routed afresh at once, else they wait for the far package's answer. -/
def Port.goDown (p : Port) : Port :=
  let q := { p with state := .down, turning := none, calTx := none, calRx := none }
  if p.unacked = [] then { q with rx := q.rx ++ q.tx, tx := [] } else q

/-- A port comes up towards a package, with nothing sent and the far end's buffers free. -/
def Port.comeUp (p : Port) (peer : Nat) : Port :=
  { p with state := .up, peer := peer, seq := 1, expect := 1, credit0 := Config.portRoom, credit1 := Config.portRoom }

/-- The far package's answer for a port that is down or trained again: the flits of the frames it has not accepted, and those not yet
framed, go back into the fabric; a trained port comes up. -/
def Port.reinject (p : Port) (seq : Nat) : Port :=
  let q := { p with rx := p.rx ++ (p.unacked.filter fun f => seq < f.seq).flatMap (·.flits) ++ p.tx, tx := [], unacked := [] }
  match p.state with
  | .down => q
  | .training => q.comeUp p.peer
  | _ => p

/-- R348: the far package's last accepted number arrives, 0 where it has accepted none. What the far end of the bridge port has accepted has
reached the adapter (R351). -/
def execPortDownSequenceReply (port seq : Nat) (s : State) : Result :=
  let p := s.getPort port
  let done := if port % 7 = 0 ∧ p.open = false then (p.unacked.filter fun f => f.seq ≤ seq).flatMap (·.flits) else []
  .next (done.foldl State.toHost (s.modPort port fun p => p.reinject seq))

/-- The adapter reports whether the group's bridge port, where it is this package's, is down (R351). -/
def State.noteBridge (s : State) : State :=
  { s with host := { s.host with bridgeLost := s.pkg % 16 == 0 && (s.getPort 0).state == .down } }

/-! ### Lanes (R348, R354) -/

/-- A lane of one direction is retired; a direction without a lane puts the port down. -/
def Port.retireLane (p : Port) (out : Bool) : Port :=
  let have_ := if out then p.txl else p.rxl
  if have_ = 0 then p
  else
    let q := if out then { p with txl := p.txl - 1, lostTx := p.lostTx + 1, failed := p.failed + 1 }
             else { p with rxl := p.rxl - 1, lostRx := p.lostRx + 1, failed := p.failed + 1 }
    if have_ = 1 then q.goDown else q

/-- R348: a failing lane is retired from its direction. -/
def execLaneRetire (port : Nat) (out : Bool) (s : State) : Result := .next (s.modPort port fun p => p.retireLane out).noteBridge

/-- A lane leaves a direction for recalibration, one at a time. -/
def Port.calBegin (p : Port) (out : Bool) (now : Nat) : Port :=
  if out then (if p.calTx.isSome ∨ p.txl = 0 then p else { p with txl := p.txl - 1, calTx := some now })
  else if p.calRx.isSome ∨ p.rxl = 0 then p else { p with rxl := p.rxl - 1, calRx := some now }

/-- The lane rejoins its direction; one that failed is then retired (R348). -/
def Port.calEnd (p : Port) (out pass : Bool) : Port :=
  let q := if out then (if p.calTx.isSome then some { p with txl := p.txl + 1, calTx := none } else none)
           else if p.calRx.isSome then some { p with rxl := p.rxl + 1, calRx := none } else none
  match q with
  | some q => if pass then q else q.retireLane out
  | none => p

/-- R354: the recalibration of a lane begins, or ends with the lane good or failed. -/
def execLaneRecalibration (port : Nat) (out : Bool) (result : Option Bool) (s : State) : Result :=
  match result with
  | none => .next (s.modPort port fun p => p.calBegin out s.cycle)
  | some pass => .next (s.modPort port fun p => p.calEnd out pass).noteBridge

/-- Core cycles for which a lane is out, 2^14 fabric cycles, and between the turns of a direction's lanes: a direction has at most 64, and each
is out once in 2^31 fabric cycles (R354). Which lane goes when is DESIGN CHOICE (log entry 78). -/
def calTime : Nat := 0x8000
def calPeriod : Nat := 0x4000000

/-- The lane of a direction that leaves for recalibration now, or comes back, with what it has come to. -/
def Port.calDue (p : Port) (port : Nat) (out : Bool) (now : Nat) : Option (Option Bool) :=
  match if out then p.calTx else p.calRx with
  | some since => if since + calTime ≤ now then some (some (Config.lanePasses now port out)) else none
  | none =>
    if p.open ∧ now % calPeriod = calPeriod - 1 ∧ now / calPeriod % 64 < (if out then p.txl else p.rxl) then some none else none

/-! ### Turnarounds (R349, R358) -/

/-- Lanes each direction keeps. -/
def Port.keeps (p : Port) : Nat := if 8 ≤ p.txl + p.rxl then 4 else 1

/-- The lanes of the direction that gives. -/
def Port.giving (p : Port) (toOut : Bool) : Nat := if toOut then p.rxl else p.txl

/-- Whether four lanes may turn: the port is UP, a lane has been lost, and the giving direction keeps enough. -/
def Port.canTurn (p : Port) (toOut : Bool) : Bool :=
  p.state == .up && p.lostTx + p.lostRx != 0 && p.keeps + 4 ≤ p.giving toOut

/-- A turnaround begins: traffic pauses. -/
def Port.turnBegin (p : Port) (toOut : Bool) (now : Nat) : Port :=
  if p.canTurn toOut then { p with state := .turning, turning := some (toOut, now) } else p

/-- A turnaround ends, with the lanes that survive now: up to four turn, as the limits allow. -/
def Port.turnEnd (p : Port) (toOut : Bool) : Port :=
  let n := Nat.min 4 (p.giving toOut - p.keeps)
  let q := if toOut then { p with txl := p.txl + n, rxl := p.rxl - n } else { p with txl := p.txl - n, rxl := p.rxl + n }
  { q with state := .up, turning := none, turns := Nat.min (p.turns + 1) 65535, hotTx := 0, hotRx := 0 }

/-- R349: lanes are turned round between the two directions of a port: a turnaround begins, or the one in progress ends. The bridge port
takes none (R351). -/
def execLaneTurnaround (port : Nat) (toOut : Bool) (s : State) : Result :=
  if port % 7 = 0 then .next s
  else
    .next (s.modPort port fun p => match p.turning with
      | some (d, _) => p.turnEnd d
      | none => p.turnBegin toOut s.cycle)

/-- Whether flits moved in a telemetry interval of 2^21 fabric cycles are above or below a percentage of what `lanes` lanes can carry: 80
bytes a flit (R65), 25 GB/s a lane, 1.8 GHz (R345, R354). -/
def loadAbove (pct flits lanes : Nat) : Bool := decide (pct * lanes * 125 * 2 ^ 21 < flits * 80 * 900)
def loadBelow (pct flits lanes : Nat) : Bool := decide (flits * 80 * 900 < pct * lanes * 125 * 2 ^ 21)

/-- The default policy at the end of a telemetry interval: how long one direction has run above 90 % while the other ran below 50 %. -/
def Port.interval (p : Port) : Port :=
  let tx := p.flits - p.markTx
  let rx := p.rcvd - p.markRx
  { p with markTx := p.flits, markRx := p.rcvd
           hotTx := if loadAbove 90 tx p.txl && loadBelow 50 rx p.rxl then p.hotTx + 1 else 0
           hotRx := if loadAbove 90 rx p.rxl && loadBelow 50 tx p.txl then p.hotRx + 1 else 0 }

/-- Core cycles after which a turnaround in progress ends (R349: at most 2^12 fabric cycles). -/
def turnTime : Nat := 0x1000

/-- The direction in which firmware turns lanes of a port now, or the turnaround that ends now. -/
def Port.turnDue (p : Port) (now : Nat) : Option Bool :=
  match p.turning with
  | some (d, since) => if since + turnTime ≤ now then some d else none
  | none =>
    if 8 ≤ p.hotTx ∧ p.canTurn true then some true
    else if 8 ≤ p.hotRx ∧ p.canTurn false then some false
    else none

/-! ### Training (R345, R348, R356) -/

/-- A training that finds nobody at the far end, whose package is resetting or has no power: the port is down, with no lane retired, until
a later training finds it again (R356; log entry 2). -/
def Port.silent (p : Port) : Port :=
  { (if p.open then p.goDown else p) with state := .down, txl := 0, rxl := 0, turning := none, calTx := none, calRx := none }

/-- A trained port: at most 32 lanes in each direction and no more than survive, those missing retired; without a lane in both it stays
down. One that was UP has gone down first, as it does when the package at its far end resets (R356). A port with frames whose fate is not
known waits for the far package's answer. -/
def Port.trained (p : Port) (peer txl rxl : Nat) : Port :=
  if 32 < txl ∨ 32 < rxl ∨ 64 < txl + rxl + p.failed then p
  else if txl = 0 ∧ rxl = 0 then p.silent
  else
    let d := if p.open then p.goDown else p
    let q := { d with txl := txl, rxl := rxl, lostTx := 32 - txl, lostRx := 32 - rxl, failed := Nat.max p.failed (64 - txl - rxl)
                      calTx := none, calRx := none }
    if txl = 0 ∨ rxl = 0 then { q with state := .down }
    else if q.unacked ≠ [] then { q with state := .training, peer := peer }
    else q.comeUp peer

/-- Packages whose route leads by a port that is up are lost no longer (R347; log entry 2). -/
def State.routesBack (s : State) (port : Nat) : State :=
  { s with fabric := { s.fabric with lost := s.fabric.lost.filter fun p => !(s.portTo p == port && (s.getPort port).open) } }

/-- R345: a port finishes training; not in a package that has failed to boot (R337). -/
def execPortTrained (port peer txl rxl : Nat) (s : State) : Result :=
  if s.host.bootfail then .next s else .next ((s.modPort port fun p => p.trained peer txl rxl).routesBack (port % 7)).noteBridge

/-! ### Records (R350) -/

/-- The code of a port's state. -/
def PortState.code : PortState → Nat
  | .down => 0
  | .training => 1
  | .up => 2
  | .turning => 3

/-- Word 0 of a port's record. -/
def Port.word0 (p : Port) : Nat :=
  p.state.code * 2 ^ 56 + p.txl * 2 ^ 48 + p.rxl * 2 ^ 40 + p.failed * 2 ^ 32 + p.turns * 2 ^ 16 + p.peer

/-- A port's 32-byte record. -/
def Port.record (p : Port) : List Byte := leBytes 8 p.word0 ++ leBytes 8 p.retries ++ leBytes 8 p.crcerr ++ leBytes 8 p.flits

/-- The ports' records, as the adapter's telemetry pages show them: the bridge first, then X+, X−, Y+, Y−, Z+ and Z−. -/
def State.portRecords (s : State) : List (List Byte) := s.ports.toList.map Port.record

/-! ### Routes (R347) -/

/-- One entry of the route table. A lost package to which it gives a route by a port that is up is lost no longer: a later loss seals again
(log entry 2). -/
def State.setRoute (s : State) (dst port : Nat) : State :=
  if 4096 ≤ dst ∨ 7 ≤ port then s
  else
    { s with fabric := { s.fabric with
        routes := if port = defaultPort s.pkg dst then mdel s.fabric.routes dst else mput s.fabric.routes dst port
        lost := if (s.getPort port).open then s.fabric.lost.filter (· != dst) else s.fabric.lost } }

/-- R347: firmware installs route table entries. -/
def execRouteTableUpdate (entries : List (Nat × Nat)) (s : State) : Result := .next (entries.foldl (fun s e => s.setRoute e.1 e.2) s)

end Sys2Proof.Machine
end

