-- ==== Sys2Proof/Machine/Pss.lean ====
section
/-! DEFINITION. RSASSA-PSS with RSA-4096, SHA-512, MGF1 with SHA-512 and a salt of 64 bytes (spec/ 00 R8), by which firmware is checked (25
R337) and reports are signed (R339). PRESUMED (log entry 20): spec/ names the scheme and does not define it; this is that of RFC 8017. The
keys themselves are not in the spec (log entry 9). -/

namespace Sys2Proof.Machine

/-- The bytes of a signature and of an encoded message; the padding zeros of an encoded message. -/
def pssLength : Nat := 512
def pssZeros : Nat := 382

/-- MGF1 with SHA-512: the first `n` bytes of the digests of the seed with a counter. -/
def mgf1 (seed : List Byte) (n : Nat) : List Byte :=
  ((List.range ((n + 63) / 64)).flatMap fun i => sha512 (seed ++ beBytes 4 i)).take n

/-- Bytes masked by others; the first bit of the result is zero, since a modulus of 4,096 bits leaves 4,095 for the encoded message. -/
def masked (x mask : List Byte) : List Byte :=
  match List.zipWith (· ^^^ ·) x mask with
  | b :: bs => (b &&& 0x7F) :: bs
  | [] => []

/-- The digest of a message's digest with a salt. -/
def saltedDigest (digest salt : List Byte) : List Byte := sha512 (List.replicate 8 0 ++ digest ++ salt)

/-- The encoded message for a digest and a salt of 64 bytes. -/
def pssEncode (digest salt : List Byte) : List Byte :=
  let h := saltedDigest digest salt
  masked (List.replicate pssZeros 0 ++ [1] ++ salt) (mgf1 h (pssLength - 65)) ++ h ++ [0xBC]

/-- Whether an encoded message is one for a digest: its form is right, and its salt gives its digest. -/
def pssHolds (digest em : List Byte) : Bool :=
  let hidden := em.take (pssLength - 65)
  let h := (em.drop (pssLength - 65)).take 64
  let open_ := masked hidden (mgf1 h (pssLength - 65))
  em.length == pssLength && em.getLast? == some 0xBC && (hidden.headD 0).toNat < 128
    && open_.take (pssZeros + 1) == List.replicate pssZeros 0 ++ [1] && saltedDigest digest (open_.drop (pssZeros + 1)) == h

/-- `b` to the power `e` modulo `m`, for an exponent of `n` bits at most. -/
def powMod (m : Nat) : Nat → Nat → Nat → Nat
  | 0, _, _ => 1 % m
  | n + 1, b, e => powMod m n (b * b % m) (e / 2) * (if e % 2 = 1 then b else 1) % m

/-- Whether a signature of a message holds under a public key: its modulus and exponent. -/
def pssVerify (modulus exponent : Nat) (message signature : List Byte) : Bool :=
  signature.length == pssLength && beNat signature < modulus
    && pssHolds (sha512 message) (beBytes pssLength (powMod modulus 4096 (beNat signature) exponent))

/-- The signature of a message under a private key: its modulus and exponent. -/
def pssSign (modulus exponent : Nat) (message salt : List Byte) : List Byte :=
  beBytes pssLength (powMod modulus 4096 (beNat (pssEncode (sha512 message) salt)) exponent)

end Sys2Proof.Machine
end

