-- ==== Sys2Proof/Machine/Platform.lean ====
section
/-! DEFINITION. The platform: telemetry, scrubs, soft errors, power, device reset, the host's writes to device memory, and the traps of an
instruction that cannot be fetched or decoded (spec/ 07 R130, 09 R140, R156, 21 R285, 27 R352 to R357). -/

namespace Sys2Proof.Machine

/-! ### Background work (R354) -/

/-- R354: telemetry is sampled: the sensors, the counts and the ports' records; firmware's policy for lanes is evaluated (R349). -/
def execTelemetrySample (dieMw dieMilliC : List Nat) (s : State) : Result :=
  .next { s with
    host := { s.host with
      power := dieMw, temp := dieMilliC, sampled := s.cycle, records := s.portRecords
      counts := [s.host.deflected, s.host.goldens, s.host.scrubs, s.host.softErrs] }
    ports := s.ports.map Port.interval }

/-- A scrub reads a location: uncorrectable data is logged and left (R354). -/
def State.scrubAt (s : State) (k n : Nat) : State :=
  { s with host := { s.host with
      scrubs := s.host.scrubs + 1
      scrubLog := match s.badIn k n with
        | some b => ins s.host.scrubLog b
        | none => s.host.scrubLog } }

/-- R354: the patrol scrub reads an HBM line. -/
def execHbmPatrolScrub (pa : Nat) (s : State) : Result :=
  if pa < Config.hbmBytes then .next (s.scrubAt (pa / 64 * 64) 64) else .next s

/-- R354, R355: the SRAM scrub of a tile checks a granule, where SCRUB enables it. -/
def execSramScrub (t off : Nat) (s : State) : Result :=
  if t < Config.tiles ∧ off < Config.poolBytes ∧ (s.getTile t).regs.scrub then .next (s.scrubAt (poolBase t + off / 16 * 16) 16) else .next s

/-! ### Soft errors (R285, R355) -/

/-- Whether a memory key exists: HBM, or the pool of a tile. -/
def keyExists (k : Nat) : Bool :=
  match poolTile k with
  | some t => t < Config.tiles && k < poolBase t + Config.poolBytes
  | none => k < Config.hbmBytes

/-- A corrected error is counted; for a pool, in CEC too. -/
def State.corrected (s : State) (k : Nat) : State :=
  match poolTile k with
  | some t => s.modTile t fun x => { x with regs := { x.regs with cec := if x.regs.cec = 255 then 255 else x.regs.cec + 1 } }
  | none => s

/-- R285: a soft error: corrected and counted, or the granule or line is uncorrectable from now on. -/
def execSoftError (key : Nat) (correctable : Bool) (s : State) : Result :=
  if keyExists key = false then .next s
  else
    let s1 : State := { s with host := { s.host with softErrs := s.host.softErrs + 1 } }
    if correctable then .next (s1.corrected key)
    else
      let size := if (poolTile key).isSome then 16 else 64
      .next (s1.markBad (key / size * size) size)

/-! ### Power and reset (R353, R356, R357) -/

/-- The number of absent tiles of each die. -/
def Fabric.absentCounts (f : Fabric) : List Nat :=
  [0, 1, 2, 3].map fun d => ((List.range Config.tilesPerDie).filter fun i => f.absent (Config.tilesPerDie * d + i)).length

/-- The package as reset leaves it, before its ports are trained, with what reset does not touch: the package number, system time, the
environment's agenda, and the defect map joined by the retirement list (R19, R20). Absent tiles are reported (R21). -/
def State.restarted (s : State) : State :=
  let f := { Fabric.reset with defects := s.fabric.defects ++ s.fabric.retired.filter fun e => !s.fabric.defects.contains e }
  { State.reset with
    pkg := s.pkg, time0 := s.time0 + s.cycle * 5 / 18, agenda := s.agenda, fabric := f, ports := .replicate 7 .reset
    host := { Adapter.reset with degraded := if f.absentCounts.any (· != 0) then f.absentCounts else [] } }

/-- R353, R357: power is removed, and with it every state but the board's nonvolatile store. -/
def execPowerRemoval (s : State) : Result :=
  .next { s.restarted with power := false, mem := [], vest := { Vestibule.reset with queues := [] }
                           host := { Adapter.reset with step := 0, ready := false } }

/-- The boot ROM's checks of a firmware image (R337): the key is the fused one, its signature of the image holds, and the image is recent
enough. -/
def firmwareGood (image key signature : List Byte) : Bool :=
  sha512 key == (List.range 64).map Config.fusedKeyByte
    && pssVerify (Config.keyModulus key) (Config.keyExponent key) image signature
    && decide (Config.fusedMinimum ≤ Config.securityVersion image)

/-- Step 5 of a reset: each port is trained, with its peer and the lanes of its directions, as the cabling has it (log entry 2). -/
def State.trainPorts (s : State) (links : List (Nat × Nat × Nat × Nat)) : State :=
  (links.foldl (fun s l => s.modPort l.1 fun p => p.trained l.2.1 l.2.2.1 l.2.2.2) s).noteBridge

/-- R356: device reset, with the firmware image, its public key and signature, and what training finds. Firmware that fails its check stops
it at step 1 with BOOTFAIL: no queue is there, and memory is not yet zeroed. -/
def execDeviceReset (b : Boot) (s : State) : Result :=
  if firmwareGood b.image b.key b.signature then
    .next (({ s.restarted with host := { s.restarted.host with firmware := some b.image } } : State).trainPorts b.links)
  else
    .next { s.restarted with
      vest := { Vestibule.reset with queues := [] }
      host := { Adapter.reset with step := 1, ready := false, bootfail := true }
      mem := s.mem, empty := s.empty, bad := s.bad }

/-! ### The host's writes (R130) -/

/-- The colour in which the host writes a page: the Vestibule's for the group that owns it. -/
def State.hostColour (s : State) (pa : Nat) : BitVec 1 :=
  match (s.groupOfPage pa).bind s.group with
  | some g => g.node.colour
  | none => 0

/-- A host write of bytes that lie in one 64 KiB granule: one that covers an uncorrectable line only in part meets it (R285). It comes from no
die: it recalls no lease and waits for none, and the leases on its region stay (R121; DESIGN CHOICE, log entry 81). -/
def State.hostPut (s : State) (pa : Nat) (bs : List Byte) : State :=
  match s.badPartly pa bs.length with
  | some b =>
    match s.ownerOf b with
    | some pid => s.seal pid causeData b []
    | none => s
  | none => s.writeAt (s.hostColour pa) pa bs

/-- A host write, granule by granule. -/
def State.hostPuts (s : State) (pa : Nat) (bs : List Byte) : Nat → State
  | 0 => s
  | n + 1 =>
    let room := 0x10000 - pa % 0x10000
    if bs.length ≤ room then s.hostPut pa bs
    else (s.hostPut pa (bs.take room)).hostPuts (pa + room) (bs.drop room) n

/-- R130: a host write reaches device memory. -/
def execHostWrite (pa : Nat) (bytes : List Byte) (s : State) : Result :=
  if bytes = [] ∨ Config.hbmBytes < pa + bytes.length then .next s
  else .next (s.hostPuts pa bytes (bytes.length / 0x10000 + 2))

/-! ### What cannot be executed (R140, R156) -/

/-- R156: a pattern that is no instruction raises ILLEGAL. -/
def execIllegalInstruction (insn : Nat) (s : State) : Result := .next (s.takeTrap s.tile s.ctx trapIllegal s.cur.pc insn)

/-- R140: a halfword that cannot be fetched raises FETCH, or XLATE where no valid leaf is found, with that halfword's address. -/
def execFetchFault (at_ : Addr) (unmapped : Bool) (s : State) : Result :=
  .next (s.takeTrap s.tile s.ctx (if unmapped then trapXlate at_ else trapFetch at_) s.cur.pc 0)

end Sys2Proof.Machine
end

