-- ==== Sys2Proof/Machine/Commands.lean ====
section
/-! DEFINITION. The commands on partitions, snapshots, rollbacks of resident groups, tiles, attestation and error injection (spec/ 01 R27, R28,
05 R99, 23 R298, R314, R316, 25 R325, R335, R336, R339). -/

namespace Sys2Proof.Machine

/-! ### PARTITION (R27, R325) -/

/-- The tiles of a tile map, rising. -/
def mapTiles (b : List Byte) : List Nat :=
  (List.range Config.tiles).filter fun t => natAt b (128 + t / 8) 1 / 2 ^ (t % 8) % 2 == 1

/-- The halfwords of the service handler (log entry 8): ADDI g4, g0, #1; MTS ERRINJ, g4; BC.NE g2, g0, skip; MOVW, MOVK, MOVK g5 := LOCAL;
ADD g3, g5, g3; skip: INJECT g3, g2; MTS ERRINJ, g0; DONE. -/
def systemText : List Nat :=
  [0xc140, 0x0001, 0xd604, 0x2162, 0xd220, 0x00a1, 0xc851, 0xf000, 0xc952, 0xfeff, 0xc953, 0x00ff, 0xc035, 0x0003, 0xfe03, 0x0a02,
   0xd600, 0x2162, 0xd600, 0x0000]

/-- The system text stands in its page. -/
def State.putSystemText (s : State) : State := s.write Config.systemTextPa (systemText.flatMap fun h => leBytes 2 h)

/-- Whether the quotas and power shares leave no room for a new partition (R325). -/
def State.cannotGrant (s : State) (quota : Nat) (shares : List Nat) : Bool :=
  Config.hbmBytes < (s.vest.parts.map fun e => e.2.quota).sum + quota
    || [0, 1, 2, 3].any fun d => 256 < (s.vest.parts.map fun e => e.2.shares.getD d 0).sum + shares.getD d 0

/-- A tile joins a partition. -/
def Tile.join (x : Tile) (pid : Nat) (asid : BitVec 16) (pkg root : Nat) : Tile :=
  let y := x.cleared
  { y with regs := { y.regs with pid := BitVec.ofNat 6 pid, asid := asid, xpkg := BitVec.ofNat 15 pkg, xroot := BitVec.ofNat 30 (root / 1024) } }

/-- PARTITION create: this package's part. The parts on other packages are those their own PARTITION packets made (R325). -/
def State.partCreate (s : State) (k : Pkt) : State × Answer :=
  let b := k.bytes
  let pid := k.part
  let asid := BitVec.ofNat 16 (natAt b 8 2)
  let quota := natAt b 16 8
  let shares := (List.range 4).map fun d => natAt b (32 + d) 1
  let tiles := mapTiles b
  if (s.part pid).isSome then (s, some (stBusyId, 0))
  else if s.vest.parts.any (fun e => e.2.asid == asid) ∨ s.vest.peers.any (fun q => q.asid == asid && q.pid != pid) then
    (s, some (stAsidUsed, 0))
  else if tiles.any s.fabric.absent then (s, some (stAbsent, 0))
  else if tiles.any fun t => (s.partOf t).isSome then (s, some (stBusyTile, 0))
  else if s.cannotGrant quota shares then (s, some (stNoPart, 0))
  else
    match s.newPage pid none with
    | none => (s, some (stNoPart, 0))
    | some (n, s1) =>
      let root := n * 0x10000
      let p : Partition :=
        { tiles := tiles, pkgs := [s.pkg], asid := asid, quota := quota, used := 0, landing := natAt b 24 1, gallery := natAt b 28 4,
          shares := shares, root := root, lastTag := 0, job := none, sealed_ := false, fault := false, sealedAt := 0, leaving := false,
          rename := [], absorbed := 0 }
      let s2 := s1.modVest fun v => { v with parts := mput v.parts pid p }
      let s3 := tiles.foldl (fun s t => s.modTile t fun x => x.join pid asid s.pkg root) s2
      (s3.putSystemText.freshTable pid, some (stOk, 0))

/-- R27: PARTITION create. -/
def execPartitionCreate (q : Nat) (s : State) : Result := .next (s.command q .partCreate always State.partCreate noEnd noAfter)

/-- A tile leaves its partition. -/
def Tile.leave (x : Tile) : Tile :=
  let y := x.cleared
  { y with regs := { y.regs with pid := 0, asid := 0, xpkg := 0, xroot := 0 } }

/-- PARTITION destroy. -/
def State.partDestroy (s : State) (k : Pkt) : State × Answer :=
  match s.part k.part with
  | none => (s, some (stNoPart, 0))
  | some p =>
    if p.job.isSome then (s, some (stResident, 0))
    else
      let s1 := p.tiles.foldl (fun s t => s.modTile t Tile.leave) s
      let s2 : State := { s1 with dies := s1.dies.map fun d => { d with dtu := d.dtu.filter fun e => e.asid != p.asid } }
      (s2.modVest fun v => { v with parts := mdel v.parts k.part, pages := v.pages.filter fun g => g.pid != k.part }, some (stOk, 0))

/-- R28: PARTITION destroy. -/
def execPartitionDestroy (q : Nat) (s : State) : Result := .next (s.command q .partDestroy always State.partDestroy noEnd noAfter)

/-! ### SNAPSHOT (R298, R325) -/

/-- SNAPSHOT: the Vestibule coordinates a snapshot of the group. -/
def State.snapshotCmd (s : State) (k : Pkt) : State × Answer :=
  match s.part k.part, s.pktGroup k with
  | some p, some g =>
    if p.sealed_ then (s, some (stSealed, 0))
    else if s.areaSize g.id = 0 then (s, some (stNoArea, 0))
    else if g.running.isSome then (s, some (stRunning, 0))
    else ((s.startSnapshot g.id Config.vestibuleNode (some (k.n, k.idx))).markPacket k (g.lastId + 1), none)
  | _, _ => (s, some (stNoJob, 0))

/-- Its end, as the snapshot ends: VALUE is the identifier. -/
def State.snapshotEnd (s : State) (k : Pkt) (x : Packet) : Option (Nat × Nat) :=
  match s.pktGroup k with
  | none => some (stAbandoned, x.mark)
  | some g =>
    match g.stateOf x.mark with
    | 1 => none
    | 2 | 3 => some (stOk, x.mark)
    | 5 => some (stFailed, x.mark)
    | _ => some (stAbandoned, x.mark)

/-- R325: SNAPSHOT. -/
def execSnapshot (q : Nat) (s : State) : Result := .next (s.command q .snapshot always State.snapshotCmd State.snapshotEnd noAfter)

/-! ### ROLLBACK of a resident group (R314, R316) -/

/-- Whether no other rollback of the group is in progress, and no unloading of its jobs. -/
def State.rollReady (s : State) (k : Pkt) : Bool :=
  match s.pktGroup k with
  | some g => !(s.vest.rolls.any fun r => r.group == g.id) && !(s.groupParts g.id).any (·.2.leaving)
  | none => true

/-- ROLLBACK in local or remote mode. The target is the group itself, so SHAPE cannot apply. -/
def State.rollback (remote : Bool) (s : State) (k : Pkt) : State × Answer :=
  match s.pktGroup k with
  | none => (s, some (stNoJob, 0))
  | some g =>
    let sid := natAt k.bytes 8 4
    match g.snap sid with
    | none => (s, some (stNoSnap, 0))
    | some q =>
      if (if remote then q.state != .drained else q.state != .complete && q.state != .drained) then (s, some (stNoSnap, 0))
      else if !remote && !s.localOk g.id g q then (s, some (stNoLocal, 0))
      else (s.addRoll g.id sid remote (some (k.n, k.idx)), none)

/-- The end of a rollback: RESUME is sent. -/
def State.rollEnd (s : State) (k : Pkt) (_ : Packet) : Option (Nat × Nat) :=
  match s.vest.rolls.find? fun r => r.asked == some (k.n, k.idx) with
  | some r => if r.step ≤ 4 then none else some (stOk, 0)
  | none => some (stOk, 0)

/-- R314: ROLLBACK, local mode. -/
def execRollbackLocal (q : Nat) (s : State) : Result :=
  .next (s.command q .rollLocal State.rollReady (State.rollback false) State.rollEnd noAfter)

/-- R314: ROLLBACK, remote mode. -/
def execRollbackRemote (q : Nat) (s : State) : Result :=
  .next (s.command q .rollRemote State.rollReady (State.rollback true) State.rollEnd noAfter)

/-! ### MIGRATETILE (R20, R99) -/

/-- The spares of a tile's die that no other migration is to take. -/
def State.freeSpares (s : State) (t : Nat) : List Nat :=
  (s.fabric.spares (dieOfTile t)).filter fun c => !s.vest.migs.any fun m => dieOfTile m.tile == dieOfTile t && m.core == c

/-- MIGRATETILE. -/
def State.migrateTile (s : State) (k : Pkt) : State × Answer :=
  let t := natAt k.bytes 8 2
  let core := natAt k.bytes 12 2
  if s.pkgOf (natAt k.bytes 10 2) ≠ s.pkg ∨ (s.jobOf t).isNone then (s, some (stNoJob, 0))
  else
    let pick := if core = 0xFFFF then (s.freeSpares t).head? else (s.freeSpares t).find? (· == core)
    match pick with
    | none => (s, some (stSpareDie, 0))
    | some c =>
      (s.modVest fun v => { v with migs := v.migs ++ [{ tile := t, core := c, phase := 0, log := [], asked := some (k.n, k.idx) }] }, none)

/-- Its end: phase 5 is reached. -/
def State.migrateEnd (s : State) (k : Pkt) (_ : Packet) : Option (Nat × Nat) :=
  if s.vest.migs.any fun m => m.asked == some (k.n, k.idx) then none else some (stOk, 0)

/-- R99: MIGRATETILE. -/
def execMigratetile (q : Nat) (s : State) : Result := .next (s.command q .migrate always State.migrateTile State.migrateEnd noAfter)

/-! ### ATTEST (R339) -/

/-- The security version and the digest of the firmware that runs (R337). -/
def Adapter.version (a : Adapter) : Nat := match a.firmware with
  | some image => Config.securityVersion image
  | none => Config.firmwareVersion.toNat
def Adapter.digest (a : Adapter) : List Byte := match a.firmware with
  | some image => sha512 image
  | none => (List.range 64).map Config.firmwareDigestByte

/-- The report without its signature. -/
def State.attestation (s : State) (nonce : List Byte) : List Byte :=
  let jobs := s.residentJobs
  [0x41, 0x54, 0x53, 0x54] ++ leBytes 2 1 ++ leBytes 2 jobs.length ++ leBytes 8 s.sysTime ++ nonce
    ++ (List.range 16).map Config.serialByte ++ leBytes 4 s.host.version ++ List.replicate 12 0 ++ s.host.digest
    ++ jobs.flatMap fun e => leBytes 1 e.1 ++ List.replicate 7 0 ++ e.2.name ++ e.2.digest ++ List.replicate 8 0

/-- The signature of a report with the device identity key (R8). -/
def State.signature (s : State) (report : List Byte) : List Byte :=
  pssSign Config.identityModulus Config.identityExponent report ((List.range 64).map (Config.saltByte report s.cycle))

/-- ATTEST: the signed report is written. (An address that cannot hold it is a bad packet: log entry 19.) -/
def State.attest (s : State) (k : Pkt) : State × Answer :=
  let r := s.attestation ((k.bytes.drop 16).take 32)
  let full := r ++ s.signature r
  (s.hostPuts (natAt k.bytes 8 8) full (full.length / 0x10000 + 2), some (stOk, 0))

/-- R339: ATTEST. -/
def execAttest (q : Nat) (s : State) : Result := .next (s.command q .attest always State.attest noEnd noAfter)

/-! ### INJECTERR (R336) -/

/-- The tile an INJECTERR names. -/
def injectTile (b : List Byte) : Word := BitVec.ofNat 64 (natAt b 10 2 * 4096 + natAt b 8 2 % 4096)

/-- INJECTERR: a service message to the tile. -/
def State.injecterr (s : State) (k : Pkt) : State × Answer :=
  match (s.part k.part).bind fun p => p.job.map fun j => (p, j) with
  | none => (s, some (stNoJob, 0))
  | some (p, j) =>
    if p.sealed_ then (s, some (stSealed, 0))
    else
      match (if natAt k.bytes 8 2 < 4096 then s.vestDest p (injectTile k.bytes) else none), j.service with
      | none, _ => (s, some (stPartition, 0))
      | some _, none => (s, some (stNoSvc, 0))
      | some t, some c =>
        let h := s.vestHeader (BitVec.ofNat 8 c) 0 0 8 t
        ((s.vestSend k.part h [BitVec.ofNat 64 (natAt k.bytes 12 1), BitVec.ofNat 64 (natAt k.bytes 16 8)] 0 false).markPacket k h.mseq.toNat, none)

/-- Whether a header is that of the service message of this MSEQ. -/
def isService (mark : Nat) (h : Header) : Bool := h.stile.toNat == Config.vestibuleNode && h.kind == 0 && h.mseq.toNat == mark

/-- The landing entry of a service message. -/
def Landing.service (l : Landing) (mark : Nat) : Option Entry :=
  (l.slots ++ l.spill ++ l.again.map (·.entry)).find? fun e => isService mark e.hdr

/-- The record of a trap that a service message's handler took. -/
def State.serviceTrap (s : State) (mark : Nat) : Option (List Word) :=
  s.vest.sysTraps.find? fun r =>
    ((r.getD 3 0).extractLsb' 16 12).toNat == Config.vestibuleNode && ((r.getD 3 0).extractLsb' 0 16).toNat == mark

/-- Its end: the handler has ended, or its message was consumed after trapping as R277 has it, or its job is sealed; an unloaded job was
sealed (R325). -/
def State.injectEnd (s : State) (k : Pkt) (x : Packet) : Option (Nat × Nat) :=
  match s.part k.part with
  | none => some (stSealed, 0)
  | some p =>
    let entry := p.tiles.findSome? fun t => (s.getTile t).land.service x.mark
    let onWay := (s.vest.out.any fun m => isService x.mark m.hdr) || s.flying.any fun f => isService x.mark f.hdr
    if p.job.isNone then some (stSealed, 0)
    else
      match s.serviceTrap x.mark, entry with
      | some r, none => some (stBadPkt, (r.getD 0 0).toNat % 256)
      | _, _ =>
        if p.sealed_ then (if s.vest.seals.any fun c => c.pid == k.part then none else some (stSealed, 0))
        else if onWay || entry.isSome then none
        else some (stOk, 0)

/-- After it: ERRINJ.EN is clear. -/
def State.injectAfter (s : State) (k : Pkt) : State :=
  match s.part k.part, (s.queue k.n).bind fun q => q.atWork.find? (·.idx == k.idx) with
  | some p, some x =>
    let s1 := match (s.vestDest p (injectTile k.bytes)).filter (·.1 == s.pkg) with
      | some (_, t) => s.modTile t fun y => { y with regs := { y.regs with errEn := false } }
      | none => s
    s1.modVest fun v => { v with sysTraps := v.sysTraps.filter fun r => s.serviceTrap x.mark != some r }
  | _, _ => s

/-- R336: INJECTERR. -/
def execInjecterr (q : Nat) (s : State) : Result :=
  .next (s.command q .injecterr always State.injecterr State.injectEnd State.injectAfter)

end Sys2Proof.Machine
end

