-- ==== Sys2Proof/Machine/LoadStore.lean ====
section
/-! DEFINITION. Loads, stores and full/empty forms (spec/ 13 R189 to R191). -/

namespace Sys2Proof.Machine

/-- A load of `n` bytes (R189). -/
def State.loadG (s : State) (len : Nat) (ea : Addr) (n : Nat) (signed : Bool) (d : Reg) : State :=
  s.accessAt len ea n n needRead (fun k => .read [⟨k, n, 0⟩]) (.load d n signed) true false

/-- A store of `n` bytes (R189). -/
def State.storeG (s : State) (len : Nat) (ea : Addr) (n : Nat) (w : Word) : State :=
  s.accessAt len ea n n needWrite (fun k => .write [(k, leBytes n w.toNat)] false none) .none false false

/-- R189: a load of 1 byte, sign-extended. -/
def execLdbs (d a : Reg) (i : BitVec 12) (s : State) : Result :=
  .next (s.loadG 4 (effAddr (s.cur.rd a) 1 i) 1 true d)

/-- R189: a load of 1 byte, zero-extended. -/
def execLdbz (d a : Reg) (i : BitVec 12) (s : State) : Result :=
  .next (s.loadG 4 (effAddr (s.cur.rd a) 1 i) 1 false d)

/-- R189: a load of 2 bytes, sign-extended. -/
def execLdhs (d a : Reg) (i : BitVec 12) (s : State) : Result :=
  .next (s.loadG 4 (effAddr (s.cur.rd a) 2 i) 2 true d)

/-- R189: a load of 2 bytes, zero-extended. -/
def execLdhz (d a : Reg) (i : BitVec 12) (s : State) : Result :=
  .next (s.loadG 4 (effAddr (s.cur.rd a) 2 i) 2 false d)

/-- R189: a load of 4 bytes, sign-extended. -/
def execLdws (d a : Reg) (i : BitVec 12) (s : State) : Result :=
  .next (s.loadG 4 (effAddr (s.cur.rd a) 4 i) 4 true d)

/-- R189: a load of 4 bytes, zero-extended. -/
def execLdwz (d a : Reg) (i : BitVec 12) (s : State) : Result :=
  .next (s.loadG 4 (effAddr (s.cur.rd a) 4 i) 4 false d)

/-- R189: a load of 8 bytes. -/
def execLdd (d a : Reg) (i : BitVec 12) (s : State) : Result :=
  .next (s.loadG 4 (effAddr (s.cur.rd a) 8 i) 8 false d)

/-- R189: a store of 1 byte. -/
def execStb (d a : Reg) (i : BitVec 12) (s : State) : Result :=
  .next (s.storeG 4 (effAddr (s.cur.rd a) 1 i) 1 (s.cur.rd d))

/-- R189: a store of 2 bytes. -/
def execSth (d a : Reg) (i : BitVec 12) (s : State) : Result :=
  .next (s.storeG 4 (effAddr (s.cur.rd a) 2 i) 2 (s.cur.rd d))

/-- R189: a store of 4 bytes. -/
def execStw (d a : Reg) (i : BitVec 12) (s : State) : Result :=
  .next (s.storeG 4 (effAddr (s.cur.rd a) 4 i) 4 (s.cur.rd d))

/-- R189: a store of 8 bytes. -/
def execStd (d a : Reg) (i : BitVec 12) (s : State) : Result :=
  .next (s.storeG 4 (effAddr (s.cur.rd a) 8 i) 8 (s.cur.rd d))

/-- A full/empty form (R190): `needs` says whether it can change FULL, `wait` whether the context waits for the reply. -/
def State.feAt (s : State) (ea : Addr) (op : FeOp) (w : Word) (fin : Fin) (needs wait rel : Bool) : State :=
  s.accessAt 4 ea 8 8 ⟨needs, true⟩ (fun k => .fe op k w) fin wait rel

/-- R190: waits until full, then loads. -/
def execLddW (d a : Reg) (i : BitVec 12) (s : State) : Result :=
  .next (s.feAt (effAddr (s.cur.rd a) 8 i) .lddW 0 (.word d) false true false)

/-- R190: waits until full, loads and clears FULL. -/
def execLddWc (d a : Reg) (i : BitVec 12) (s : State) : Result :=
  .next (s.feAt (effAddr (s.cur.rd a) 8 i) .lddWc 0 (.word d) true true false)

/-- R190: loads if full, else EMPTY. -/
def execLddT (d a : Reg) (i : BitVec 12) (s : State) : Result :=
  .next (s.feAt (effAddr (s.cur.rd a) 8 i) .lddT 0 (.word d) false true false)

/-- R190: loads and clears FULL if full, else EMPTY. -/
def execLddTc (d a : Reg) (i : BitVec 12) (s : State) : Result :=
  .next (s.feAt (effAddr (s.cur.rd a) 8 i) .lddTc 0 (.word d) true true false)

/-- R190: FULL as 0 or 1. -/
def execFetest (d a : Reg) (i : BitVec 12) (s : State) : Result :=
  .next (s.feAt (effAddr (s.cur.rd a) 8 i) .fetest 0 (.word d) false true false)

/-- R190: stores and sets FULL; a release. -/
def execStdF (d a : Reg) (i : BitVec 12) (s : State) : Result :=
  .next (s.feAt (effAddr (s.cur.rd a) 8 i) .stdF (s.cur.rd d) .none true false true)

/-- R190: waits until empty, stores and sets FULL; a release. -/
def execStdWf (d a : Reg) (i : BitVec 12) (s : State) : Result :=
  .next (s.feAt (effAddr (s.cur.rd a) 8 i) .stdWf (s.cur.rd d) .none true true true)

/-- R190: sets FULL; a release. -/
def execFeset (a : Reg) (i : BitVec 12) (s : State) : Result :=
  .next (s.feAt (effAddr (s.cur.rd a) 8 i) .feset 0 .none true false true)

/-- R190: clears FULL. -/
def execFeclr (a : Reg) (i : BitVec 12) (s : State) : Result :=
  .next (s.feAt (effAddr (s.cur.rd a) 8 i) .feclr 0 .none true false false)

end Sys2Proof.Machine
end

