-- ==== Sys2Proof/Machine/Compressed.lean ====
section
/-! DEFINITION. The 16-bit instructions (spec/ 09 R141, R142). -/

namespace Sys2Proof.Machine

/-- R142: C.MOV: gA into gD. -/
def execCMov (d a : Reg) (s : State) : Result :=
  .next (s.retireG 2 d (s.cur.rd a ||| s.cur.rd 0))

/-- R142: C.ADD: ADD gD, gD, gA. -/
def execCAdd (d a : Reg) (s : State) : Result :=
  .next (s.retireG 2 d (s.cur.rd d + s.cur.rd a))

/-- R142: C.SUB: SUB gD, gD, gA. -/
def execCSub (d a : Reg) (s : State) : Result :=
  .next (s.retireG 2 d (s.cur.rd d - s.cur.rd a))

/-- R142: C.AND: AND gD, gD, gA. -/
def execCAnd (d a : Reg) (s : State) : Result :=
  .next (s.retireG 2 d (s.cur.rd d &&& s.cur.rd a))

/-- R142: C.OR: OR gD, gD, gA. -/
def execCOr (d a : Reg) (s : State) : Result :=
  .next (s.retireG 2 d (s.cur.rd d ||| s.cur.rd a))

/-- R142: C.ADDI: ADDI gD, gD, #i. -/
def execCAddi (d : Reg) (i : BitVec 8) (s : State) : Result :=
  .next (s.retireG 2 d (s.cur.rd d + sext64 i))

/-- R142: C.MOVI: ADDI gD, g0, #i. -/
def execCMovi (d : Reg) (i : BitVec 8) (s : State) : Result :=
  .next (s.retireG 2 d (sext64 i))

/-- The address of C.LDD and C.STD: 8 × IMM4 above gA (R141, R142). -/
def compressedAddr (base : Word) (i : BitVec 4) : Addr := effAddr base 8 (i.setWidth 12)

/-- R142: C.LDD: a load of 8 bytes. -/
def execCLdd (d a : Reg) (i : BitVec 4) (s : State) : Result :=
  .next (s.loadG 2 (compressedAddr (s.cur.rd a) i) 8 false d)

/-- R142: C.STD: a store of 8 bytes. -/
def execCStd (d a : Reg) (i : BitVec 4) (s : State) : Result :=
  .next (s.storeG 2 (compressedAddr (s.cur.rd a) i) 8 (s.cur.rd d))

/-- R142: C.BZ: BC.EQ gD, g0. -/
def execCBz (d : Reg) (off : BitVec 8) (s : State) : Result :=
  .next (s.branchIf 2 (condHolds .eq (s.cur.rd d) (s.cur.rd 0)) (relTarget s.cur.pc off))

/-- R142: C.BNZ: BC.NE gD, g0. -/
def execCBnz (d : Reg) (off : BitVec 8) (s : State) : Result :=
  .next (s.branchIf 2 (condHolds .ne (s.cur.rd d) (s.cur.rd 0)) (relTarget s.cur.pc off))

/-- R142: C.DONE. -/
def execCDone  (s : State) : Result :=
  .next (s.commitSends s.tile s.ctx .done)

/-- R142: C.YIELD. -/
def execCYield  (s : State) : Result :=
  .next (s.yieldAt 2)

/-- R142: C.NOP. -/
def execCNop  (s : State) : Result :=
  .next (s.retire 2 id)

/-- R142: C.RET: JR g15. -/
def execCRet  (s : State) : Result :=
  .next (s.jumpReg (s.cur.rd 15) id)

/-- R142: C.COMMIT. -/
def execCCommit  (s : State) : Result :=
  .next (s.commitSends s.tile s.ctx (.commit 2))

end Sys2Proof.Machine
end

