-- ==== Sys2Proof/Machine/Vec.lean ====
section
/-! DEFINITION. Lane-wise vector operations: shared shapes (spec/ 15 R207, R208). -/

namespace Sys2Proof.Machine

/-- The value of an integer lane (R207). -/
def laneInt (t : ElemType) (x : Nat) : Int :=
  if t.isSigned ∧ 2 ^ (t.width - 1) ≤ x then (x : Int) - 2 ^ t.width else x

/-- An integer as a lane, modulo 2^w (R38). -/
def laneWrap (t : ElemType) (i : Int) : Nat := (i % 2 ^ t.width).toNat

/-- The smallest and largest value of an integer type. -/
def typeMin (t : ElemType) : Int := if t.isSigned then -(2 ^ (t.width - 1)) else 0
def typeMax (t : ElemType) : Int := if t.isSigned then 2 ^ (t.width - 1) - 1 else 2 ^ t.width - 1

/-- An integer clamped to a type's range (R38). -/
def laneClamp (t : ElemType) (i : Int) : Nat :=
  laneWrap t (if i < typeMin t then typeMin t else if typeMax t < i then typeMax t else i)

/-- A lane operation on integers modulo 2^w, without flags. -/
def laneInt2 (t : ElemType) (f : Int → Int → Int) (x y : Nat) : Nat × Flags := (laneWrap t (f (laneInt t x) (laneInt t y)), 0)

/-- Completes a predicated vector instruction with a result for each lane of width `w` (R208): flags of active lanes are ORed into
FPF. -/
def State.retireV (s : State) (w : Nat) (z : Bool) (k : KReg) (d : Reg) (xs : List (Nat × Flags)) : State :=
  s.retire 4 fun c => (c.wvMasked w z k d (xs.map (·.1))).orFlags (activeFlags (c.rk k) 0 xs)

/-- A lane-wise instruction with one source. -/
def State.vmap1 (s : State) (t : ElemType) (z : Bool) (k : KReg) (d a : Reg) (f : Nat → Nat × Flags) : State :=
  s.retireV t.width z k d ((lanes t.width (s.cur.rv a)).map f)

/-- A lane-wise instruction with two sources. -/
def State.vmap2 (s : State) (t : ElemType) (z : Bool) (k : KReg) (d a b : Reg) (f : Nat → Nat → Nat × Flags) : State :=
  s.retireV t.width z k d (List.zipWith f (lanes t.width (s.cur.rv a)) (lanes t.width (s.cur.rv b)))

/-- A lane-wise instruction with two sources and the old destination (R211). -/
def State.vmap3 (s : State) (t : ElemType) (z : Bool) (k : KReg) (d a b : Reg) (f : Nat → Nat → Nat → Nat × Flags) : State :=
  s.retireV t.width z k d
    (List.zipWith (fun xy o => f xy.1 xy.2 o) (List.zip (lanes t.width (s.cur.rv a)) (lanes t.width (s.cur.rv b)))
      (lanes t.width (s.cur.rv d)))

/-- FPM's rounding mode (R54). -/
def State.vrm (s : State) : Rm := rmOfFpm s.cur.fpm

end Sys2Proof.Machine
end

