-- ==== Sys2Proof/Machine/Vcvt.lean ====
section
/-! DEFINITION. VCVT (spec/ 15 R216, R217; 03 R55, R56). -/

namespace Sys2Proof.Machine

/-- The value of one converted lane (R217). Between integers SAT clamps where the destination is not wider; a widening conversion extends, also
across signs (R38; DEDUCED, log entry 62). -/
def convLane (src dst : ElemType) (r : Rm) (sat : Bool) (x : Nat) : Nat × Flags :=
  match src.isInt, dst.isInt with
  | false, false => fcvt (fmtOf src) (fmtOf dst) r sat x
  | false, true => fToInt r dst.isSigned dst.width (fdec (fmtOf src) x)
  | true, false => fOfInt (fmtOf dst) r sat (laneInt src x)
  | true, true =>
    (if sat && dst.width ≤ src.width then laneClamp dst (laneInt src x) else laneWrap dst (laneInt src x), 0)

/-- The draws of `n` values converted stochastically, and the generator's state after them (R56). -/
def drawList : Nat → Word → List Nat × Word
  | 0, g => ([], g)
  | n + 1, g =>
    let (us, g') := drawList n (rngStep g)
    (rngDraw (rngStep g) :: us, g')

/-- The rounding of each of `n` values and the generator's state after them. -/
def roundings (r : Rm) (sr : Bool) (n : Nat) (g : Word) : List Rm × Word :=
  if sr then ((drawList n g).1.map Rm.sto, (drawList n g).2) else (List.replicate n r, g)

/-- VCVT (R216, R217): the pairs (src, dst) in ascending source lane; destination lanes no pair names are kept. -/
def State.vcvt (s : State) (hi sat : Bool) (r : VRnd) (t src : ElemType) (z : Bool) (k : KReg) (d a : Reg) : State :=
  let n := Nat.min src.lanes t.lanes
  let from_ := if hi && src.width < t.width then n else 0
  let to_ := if hi && t.width < src.width then n else 0
  let (rs, g) := roundings (match r with
    | .rtz => .rtz
    | _ => .rne) (r == .sr) n s.cur.srng
  let xs := List.zipWith (fun rm x => convLane src t rm sat x) rs (((lanes src.width (s.cur.rv a)).drop from_).take n)
  s.retire 4 fun c =>
    let old := lanes t.width (c.rv d)
    let mid := mergeLanes z (c.rk k) to_ ((old.drop to_).take n) (xs.map (·.1))
    { (c.wv d (packLanes t.width (old.take to_ ++ mid ++ old.drop (to_ + n)))).orFlags (activeFlags (c.rk k) to_ xs) with srng := g }

/-- R216: lane conversion; `src` is the source type. -/
def execVcvt (hi sat : Bool) (r : VRnd) (t src : ElemType) (z : Bool) (k : KReg) (d a : Reg) (s : State) : Result :=
  .next (s.vcvt hi sat r t src z k d a)

end Sys2Proof.Machine
end

