-- ==== Sys2Proof/Machine/Matrix.lean ====
section
/-! DEFINITION. The outer-product array: the checks of a command at the front of the chain, and what each command computes (spec/ 17
R227 to R240, R250; 03 R60, R61). -/

namespace Sys2Proof.Machine

/-! ### Fields -/

def recM (r : List Word) : Nat := recField r 0 39 32
def recN (r : List Word) : Nat := recField r 0 47 40
def recK (r : List Word) : Nat := recField r 0 63 48
def recAcc (r : List Word) : Nat := recField r 0 23 16
def recAux (r : List Word) : Nat := recField r 0 31 24
/-- CLEAR-FIRST, SPCHK and the layout bit (R229). -/
def recClear (r : List Word) : Bool := recField r 0 10 10 == 1
def recSpchk (r : List Word) : Bool := recField r 0 9 9 == 1
/-- Whether a command uses the FP64 layout (R227). -/
def recF64 (r : List Word) : Bool := recOp r == 0x09 || recField r 0 11 11 == 1
/-- KMAJ and PITCH of a pitch word (R231). -/
def recKmaj (r : List Word) (i : Nat) : Bool := recField r i 63 63 == 1
def recPitch (r : List Word) (i : Nat) : Nat := recField r i 31 0

/-- Half-bytes of an element of a fat-pointer format (R52). -/
def fmtHalf (c : Nat) : Nat :=
  match c with
  | 1 => 16 | 2 | 12 => 8 | 3 | 4 | 11 => 4 | 7 | 8 => 1 | _ => 2

/-- Formats of A and B, and the group size, of an MMA command (R60, R230, R234). -/
structure MmaKind where
  a      : Nat
  b      : Nat
  group  : Nat
  sparse : Bool
deriving DecidableEq, Repr

/-- The kind of an MMA opcode. -/
def mmaKind (op : Nat) : MmaKind :=
  match op with
  | 0x01 => ⟨4, 4, 1, false⟩ | 0x02 => ⟨3, 3, 1, false⟩ | 0x03 => ⟨5, 5, 2, false⟩ | 0x04 => ⟨6, 6, 2, false⟩
  | 0x05 => ⟨5, 6, 2, false⟩ | 0x06 => ⟨7, 7, 8, false⟩ | 0x07 => ⟨8, 8, 8, false⟩ | 0x08 => ⟨2, 2, 1, false⟩
  | 0x09 => ⟨1, 1, 1, false⟩ | 0x0A => ⟨4, 4, 2, true⟩ | _ => ⟨5, 5, 2, true⟩

/-- What K must be a multiple of (R232). -/
def MmaKind.kStep (k : MmaKind) : Nat := if k.sparse then 8 else k.group

/-- Whether operands are block-scaled (R233). -/
def MmaKind.blocks (k : MmaKind) : Bool := k.a == 7 || k.a == 8

/-- Elements of a line of A: a compressed line holds half of them (R234). -/
def MmaKind.aCount (k : MmaKind) (r : List Word) : Nat := if k.sparse then recK r / 2 else recK r

/-- Block length of an MXF4 or Q4O command (R233). -/
def recBlockLen (r : List Word) : Nat := (blockLen (recField r 1 59 56)).getD 128

/-- Blocks of a line (R233). -/
def recBlocks (r : List Word) : Nat := (recK r + recBlockLen r - 1) / recBlockLen r

/-- Bytes from an operand's base to the end of its last byte (R231). -/
def spanBytes (kmaj : Bool) (pitch lines count half : Nat) : Nat :=
  if lines = 0 ∨ count = 0 then 0
  else if kmaj then (count - 1) * pitch + (lines * half + 1) / 2
  else (lines - 1) * pitch + (count * half + 1) / 2

/-- The ranges an operand is read from, as offsets from its base and lengths. -/
def operandRuns (kmaj : Bool) (pitch lines count half : Nat) : List (Nat × Nat) :=
  if lines = 0 ∨ count = 0 then []
  else if kmaj then (List.range count).map fun k => (k * pitch, (lines * half + 1) / 2)
  else (List.range lines).map fun i => (i * pitch, (count * half + 1) / 2)

/-! ### Local operands (R231, R236) -/

/-- The scratchpad offset of a local address of tile `t`. -/
def State.localOff (s : State) (t : Nat) (w : Word) : Option Nat :=
  if s.isLocal t w && tsZero (addrOf w) then some (tsOff (addrOf w)) else none

/-- Whether an operand of `n` bytes from its base is local, aligned and within the scratchpad; so is the base of an operand of which no
byte is read (R232). -/
def State.operandOk (s : State) (t : Nat) (w : Word) (align n : Nat) : Bool :=
  match s.localOff t w with
  | some o => o % align == 0 && o + Nat.max n 1 ≤ s.scratch t
  | none => false

/-- The memory key of a local operand. -/
def State.operandKey (s : State) (t : Nat) (w : Word) : Nat := poolBase t + (s.localOff t w).getD 0

/-! ### Accumulators (R227) -/

/-- Bytes of a cell, and the format of a layout. -/
def cellBytes (f64 : Bool) : Nat := if f64 then 8 else 4
def cellFmt (f64 : Bool) : Fmt := if f64 then fmtF64 else fmtF32

/-- The memory key of cell (i, j) of an accumulator tile of tile `t`. -/
def State.cellKey (s : State) (t acc : Nat) (f64 : Bool) (i j : Nat) : Nat :=
  poolBase t + s.scratch t + acc * 4096 + (i * 32 + j) * cellBytes f64

/-- The value of a cell. A soft error may mark accumulator storage uncorrectable, and R285 names no consumer of it: a cell is read unchecked
(DESIGN CHOICE, log entry 74). -/
def State.cell (s : State) (t acc : Nat) (f64 : Bool) (i j : Nat) : Nat :=
  s.readNat (s.cellKey t acc f64 i j) (cellBytes f64)

/-- The new cells of a command: `f i j` gives each cell's value and flags. -/
def State.newCells (s : State) (t : Nat) (r : List Word) (f : Nat → Nat → Nat × Flags) : RunResult :=
  let f64 := recF64 r
  let rows := (List.range (recM r)).map fun i => (List.range (recN r)).map (f i)
  { code := 0
    flags := (rows.flatMap fun row => row.map (·.2)).foldl (· ||| ·) 0
    cells := rows.zipIdx.map fun e =>
      (s.cellKey t (recAcc r) f64 e.2 0, e.1.flatMap fun c => leBytes (cellBytes f64) c.1) }

/-! ### Operands (R231, R233, R234) -/

/-- The elements of line `i` of an operand in a plain format. -/
def State.lineVals (s : State) (key fmt : Nat) (kmaj : Bool) (pitch count i : Nat) : List FV :=
  let n := fmtHalf fmt / 2
  (List.range count).map fun k =>
    fdec (fmtOfCode fmt) (s.readNat (key + (if kmaj then k * pitch + i * n else i * pitch + k * n)) n)

/-- The blocks of a line: their codes and scale bytes decoded in turn. -/
def blockVals (q4o : Bool) (len : Nat) : List Byte → List Nat → List FV × Bool
  | [], _ => ([], false)
  | sc :: scs, codes =>
    let (vs, bad) := decodeBlock q4o sc.toNat (codes.take len)
    let (ws, bad') := blockVals q4o len scs (codes.drop len)
    (vs ++ ws, bad || bad')

/-- The elements of line `i` of a block-scaled operand, and QM. -/
def State.lineBlocks (s : State) (r : List Word) (key scale pitch i : Nat) : List FV × Bool :=
  blockVals (recOp r == 0x07) (recBlockLen r) (s.read (scale + i * recBlocks r) (recBlocks r))
    (nibbles (s.read (key + i * pitch) (recK r / 2)))

/-- The lines of operand A (`first` true) or B of an MMA command, and QM. -/
def State.operandLines (s : State) (t : Nat) (r : List Word) (first : Bool) : List (List FV) × Bool :=
  let k := mmaKind (recOp r)
  let w := if first then 1 else 3
  let lines := if first then recM r else recN r
  let key := s.operandKey t (recWord r w)
  if k.blocks then
    let ls := (List.range lines).map fun i =>
      s.lineBlocks r key (s.operandKey t (recWord r (if first then 5 else 6))) (recPitch r (w + 1)) i
    (ls.map (·.1), ls.any (·.2))
  else
    ((List.range lines).map fun i =>
      s.lineVals key (if first then k.a else k.b) (recKmaj r (w + 1)) (recPitch r (w + 1))
        (if first then k.aCount r else recK r) i, false)

/-- The metadata nibble of row `i`, group `g` (R234): positions p0 and p1. -/
def State.spPos (s : State) (t : Nat) (r : List Word) (i g : Nat) : Nat × Nat :=
  let b := (s.byteAt (s.operandKey t (recWord r 5) + i * (recK r / 8) + g / 2)).toNat
  let n := if g % 2 = 0 then b % 16 else b / 16
  (n % 4, n / 4)

/-- Whether some nibble has p1 ≤ p0 (R234). -/
def State.spBad (s : State) (t : Nat) (r : List Word) : Bool :=
  (List.range (recM r)).any fun i => (List.range (recK r / 4)).any fun g =>
    let p := s.spPos t r i g
    p.2 ≤ p.1

/-- Consecutive groups of `n` elements. -/
def chunks {α : Type} (n : Nat) : Nat → List α → List (List α)
  | 0, _ => []
  | m + 1, xs => xs.take n :: chunks n m (xs.drop n)

/-- One cell's groups in turn, each with one rounding (R60). -/
def mmaCell (f : Fmt) (c : Nat) (groups : List (List (FV × FV))) : Nat × Flags :=
  groups.foldl (fun a g =>
    let (x, fl) := groupSum f (fdec f a.1) g
    (x, a.2 ||| fl)) (c, 0)

/-- The products of cell (i, j), by group (R60, R234). -/
def State.cellGroups (s : State) (t : Nat) (r : List Word) (i : Nat) (a b : List FV) : List (List (FV × FV)) :=
  let k := mmaKind (recOp r)
  let zero : FV := .num false 0 0
  if k.sparse then
    (List.range (recK r / 4)).map fun g =>
      let p := s.spPos t r i g
      [(a.getD (2 * g) zero, b.getD (4 * g + p.1) zero), (a.getD (2 * g + 1) zero, b.getD (4 * g + p.2) zero)]
  else chunks k.group (recK r / k.group) (a.zip b)

/-- What an MMA command computes (R232). -/
def State.runMma (s : State) (t : Nat) (r : List Word) : RunResult :=
  let (as, qa) := s.operandLines t r true
  let (bs, qb) := s.operandLines t r false
  let f64 := recF64 r
  let res := s.newCells t r fun i j =>
    mmaCell (cellFmt f64) (if recClear r then 0 else s.cell t (recAcc r) f64 i j) (s.cellGroups t r i (as.getD i []) (bs.getD j []))
  if recK r = 0 ∧ recClear r = false then { res with cells := [] }
  else { res with flags := res.flags ||| (if qa || qb then flagQM else 0) }

/-! ### Checks (R232, R238) -/

/-- BADCMD of an MMA command: shape, pitch, format and block length. -/
def mmaBadCmd (r : List Word) : Bool :=
  let k := mmaKind (recOp r)
  !(1 ≤ recM r && recM r ≤ (if recF64 r then 16 else 32) && 1 ≤ recN r && recN r ≤ 32 && recK r % k.kStep == 0
    && recPitch r 2 % 16 == 0 && recPitch r 4 % 16 == 0
    && (!k.blocks || (recField r 1 63 60 == k.a && recField r 3 63 60 == k.b && (blockLen (recField r 1 59 56)).isSome
        && blockLen (recField r 1 59 56) == blockLen (recField r 3 59 56) && !recKmaj r 2 && !recKmaj r 4))
    && (!k.sparse || !recKmaj r 2))

/-- AUX of ALOAD and ASTORE (R236, R237). -/
def auxFmt (r : List Word) : Nat := recAux r % 16
def auxRnd (r : List Word) : Nat := recAux r / 16 % 4
def auxSat (r : List Word) : Bool := recAux r / 64 % 2 == 1

/-- BADCMD of an accumulator command (R232, R235 to R237). -/
def accBadCmd (r : List Word) : Bool :=
  let f := auxFmt r
  !(recM r ≤ (if recF64 r then 16 else 32) && recN r ≤ 32 && recK r == 0
    && (recOp r != 0x11 || (1 ≤ f && f ≤ 4 && (f != 1 || recF64 r)))
    && (recOp r != 0x12 || (1 ≤ f && f ≤ 8 && auxRnd r != 3 && (auxRnd r != 2 || 3 ≤ f)
        && (f < 7 || (recN r == 32 && recField r 1 63 60 == f && recField r 1 59 56 == 5))))
    && ((recOp r != 0x11 && recOp r != 0x12) || recPitch r 2 % 16 == 0))

/-- BADADDR of an MMA command (R231, R232). -/
def State.mmaBadAddr (s : State) (t : Nat) (r : List Word) : Bool :=
  let k := mmaKind (recOp r)
  !(s.operandOk t (recWord r 1) 16 (spanBytes (recKmaj r 2) (recPitch r 2) (recM r) (k.aCount r) (fmtHalf k.a))
    && s.operandOk t (recWord r 3) 16 (spanBytes (recKmaj r 4) (recPitch r 4) (recN r) (recK r) (fmtHalf k.b))
    && (!k.blocks || (s.operandOk t (recWord r 5) 1 (recM r * recBlocks r) && s.operandOk t (recWord r 6) 1 (recN r * recBlocks r)))
    && (!k.sparse || s.operandOk t (recWord r 5) 1 (recM r * (recK r / 8))))

/-- Bytes of a row of ALOAD or ASTORE: none where no cell is touched. -/
def accRowBytes (r : List Word) : Nat := if auxFmt r ≥ 7 then 16 else recN r * (fmtHalf (auxFmt r) / 2)

/-- BADADDR of an accumulator command (R236, R237). -/
def State.accBadAddr (s : State) (t : Nat) (r : List Word) : Bool :=
  if recOp r = 0x11 then
    !s.operandOk t (recWord r 1) 16 (spanBytes false (recPitch r 2) (recM r) (recN r) (fmtHalf (auxFmt r)))
  else recOp r == 0x12 && auxFmt r ≥ 7 && !s.operandOk t (recWord r 5) 1 (recM r)

/-- The address of ASTORE's row `i` (R237). -/
def storeRow (r : List Word) (i : Nat) : Addr := addrOf (recWord r 1) + BitVec.ofNat 56 (i * recPitch r 2)

/-- The rows ASTORE writes: none where no cell is touched. -/
def storeRows (r : List Word) : List Nat := if recN r = 0 then [] else List.range (recM r)

/-- The first of the failed checks in the order of R109. -/
def firstTrap : List Trap → Option Trap
  | [] => none
  | e :: es =>
    match firstTrap es with
    | some f => if codeOfTrap f < codeOfTrap e then some f else some e
    | none => some e

/-- The checks of an address that need no page: ALIGN, PARTITION and ACCESS of tile space (R107, R109). -/
def State.placeTrap (s : State) (t : Nat) (a : Addr) (n : Nat) : Option Trap :=
  if a.toNat % 16 ≠ 0 then some (trapAlign a)
  else if inTileSpace a then
    match s.tilePiece t a n with
    | .ok _ => none
    | .error e => some e
  else none

/-- The ranges of addresses a command's stores use: those of ASTORE. -/
def storeRanges (r : List Word) : List (Addr × Nat) :=
  if recOp r = 0x12 then (storeRows r).map fun i => (storeRow r i, accRowBytes r) else []

/-- The failed checks of ASTORE's destination: of its rows. With M = 0 or N = 0 it has none and touches no memory, and R237 does not say
which checks are left: the base's alignment, partition and access in a tile's space, and no page is looked at (DESIGN CHOICE, log entry 82). -/
def State.storeTraps (s : State) (t : Nat) (r : List Word) : List Trap :=
  if storeRows r = [] then (s.placeTrap t (storeRow r 0) 0).toList
  else
    (storeRows r).filterMap fun i =>
      match s.resolve t (storeRow r i) (accRowBytes r) 16 needWrite with
      | .ok _ => none
      | .error e => some e

/-- What the checks at the front of the chain come to. -/
inductive Verdict where
  | ok
  | fail (code : Nat)
  /-- a page the Vestibule is asked to back (R117, R238) -/
  | back (va : Addr)
  /-- a check that reads uncorrectable data, at this memory key (R238, R285) -/
  | bad (k : Nat)
deriving DecidableEq, Repr

/-- The metadata of an MMA.SP command: its place and length (R234). -/
def State.metadata (s : State) (t : Nat) (r : List Word) : Nat × Nat := (s.operandKey t (recWord r 5), recM r * (recK r / 8))

/-- The checks of R238, in their order. -/
def State.matrixCheck (s : State) (t : Nat) (k : Cmd) : Verdict :=
  let r := k.record
  let op := recOp r
  let tiles := (s.getTile t).regs.accq.toNat * 8
  let spchk := (mmaKind op).sparse && isMma op && recSpchk r
  if (if isMma op then mmaBadCmd r else accBadCmd r) then .fail codeBadCmd
  else if tiles ≤ recAcc r ∨ (op = 0x13 ∧ tiles ≤ recField r 1 6 0) then .fail codeBadAcc
  else if (if isMma op then s.mmaBadAddr t r else s.accBadAddr t r) then .fail codeBadAddr
  else if spchk && (s.badParts [s.metadata t r]).isSome then .bad ((s.badParts [s.metadata t r]).getD 0)
  else if spchk && s.spBad t r then .fail codeBadSparse
  else if op = 0x12 then
    match firstTrap (s.storeTraps t r) with
    | none => .ok
    | some e => if codeOfTrap e = 0x07 ∧ k.denied = false then .back e.addr else .fail (codeOfTrap e)
  else .ok

/-! ### Cost and leave (R250, R353) -/

/-- Cost in array-cycles (R250). -/
def matrixCost (r : List Word) : Nat :=
  match recOp r with
  | 0x01 | 0x02 => recK r
  | 0x03 | 0x04 | 0x05 | 0x0A => recK r / 2
  | 0x0B => recK r / 4
  | 0x06 | 0x07 => recK r / 8
  | 0x08 => 4 * recK r
  | 0x09 => 8 * recK r
  | 0x20 => 0
  | _ => recM r

/-- Weight in milliwatts (R353). -/
def matrixWeight (op : Nat) : Nat :=
  match op with
  | 0x01 | 0x02 | 0x0A => 1500
  | 0x03 | 0x04 | 0x05 | 0x0B => 1600
  | 0x06 | 0x07 => 1700
  | 0x08 => 1800
  | _ => 2100

/-! ### Running (R235 to R237, R285) -/

/-- The byte ranges a matrix command reads, as memory keys and lengths. -/
def State.matrixReads (s : State) (t : Nat) (r : List Word) : List (Nat × Nat) :=
  let k := mmaKind (recOp r)
  let at_ := fun (w : Nat) (runs : List (Nat × Nat)) => runs.map fun e => (s.operandKey t (recWord r w) + e.1, e.2)
  if isMma (recOp r) then
    if recK r = 0 then []
    else
      at_ 1 (operandRuns (recKmaj r 2) (recPitch r 2) (recM r) (k.aCount r) (fmtHalf k.a))
        ++ at_ 3 (operandRuns (recKmaj r 4) (recPitch r 4) (recN r) (recK r) (fmtHalf k.b))
        ++ (if k.blocks then at_ 5 [(0, recM r * recBlocks r)] ++ at_ 6 [(0, recN r * recBlocks r)] else [])
        ++ (if k.sparse then at_ 5 [(0, recM r * (recK r / 8))] else [])
  else if recOp r = 0x11 then at_ 1 (operandRuns false (recPitch r 2) (recM r) (recN r) (fmtHalf (auxFmt r)))
  else []

/-- The seed of a stochastic command (R237, R243). -/
def State.engineSeed (s : State) (t seed : Nat) : Word :=
  let base := match s.jobOf t with
    | some j => j.srseed
    | none => 0
  rngSeed (base ^^^ BitVec.ofNat 64 (seed * 2 ^ 32) ^^^ BitVec.ofNat 64 seed)

/-- RND of an engine command (R237, R241). -/
def rndOf (c : Nat) : Rm := if c = 1 then .rtz else .rne

/-- One row of ASTORE: its bytes, its scale byte for FMT 7 and 8, and its flags. -/
def storeRowBytes (r : List Word) (row : List (Nat × Rm)) : List Byte × List Byte × Flags :=
  let src := cellFmt (recF64 r)
  if auxFmt r ≥ 7 then
    let (sc, codes, fl) := quantBlock (auxFmt r == 8) (row.map fun x => (fdec src x.1, x.2))
    (packNibbles codes, [BitVec.ofNat 8 sc], fl)
  else
    let f := fmtOfCode (auxFmt r)
    let xs := row.map fun x => fcvt src f x.2 (auxSat r) x.1
    (xs.flatMap fun x => leBytes (f.width / 8) x.1, [], xs.foldl (fun fl x => fl ||| x.2) 0)

/-- ASTORE (R237): its rows are written in order, with FULL, and each scale byte. -/
def State.runStore (s : State) (t : Nat) (k : Cmd) : State :=
  let r := k.record
  let m := recM r
  let n := recN r
  let (rs, _) := roundings (rndOf (auxRnd r)) (auxRnd r == 2) (m * n) (s.engineSeed t (recField r 3 31 0))
  let rows := (storeRows r).map fun i =>
    (i, storeRowBytes r (((List.range n).map fun j => s.cell t (recAcc r) (recF64 r) i j).zip ((rs.drop (i * n)).take n)))
  let s1 := rows.foldl (fun s e =>
    match s.resolve t (storeRow r e.1) (accRowBytes r) 16 needWrite with
    | .ok ps =>
      let s' := (s.touch t (storeRow r e.1) (accRowBytes r)).engineWrites t true k.seq k.ftag true ps e.2.1
      if e.2.2.1 = [] then s'
      else
        s'.engineWrite t true k.seq k.ftag true
          { pkg := s.pkg, node := t, key := s.operandKey t (recWord r 5) + e.1, len := 1, addr := 0, page := none } e.2.2.1
    | .error _ => s) s
  s1.modTile t fun x => x.modCmd true k.seq fun c =>
    { c with result := some { code := 0, flags := rows.foldl (fun fl e => fl ||| e.2.2.2) 0, cells := [] } }

/-- What a command other than ASTORE computes. -/
def State.runCells (s : State) (t : Nat) (r : List Word) : RunResult :=
  let f64 := recF64 r
  match recOp r with
  | 0x20 => { code := 0, flags := 0, cells := [] }
  | 0x10 => s.newCells t r fun _ _ => (0, 0)
  | 0x11 =>
    let n := fmtHalf (auxFmt r) / 2
    s.newCells t r fun i j =>
      (fmovi (fmtOfCode (auxFmt r)) (cellFmt f64) (s.readNat (s.operandKey t (recWord r 1) + i * recPitch r 2 + j * n) n), 0)
  | 0x13 => s.newCells t r fun i j =>
    fadd (cellFmt f64) .rne (s.cell t (recAcc r) f64 i j) (s.cell t (recField r 1 6 0) f64 i j)
  | _ => s.runMma t r

/-- A checked command runs: uncorrectable operand data stops it (R285). -/
def State.runMatrix (s : State) (t : Nat) (k : Cmd) : State :=
  match s.badParts (s.matrixReads t k.record) with
  | some b => s.killCmd t true k.seq b
  | none =>
    if recOp k.record = 0x12 then s.runStore t k
    else
      let res := s.runCells t k.record
      s.modTile t fun x => x.modCmd true k.seq fun c => { c with result := some res }

/-- The command at the front of a tile's chain, if it has this opcode and can go on; a frozen tile starts none (R239, R99). -/
def State.frontCmd (s : State) (t op : Nat) : Option Cmd :=
  if s.enginesRun t = false ∨ (s.getTile t).frozen then none
  else
    match (s.getTile t).matrix.cmds.head? with
    | some k =>
      if recOp k.record == op && !k.bad && !k.xlate && !k.dead && k.result.isNone && !k.wantsLeave then some k else none
    | none => none

/-- The front command is checked, asks for leave if its cost needs it, and runs (R238, R250). -/
def State.matrixStep (s : State) (t op : Nat) : State :=
  match s.frontCmd t op with
  | none => s
  | some k =>
    s.engineLease t (storeRanges k.record) <|
    match s.matrixCheck t k with
    | .fail code => s.failCmd t true k.seq code
    | .bad b => s.killCmd t true k.seq b
    | .back va => s.askXlate t true k va true
    | .ok =>
      if 0x10000 < matrixCost k.record ∧ k.leave = .notAsked then s.askLeave t true k (matrixWeight op) else s.runMatrix t k

/-- R232: MMA.BF16 at the front of the chain. -/
def execMmaBf16 (t : Nat) (s : State) : Result := .next (s.matrixStep t 0x01)

/-- R232: MMA.F16 at the front of the chain. -/
def execMmaF16 (t : Nat) (s : State) : Result := .next (s.matrixStep t 0x02)

/-- R232: MMA.E4M3 at the front of the chain. -/
def execMmaE4m3 (t : Nat) (s : State) : Result := .next (s.matrixStep t 0x03)

/-- R232: MMA.E5M2 at the front of the chain. -/
def execMmaE5m2 (t : Nat) (s : State) : Result := .next (s.matrixStep t 0x04)

/-- R232: MMA.E4E5 at the front of the chain. -/
def execMmaE4e5 (t : Nat) (s : State) : Result := .next (s.matrixStep t 0x05)

/-- R232: MMA.MXF4 at the front of the chain. -/
def execMmaMxf4 (t : Nat) (s : State) : Result := .next (s.matrixStep t 0x06)

/-- R232: MMA.Q4O at the front of the chain. -/
def execMmaQ4o (t : Nat) (s : State) : Result := .next (s.matrixStep t 0x07)

/-- R232: MMA.F32 at the front of the chain. -/
def execMmaF32 (t : Nat) (s : State) : Result := .next (s.matrixStep t 0x08)

/-- R232: MMA.F64 at the front of the chain. -/
def execMmaF64 (t : Nat) (s : State) : Result := .next (s.matrixStep t 0x09)

/-- R232: MMA.SP.BF16 at the front of the chain. -/
def execMmaSpBf16 (t : Nat) (s : State) : Result := .next (s.matrixStep t 0x0A)

/-- R232: MMA.SP.E4M3 at the front of the chain. -/
def execMmaSpE4m3 (t : Nat) (s : State) : Result := .next (s.matrixStep t 0x0B)

/-- R235: cells set to +0. -/
def execAclr (t : Nat) (s : State) : Result := .next (s.matrixStep t 0x10)

/-- R236: cells loaded from local scratchpad. -/
def execAload (t : Nat) (s : State) : Result := .next (s.matrixStep t 0x11)

/-- R237: cells stored with a rounding. -/
def execAstore (t : Nat) (s : State) : Result := .next (s.matrixStep t 0x12)

/-- R235: cells of one accumulator tile added into another. -/
def execAadd (t : Nat) (s : State) : Result := .next (s.matrixStep t 0x13)

/-- R230: a command that only completes. -/
def execMark (t : Nat) (s : State) : Result := .next (s.matrixStep t 0x20)

/-- The command of a chain that completes now: the front one, once it has run and its writes are performed, or a counter-posted one
that failed its post checks in its turn (R239, R246). -/
def State.matrixDone (s : State) (t : Nat) : Option Cmd :=
  if s.enginesRun t = false then none
  else
    match (s.getTile t).matrix.cmds.head? with
    | some k => if k.bad || k.finished then some k else none
    | none => none

/-- A counter-posted record that failed its post checks completes with BADCMD (R246). -/
def Cmd.settled (k : Cmd) : Cmd := if k.bad then { k with result := some { code := codeBadCmd, flags := 0, cells := [] } } else k

/-- R239: the front command completes: status, NOTIFY, completed number. -/
def execMatrixCommandComplete (t : Nat) (s : State) : Result :=
  match s.matrixDone t with
  | some k => .next (s.completeCmd t true k.settled)
  | none => .next s

end Sys2Proof.Machine
end

