-- ==== Sys2Proof/Machine/Copy.lean ====
section
/-! DEFINITION. The copy engine: its checks, the rows of a command, raw copies and conversions (spec/ 17 R241 to R245). -/

namespace Sys2Proof.Machine

/-! ### Fields (R241, R243) -/

def recRows (r : List Word) : Nat := recField r 3 47 32
def recCount (r : List Word) : Nat := recField r 3 31 0
def recDpitch (r : List Word) : Nat := recField r 4 63 32
def recSpitch (r : List Word) : Nat := recField r 4 31 0
def copyRnd (r : List Word) : Nat := recField r 0 17 16
def copySat (r : List Word) : Bool := recField r 0 10 10 == 1
def copySetFull (r : List Word) : Bool := recField r 0 9 9 == 1
def copySeed (r : List Word) : Nat := recField r 0 63 32

/-- What a pair of formats asks for (R243). -/
inductive CopyKind where
  /-- raw, with the element size in half-bytes -/
  | raw (half : Nat)
  | convert
  | blocks
  | none
deriving DecidableEq, Repr

/-- Half-bytes of a raw element: one byte where no format is given (R243). -/
def rawHalf (f : Nat) : Nat := if f = 0 then 2 else fmtHalf f

/-- The kind of a copy record (R52, R243). -/
def copyKind (r : List Word) : CopyKind :=
  let s := copySrcFmt r
  let d := copyDstFmt r
  if 12 < s ∨ 12 < d then .none
  else if s = d ∨ s = 0 ∨ d = 0 then .raw (rawHalf (if s = 0 then d else s))
  else if s ≤ 6 ∧ d ≤ 6 then .convert
  else if (s = 7 ∨ s = 8) ∧ d ≤ 6 then .blocks
  else .none

/-- Block length of a block source (R53). -/
def copyBlockLen (r : List Word) : Option Nat := blockLen (recField r 1 59 56)

/-- Half-bytes of a source and of a destination element. -/
def srcHalf (r : List Word) : Nat :=
  match copyKind r with
  | .raw h => h
  | _ => fmtHalf (copySrcFmt r)
def dstHalf (r : List Word) : Nat :=
  match copyKind r with
  | .raw h => h
  | _ => fmtHalf (copyDstFmt r)

/-- Row lengths in bytes (R242). -/
def srcRowBytes (r : List Word) : Nat := recCount r * srcHalf r / 2
def dstRowBytes (r : List Word) : Nat := recCount r * dstHalf r / 2

/-- BADCMD (R241 to R243). Whether a raw copy or FILL has the BLK of its pointers checked is not said (R53): only conversions of blocks have
(DESIGN CHOICE, log entry 63). -/
def copyBadCmd (r : List Word) : Bool :=
  !(1 ≤ recRows r && 1 ≤ recCount r && (recOp r != 1 || recRows r == 1) && recDpitch r % 16 == 0 && recSpitch r % 16 == 0
    && (copyKind r != .none)
    && (copyRnd r != 2 || (match copyKind r with
        | .raw _ => false
        | _ => 3 ≤ copyDstFmt r))
    && recCount r * dstHalf r % 32 == 0 && (recOp r == 3 || recCount r * srcHalf r % 32 == 0)
    && (copyKind r != .blocks || (match copyBlockLen r with
        | some l => recCount r % l == 0
        | none => false)))

/-! ### Rows (R242) -/

/-- Whether the command reads an index array. -/
def copyIndexed (r : List Word) : Bool := recOp r == 4 || recOp r == 5

/-- The index of row `i` (R242). -/
def State.copyIndex (s : State) (t : Nat) (r : List Word) (i : Nat) : Int :=
  if copyIndexed r then (BitVec.ofNat 32 (s.readNat (s.operandKey t (recWord r 5) + 4 * i) 4)).toInt else i

/-- The source row number and destination row number of row `i`. -/
def State.srcRow (s : State) (t : Nat) (r : List Word) (i : Nat) : Int := if recOp r = 4 then s.copyIndex t r i else i
def State.dstRow (s : State) (t : Nat) (r : List Word) (i : Nat) : Int := if recOp r = 5 then s.copyIndex t r i else i

/-- The addresses of row `i`, modulo 2^56. -/
def State.srcAddr (s : State) (t : Nat) (r : List Word) (i : Nat) : Addr :=
  addrOf (recWord r 1) + BitVec.ofInt 56 (s.srcRow t r i * recSpitch r)
def State.dstAddr (s : State) (t : Nat) (r : List Word) (i : Nat) : Addr :=
  addrOf (recWord r 2) + BitVec.ofInt 56 (s.dstRow t r i * recDpitch r)

/-- Scale bytes of a source row (R243). -/
def scalesPerRow (r : List Word) : Nat := recCount r / (copyBlockLen r).getD 1

/-- The offset of the scale bytes of row `i`'s source row. -/
def State.scaleOff (s : State) (t : Nat) (r : List Word) (i : Nat) : Int :=
  (((s.localOff t (recWord r 6)).getD 0 : Nat) : Int) + s.srcRow t r i * scalesPerRow r

/-- The index array: its place and length. -/
def State.copyIndices (s : State) (t : Nat) (r : List Word) : List (Nat × Nat) :=
  if copyIndexed r then [(s.operandKey t (recWord r 5), 4 * recRows r)] else []

/-- BADADDR of the index base (R244). -/
def State.copyBadIndex (s : State) (t : Nat) (r : List Word) : Bool :=
  copyIndexed r && !s.operandOk t (recWord r 5) 4 (4 * recRows r)

/-- BADADDR of SCALE (R244). -/
def State.copyBadScale (s : State) (t : Nat) (r : List Word) : Bool :=
  (copyKind r == .blocks &&
        ((s.localOff t (recWord r 6)).isNone || (List.range (recRows r)).any fun i =>
          s.scaleOff t r i < 0 || (s.scratch t : Int) < s.scaleOff t r i + scalesPerRow r))

/-- The parts of a range on each side of 64 KiB boundaries. -/
def longParts : Nat → Nat → Nat → List (Nat × Nat)
  | 0, _, _ => []
  | f + 1, a, n =>
    let room := 0x10000 - a % 0x10000
    if n ≤ room then [(a, n)] else (a, room) :: longParts f ((a + room) % 0x80000000000000) (n - room)

/-- The page parts of a paged row. -/
def rowParts (a : Addr) (n : Nat) : List (Nat × Nat) := longParts (n / 0x10000 + 2) a.toNat n

/-- The check of one row before any write (R244): ALIGN, PARTITION, ACCESS of tile space, and SETFULL of a page that is not window
scratchpad. -/
def State.rowTrap (s : State) (t : Nat) (a : Addr) (n : Nat) (setFull : Bool) : Option Trap :=
  if a.toNat % 16 ≠ 0 ∨ inTileSpace a then s.placeTrap t a n
  else if setFull then
    (rowParts a n).findSome? fun p =>
      match s.leafOf t p.1 with
      | some l => if pteSpb l.pte then none else some (trapAccess (BitVec.ofNat 56 p.1))
      | none => some (trapAccess (BitVec.ofNat 56 p.1))
  else none

/-- The checks of a copy command before any write, in the order of R244. -/
def State.copyCheck (s : State) (t : Nat) (r : List Word) : Verdict :=
  if copyBadCmd r then .fail codeBadCmd
  else if s.copyBadIndex t r then .fail codeBadAddr
  else if (s.badParts (s.copyIndices t r)).isSome then .bad ((s.badParts (s.copyIndices t r)).getD 0)
  else if s.copyBadScale t r then .fail codeBadAddr
  else
    let rows := List.range (recRows r)
    let srcs := if recOp r = 3 then [] else rows.filterMap fun i => s.rowTrap t (s.srcAddr t r i) (srcRowBytes r) false
    let dsts := rows.filterMap fun i => s.rowTrap t (s.dstAddr t r i) (dstRowBytes r) (copySetFull r)
    match firstTrap (srcs ++ dsts) with
    | some e => .fail (codeOfTrap e)
    | none => .ok

/-! ### Translation during the copy (R244) -/

/-- The places of a row, part by part. -/
def State.rowPieces (s : State) (t : Nat) (a : Addr) (n : Nat) (need : Need) : Except Trap (List Piece) :=
  if inTileSpace a then (s.tilePiece t a n).map fun p => [p]
  else
    match s.leaves t (rowParts a n) with
    | .error e => .error e
    | .ok ls => s.leafPieces need ls

/-- Row `i` of a command, translated. -/
def State.copyRow (s : State) (t : Nat) (r : List Word) (i : Nat) : Except Trap CopyRow :=
  match (if recOp r = 3 then .ok [] else s.rowPieces t (s.srcAddr t r i) (srcRowBytes r) needRead) with
  | .error e => .error e
  | .ok src =>
    match s.rowPieces t (s.dstAddr t r i) (dstRowBytes r) needWrite with
    | .error e => .error e
    | .ok dst =>
      .ok { src := src.flatMap (s.cutPiece t), dst := dst,
            scales := if copyKind r = .blocks then s.read (poolBase t + (s.scaleOff t r i).toNat) (scalesPerRow r) else [] }

/-- The rows of a command up to the first whose translation fails, and that failure. -/
def State.copyRows (s : State) (t : Nat) (r : List Word) : List Nat → List CopyRow × Option Trap
  | [] => ([], none)
  | i :: is =>
    match s.copyRow t r i with
    | .error e => ([], some e)
    | .ok row =>
      let (rows, e) := s.copyRows t r is
      (row :: rows, e)

/-- The local ranges a command reads beside its rows: indices and scales. -/
def State.copySideReads (s : State) (t : Nat) (r : List Word) : List (Nat × Nat) :=
  s.copyIndices t r
    ++ (if copyKind r = .blocks then
          (List.range (recRows r)).map fun i => (poolBase t + (s.scaleOff t r i).toNat, scalesPerRow r)
        else [])

/-- Reads one piece of a source row: at once on the tile's own scratchpad, by a request elsewhere. -/
def State.readPiece (s : State) (t : Nat) (k : Cmd) (p : Piece) (pos : Nat) : State :=
  if s.isAt t p then
    match s.badIn p.key p.len with
    | some b => s.killCmd t false k.seq b
    | none =>
      let bs := s.read p.key p.len
      s.modTile t fun x => x.modCmd false k.seq fun c => { c with got := c.got ++ [(pos, bs)] }
  else s.engineRequest t false k.seq k.ftag p (.read [⟨p.key, p.len, pos⟩])

/-- The pieces of a row with the places of their data. -/
def placed : Nat → List Piece → List (Piece × Nat)
  | _, [] => []
  | pos, p :: ps => (p, pos) :: placed (pos + p.len) ps

/-- A command takes its translated rows and reads their sources; `code` is what it will end with. -/
def State.beginRows (s : State) (t : Nat) (k : Cmd) (rows : List CopyRow) (code : Nat) : State :=
  let s1 := s.modTile t fun x => x.modCmd false k.seq fun c => { c with rows := rows, fail := code }
  rows.zipIdx.foldl (fun s e =>
    (placed (e.2 * srcRowBytes k.record) e.1.src).foldl (fun s p => s.readPiece t k p.1 p.2) s) s1

/-- A copy command starts: its rows are translated and their sources read. A page the Vestibule can back makes it wait (R117). -/
def State.startCopy (s : State) (t : Nat) (k : Cmd) : State :=
  let r := k.record
  match s.badParts (s.copySideReads t r) with
  | some b => s.killCmd t false k.seq b
  | none =>
    let (rows, e) := s.copyRows t r (List.range (recRows r))
    let code := match e with
      | some e => codeOfTrap e
      | none => 0
    match e with
    | some ⟨0x05, va⟩ =>
      if k.denied = false then s.askXlate t false k va true
      else if rows = [] then s.failCmd t false k.seq code
      else s.beginRows t k rows code
    | _ => if rows = [] then s.failCmd t false k.seq code else s.beginRows t k rows code

/-! ### Converting and writing (R242, R243) -/

/-- Little-endian elements of `n` bytes. -/
def elemsOf (n : Nat) : Nat → List Byte → List Nat
  | 0, _ => []
  | m + 1, bs => leNat (bs.take n) :: elemsOf n m (bs.drop n)

/-- The bytes of a FILL row (R242). -/
def fillBytes (r : List Word) : List Byte :=
  let h := dstHalf r
  let w := (recWord r 5).toNat
  if h = 1 then List.replicate (recCount r / 2) (BitVec.ofNat 8 (w % 16 * 17))
  else (List.replicate (recCount r) (leBytes (h / 2) w)).flatten

/-- A source row's bytes, scales and roundings made into a destination row, with flags. -/
def convertRow (r : List Word) (src scales : List Byte) (rs : List Rm) : List Byte × Flags :=
  let d := fmtOfCode (copyDstFmt r)
  let put := fun (xs : List (Nat × Flags)) =>
    (xs.flatMap fun x => leBytes (d.width / 8) x.1, xs.foldl (fun fl x => fl ||| x.2) 0)
  match copyKind r with
  | .convert =>
    let s := fmtOfCode (copySrcFmt r)
    put (List.zipWith (fun x rm => fcvt s d rm (copySat r) x) (elemsOf (s.width / 8) (recCount r) src) rs)
  | .blocks =>
    let (vs, qm) := blockVals (copySrcFmt r == 8) ((copyBlockLen r).getD 1) scales (nibbles src)
    let (bs, fl) := put (List.zipWith (fun v rm => ((fpack d rm (copySat r) v).1, (fpack d rm (copySat r) v).2 ||| snanFlag [v])) vs rs)
    (bs, fl ||| (if qm then flagQM else 0))
  | _ => (if recOp r = 3 then fillBytes r else src, 0)

/-- A row's source bytes, if all have arrived. -/
def gotRow (got : List (Nat × List Byte)) (ps : List (Piece × Nat)) : Option (List Byte) :=
  if ps.all (fun p => got.any fun g => g.1 == p.2) then some (ps.flatMap fun p => gotAt got p.2) else none

/-- The rows from row number `i` on are converted and written in rising order; a row whose source did not arrive ends it. -/
def State.writeRows (s : State) (t : Nat) (k : Cmd) (rs : List Rm) : Nat → List CopyRow → State × Flags
  | _, [] => (s, 0)
  | i, row :: rows =>
    match gotRow k.got (placed (i * srcRowBytes k.record) row.src) with
    | none => (s, 0)
    | some src =>
      let (bs, fl) := convertRow k.record src row.scales ((rs.drop (i * recCount k.record)).take (recCount k.record))
      let (s', fl') := (s.engineWrites t false k.seq k.ftag (copySetFull k.record) row.dst bs).writeRows t k rs (i + 1) rows
      (s', fl ||| fl')

/-- A command whose sources have arrived converts and writes its rows. -/
def State.finishCopy (s : State) (t : Nat) (k : Cmd) : State :=
  let r := k.record
  let (rs, _) := roundings (rndOf (copyRnd r)) (copyRnd r == 2) (recRows r * recCount r) (s.engineSeed t (copySeed r))
  let (s1, fl) := s.writeRows t k rs 0 k.rows
  s1.modTile t fun x => x.modCmd false k.seq fun c => { c with result := some { code := 0, flags := fl, cells := [] } }

/-! ### Steps -/

/-- Cost of a copy command (R250). -/
def copyCost (r : List Word) : Nat := (recRows r * dstRowBytes r + 63) / 64

/-- Whether a command has had its start, or waits for something of its own (R245). -/
def Cmd.tried (k : Cmd) : Bool := k.bad || k.dead || k.xlate || k.result.isSome || k.rows != [] || k.leave != .notAsked

/-- A copy command that can go on now, with this opcode: one that has its sources, or one whose turn to start has come. -/
def State.copyCmd (s : State) (t n op : Nat) : Option Cmd :=
  if s.enginesRun t = false then none
  else
    match (s.getTile t).copy.cmd n with
    | some k =>
      if recOp k.record == op && !k.bad && !k.dead && !k.xlate && k.result.isNone && !k.wantsLeave && k.tags.isEmpty
          && (k.rows != [] || (!(s.getTile t).frozen && (s.getTile t).copy.cmds.all fun q => n ≤ q.seq || q.tried)) then some k
      else none
    | none => none

/-- The ranges of addresses a copy command's rows use. -/
def State.copyRanges (s : State) (t : Nat) (r : List Word) : List (Addr × Nat) :=
  (List.range (recRows r)).flatMap fun i =>
    ((if recOp r = 3 then [] else [(s.srcAddr t r i, srcRowBytes r)]) ++ [(s.dstAddr t r i, dstRowBytes r)]).flatMap fun a =>
      if inTileSpace a.1 then [] else (rowParts a.1 a.2).map fun p => (BitVec.ofNat 56 p.1, p.2)

/-- One step of a copy command: its checks, its leave, its start, and its writes (R244, R250). -/
def State.copyStep (s : State) (t n op : Nat) : State :=
  match s.copyCmd t n op with
  | none => s
  | some k =>
    if k.rows ≠ [] then s.finishCopy t k
    else
      match s.copyCheck t k.record with
      | .fail code => s.failCmd t false k.seq code
      | .bad b => s.killCmd t false k.seq b
      | .back va => s.askXlate t false k va true
      | .ok =>
        if 0x10000 < copyCost k.record ∧ k.leave = .notAsked then s.askLeave t false k 300
        else s.engineLease t (s.copyRanges t k.record) (s.startCopy t k)

/-- R242: COPY1D. -/
def execCopy1d (t n : Nat) (s : State) : Result := .next (s.copyStep t n 1)

/-- R242: COPY2D. -/
def execCopy2d (t n : Nat) (s : State) : Result := .next (s.copyStep t n 2)

/-- R242: FILL. -/
def execFill (t n : Nat) (s : State) : Result := .next (s.copyStep t n 3)

/-- R242: GATHERROWS. -/
def execGatherrows (t n : Nat) (s : State) : Result := .next (s.copyStep t n 4)

/-- R242: SCATTERROWS. -/
def execScatterrows (t n : Nat) (s : State) : Result := .next (s.copyStep t n 5)

/-- Whether a copy command completes now (R245, R246). -/
def State.copyDone (s : State) (t n : Nat) : Option Cmd :=
  if s.enginesRun t = false then none
  else
    match (s.getTile t).copy.cmd n with
    | some k => if k.bad || k.finished then some k else none
    | none => none

/-- R245: a copy command completes: status, NOTIFY, completed number. -/
def execCopyCommandComplete (t n : Nat) (s : State) : Result :=
  match s.copyDone t n with
  | some k => .next (s.completeCmd t false k.settled)
  | none => .next s

end Sys2Proof.Machine
end

