-- ==== Sys2Proof/Machine/Fence.lean ====
section
/-! DEFINITION. The FENCE family (spec/ 13 R194, 07 R128). -/

namespace Sys2Proof.Machine

/-- A fence at a scope (R128, R194): one of scope 0 orders nothing beyond program order; any other completes once every access of the
context is performed. R194 allows the wait to an acquiring fence too, which is thus made after every earlier read. -/
def State.fenceAt (s : State) (sc : Scope) : State :=
  if sc ≠ .context ∧ s.me.outTags s.ctx ≠ [] then s.waitFor .drained else s.retire 4 id

/-- R194: release and acquire at a scope. -/
def execFence (sc : Scope) (s : State) : Result :=
  .next (s.fenceAt sc)

/-- R194: acquire at a scope. -/
def execFenceAcq (sc : Scope) (s : State) : Result :=
  .next (s.fenceAt sc)

/-- R194: release at a scope. -/
def execFenceRel (sc : Scope) (s : State) : Result :=
  .next (s.fenceAt sc)

/-- Whether an engine post of a context is complete (R128, R245). -/
def Tile.postDone (x : Tile) (p : Bool × Nat) : Bool :=
  let e := if p.1 then x.matrix else x.copy
  p.2 ≤ e.done || e.beyond.contains p.2 || e.status.any fun q => q.1 == p.2

/-- R194: waits for the engine commands this context posted. -/
def execFenceEng  (s : State) : Result :=
  if s.cur.posts.all s.me.postDone then .next (s.retire 4 fun c => { c with posts := [] }) else .next (s.waitFor .ownPosts)

end Sys2Proof.Machine
end

