-- ==== Sys2Proof/Machine/Fop.lean ====
section
/-! DEFINITION. The FOP family: scalar floating point (spec/ 11 R182 to R185). -/

namespace Sys2Proof.Machine

/-- The rounding mode of a member (R182). -/
def State.rm (s : State) (r : Rnd) : Rm :=
  match r with
  | .fpm => rmOfFpm s.cur.fpm
  | .rne => .rne
  | .rtz => .rtz

/-- An operand at precision P: bits [31:0] for f32 (R182). -/
def fopnd (p : Prec) (w : Word) : Nat := w.toNat % 2 ^ (fmtOfPrec p).width

/-- Completes a floating instruction: the result in gD, the flags ORed into FPF (R51, R182). -/
def State.retireF (s : State) (d : Reg) (x : Nat × Flags) : State :=
  s.retire 4 fun c => (c.wr d (BitVec.ofNat 64 x.1)).orFlags x.2

/-- R183: a + b rounded once. -/
def execFadd (p : Prec) (r : Rnd) (d a b : Reg) (s : State) : Result :=
  .next (s.retireF d (fadd (fmtOfPrec p) (s.rm r) (fopnd p (s.cur.rd a)) (fopnd p (s.cur.rd b))))

/-- R183: a − b rounded once. -/
def execFsub (p : Prec) (r : Rnd) (d a b : Reg) (s : State) : Result :=
  .next (s.retireF d (fsub (fmtOfPrec p) (s.rm r) (fopnd p (s.cur.rd a)) (fopnd p (s.cur.rd b))))

/-- R183: a × b rounded once. -/
def execFmul (p : Prec) (r : Rnd) (d a b : Reg) (s : State) : Result :=
  .next (s.retireF d (fmul (fmtOfPrec p) (s.rm r) (fopnd p (s.cur.rd a)) (fopnd p (s.cur.rd b))))

/-- R183: a / b rounded once. -/
def execFdiv (p : Prec) (r : Rnd) (d a b : Reg) (s : State) : Result :=
  .next (s.retireF d (fdiv (fmtOfPrec p) (s.rm r) (fopnd p (s.cur.rd a)) (fopnd p (s.cur.rd b))))

/-- R183: √a rounded once. -/
def execFsqrt (p : Prec) (r : Rnd) (d a : Reg) (s : State) : Result :=
  .next (s.retireF d (fsqrt (fmtOfPrec p) (s.rm r) (fopnd p (s.cur.rd a))))

/-- R183: a × b + c rounded once. -/
def execFfma (p : Prec) (r : Rnd) (d a b c : Reg) (s : State) : Result :=
  .next (s.retireF d (ffma (fmtOfPrec p) (s.rm r) false false (fopnd p (s.cur.rd a)) (fopnd p (s.cur.rd b)) (fopnd p (s.cur.rd c))))

/-- R183: a × b − c rounded once. -/
def execFfms (p : Prec) (r : Rnd) (d a b c : Reg) (s : State) : Result :=
  .next (s.retireF d (ffma (fmtOfPrec p) (s.rm r) false true (fopnd p (s.cur.rd a)) (fopnd p (s.cur.rd b)) (fopnd p (s.cur.rd c))))

/-- R183: −(a × b) − c rounded once. -/
def execFnfma (p : Prec) (r : Rnd) (d a b c : Reg) (s : State) : Result :=
  .next (s.retireF d (ffma (fmtOfPrec p) (s.rm r) true true (fopnd p (s.cur.rd a)) (fopnd p (s.cur.rd b)) (fopnd p (s.cur.rd c))))

/-- R183: −(a × b) + c rounded once. -/
def execFnfms (p : Prec) (r : Rnd) (d a b c : Reg) (s : State) : Result :=
  .next (s.retireF d (ffma (fmtOfPrec p) (s.rm r) true false (fopnd p (s.cur.rd a)) (fopnd p (s.cur.rd b)) (fopnd p (s.cur.rd c))))

/-- R183: a rounded to an integral value. -/
def execFrint (p : Prec) (r : Rnd) (d a : Reg) (s : State) : Result :=
  .next (s.retireF d (frint (fmtOfPrec p) (s.rm r) (fopnd p (s.cur.rd a))))

/-- R183: minimumNumber of R46. -/
def execFmin (p : Prec) (d a b : Reg) (s : State) : Result :=
  .next (s.retireF d (fminmax (fmtOfPrec p) false (fopnd p (s.cur.rd a)) (fopnd p (s.cur.rd b))))

/-- R183: maximumNumber of R46. -/
def execFmax (p : Prec) (d a b : Reg) (s : State) : Result :=
  .next (s.retireF d (fminmax (fmtOfPrec p) true (fopnd p (s.cur.rd a)) (fopnd p (s.cur.rd b))))

/-- The sign bit of precision P. -/
def signBit (p : Prec) : Nat := 2 ^ ((fmtOfPrec p).width - 1)

/-- R183: the sign bit cleared. -/
def execFabs (p : Prec) (d a : Reg) (s : State) : Result :=
  .next (s.retireF d (fopnd p (s.cur.rd a) % signBit p, 0))

/-- R183: the sign bit inverted. -/
def execFneg (p : Prec) (d a : Reg) (s : State) : Result :=
  .next (s.retireF d (fopnd p (s.cur.rd a) ^^^ signBit p, 0))

/-- R183: a with the sign bit of b. -/
def execFcpys (p : Prec) (d a b : Reg) (s : State) : Result :=
  .next (s.retireF d (fopnd p (s.cur.rd a) % signBit p + fopnd p (s.cur.rd b) / signBit p * signBit p, 0))

/-- A comparison's integer result (R184). -/
def fbool (x : Bool × Flags) : Nat × Flags := (if x.1 then 1 else 0, x.2)

/-- R184: 1 if ordered and equal. -/
def execFeq (p : Prec) (d a b : Reg) (s : State) : Result :=
  .next (s.retireF d (fbool (fcompare (fmtOfPrec p) true (· == .eq) (fopnd p (s.cur.rd a)) (fopnd p (s.cur.rd b)))))

/-- R184: 1 if ordered and less. -/
def execFlt (p : Prec) (d a b : Reg) (s : State) : Result :=
  .next (s.retireF d (fbool (fcompare (fmtOfPrec p) false (· == .lt) (fopnd p (s.cur.rd a)) (fopnd p (s.cur.rd b)))))

/-- R184: 1 if ordered and less or equal. -/
def execFle (p : Prec) (d a b : Reg) (s : State) : Result :=
  .next (s.retireF d (fbool (fcompare (fmtOfPrec p) false (· != .gt) (fopnd p (s.cur.rd a)) (fopnd p (s.cur.rd b)))))

/-- R184: 1 if either is a NaN. -/
def execFun (p : Prec) (d a b : Reg) (s : State) : Result :=
  .next (s.retireF d (fbool (funord (fmtOfPrec p) (fopnd p (s.cur.rd a)) (fopnd p (s.cur.rd b)))))

/-- R184: one bit for the class of a. -/
def execFclass (p : Prec) (d a : Reg) (s : State) : Result :=
  .next (s.retireF d (fclass (fmtOfPrec p) (fopnd p (s.cur.rd a)), 0))

/-- R185: between f32 and f64; P names the destination. -/
def execFcvtp (p : Prec) (r : Rnd) (d a : Reg) (s : State) : Result :=
  .next (match p with
    | .d => s.retireF d (fcvt fmtF32 fmtF64 (s.rm r) false (fopnd .s (s.cur.rd a)))
    | .s => s.retireF d (fcvt fmtF64 fmtF32 (s.rm r) false (fopnd .d (s.cur.rd a))))

/-- R185: to s64 with saturation. -/
def execFtos (p : Prec) (r : Rnd) (d a : Reg) (s : State) : Result :=
  .next (s.retireF d (fToInt (s.rm r) true 64 (fdec (fmtOfPrec p) (fopnd p (s.cur.rd a)))))

/-- R185: to n64 with saturation. -/
def execFton (p : Prec) (r : Rnd) (d a : Reg) (s : State) : Result :=
  .next (s.retireF d (fToInt (s.rm r) false 64 (fdec (fmtOfPrec p) (fopnd p (s.cur.rd a)))))

/-- R185: from s64. -/
def execStof (p : Prec) (r : Rnd) (d a : Reg) (s : State) : Result :=
  .next (s.retireF d (fOfInt (fmtOfPrec p) (s.rm r) false (s.cur.rd a).toInt))

/-- R185: from n64. -/
def execNtof (p : Prec) (r : Rnd) (d a : Reg) (s : State) : Result :=
  .next (s.retireF d (fOfInt (fmtOfPrec p) (s.rm r) false (s.cur.rd a).toNat))

end Sys2Proof.Machine
end

