-- ==== Sys2Proof/Machine/GetPut.lean ====
section
/-! DEFINITION. GET and PUT (spec/ 13 R200). -/

namespace Sys2Proof.Machine

/-- The checks GET and PUT share before their addresses (R200): the length, the local end, the counter id. -/
def State.getPutOk (s : State) (len loc cnt : Word) : Bool :=
  16 ≤ len.toNat && len.toNat ≤ 256 && len.toNat % 16 == 0 && s.isLocal s.tile loc && cnt.toNat ≤ 255

/-- The requests of a transfer, one for each piece of its remote end: the piece and its position in the range. -/
def pieceAt : Nat → List Piece → List (Piece × Nat)
  | _, [] => []
  | pos, p :: ps => (p, pos) :: pieceAt (pos + p.len) ps

/-- Injects a GET's requests (R200): FULL of the local destination is cleared at issue and its waiters are served, each request covers what the
context has outstanding, and the two parts of a page-crossing GET.N know each other. -/
def State.sendGets (s : State) (dst n : Nat) (cnt : Option Nat) (ps : List (Piece × Nat)) : State :=
  let tag := s.me.mu.nextTag
  let after := s.me.outTags s.ctx
  let one := fun (s : State) (e : (Piece × Nat) × Nat) =>
    let (p, pos) := e.1
    let op := MemOp.read [⟨p.key, p.len, pos⟩]
    s.request s.tile s.ctx
      { kind := 1, pkg := p.pkg, node := p.node, op := op, grs := opGranules op, pages := p.page.toList, spots := [p.spot]
        get := some { dst := dst, grs := granules (dst + pos) p.len, cnt := cnt, mate := if ps.length = 1 then none else some (tag + 1 - e.2) } } after
  (ps.zipIdx.foldl one ((s.clearFulls (granules dst n)).wake s.tile)).retire 4 id

/-- GET and GET.N (R200). -/
def State.getAt (s : State) (src loc len cnt : Word) (counted : Bool) : State :=
  if s.getPutOk len loc cnt = false then s.trap trapIllOperand
  else
    let n := len.toNat
    s.orLease s.tile [(addrOf src, n)] (s.resolve s.tile (addrOf src) n 16 needRead) fun ps =>
      s.orTrap (s.resolve1 s.tile (addrOf loc) n 16 needWrite) fun dst =>
        let grs := granules dst.key n ++ ps.flatMap fun p => granules p.key p.len
        if s.me.roomFor s.ctx ps.length = false then s.waitFor (.requests ps.length)
        else if s.me.endsBusy s.ctx grs then s.waitFor (.ends grs)
        else (s.touch s.tile (addrOf src) n).sendGets dst.key n (if counted then some cnt.toNat else none) (pieceAt 0 ps)

/-- R200: requests remote bytes into local scratchpad. -/
def execGet (a b c : Reg) (s : State) : Result :=
  .next (s.getAt (s.cur.rd a) (s.cur.rd b) (s.cur.rd c) 0 false)

/-- R200: GET that adds 1 to a local counter once all granules have landed. -/
def execGetN (d a b c : Reg) (s : State) : Result :=
  .next (s.getAt (s.cur.rd a) (s.cur.rd b) (s.cur.rd c) (s.cur.rd d) true)

/-- Injects a PUT's requests (R200). Of a page-crossing counted PUT the second part goes first and the first, which counts, once it is
answered. -/
def State.sendPuts (s : State) (bytes : List Byte) (full : Bool) (cnt : Option Word) (ps : List (Piece × Nat)) : State :=
  let after := s.me.outTags s.ctx
  let one := fun (s : State) (e : Piece × Nat) (c : Option Word) (after : List Nat) =>
    let op := MemOp.write [(e.1.key, (bytes.drop e.2).take e.1.len)] full c
    s.request s.tile s.ctx
      { kind := 2, pkg := e.1.pkg, node := e.1.node, op := op, grs := opGranules op, pages := e.1.page.toList, spots := [e.1.spot],
        get := none } after
  let s1 := match ps with
    | [a, b] => match cnt with
      | some _ => one (one s b none after) a cnt (s.me.mu.nextTag :: after)
      | none => one (one s a none after) b none after
    | _ => ps.foldl (fun s e => one s e cnt after) s
  s1.retire 4 id

/-- Whether a place lies in a window that another partition owns (R32): its scratchpad, or a page of its HBM. -/
def State.othersPlace (s : State) (p : Piece) : Bool :=
  if p.node < Config.tiles then !s.inPartition s.tile p.pkg p.node
  else p.pkg == s.pkg && s.vest.pages.any fun g => g.num == p.key / 0x10000 && (s.partOf s.tile).all fun e => e.1 != g.pid

/-- Where a counted PUT may go (R200, R33): tile space, or window scratchpad of this partition. -/
def State.countedDest (s : State) (a : Addr) (ps : List Piece) : Except Trap Unit :=
  if inTileSpace a then .ok ()
  else if ps.any s.othersPlace then .error (trapPartition a)
  else if ps.any fun p => Config.tiles ≤ p.node then .error trapIllOperand
  else .ok ()

/-- Where a PUT that sets FULL may go (R112, R200): scratchpad. -/
def fullDest (a : Addr) (ps : List Piece) : Except Trap Unit :=
  match ps.find? fun p => Config.tiles ≤ p.node with
  | some p => .error (trapAccess (if (ps.head?.any (· == p)) then a else BitVec.ofNat 56 (p.page.getD 0 * 0x10000)))
  | none => .ok ()

/-- PUT, PUT.F, PUT.N and PUT.FN (R200). -/
def State.putAt (s : State) (dst loc len cnt : Word) (full counted : Bool) : State :=
  if s.getPutOk len loc cnt = false then s.trap trapIllOperand
  else
    let n := len.toNat
    s.orLease s.tile [(addrOf dst, n)] (s.resolve s.tile (addrOf dst) n 16 needWrite) fun ps =>
      s.orTrap (s.resolve1 s.tile (addrOf loc) n 16 needRead) fun src =>
        s.orTrap (if counted then s.countedDest (addrOf dst) ps else .ok ()) fun _ =>
        s.orTrap (if full then fullDest (addrOf dst) ps else .ok ()) fun _ =>
          let grs := ps.flatMap fun p => granules p.key p.len
          if s.me.roomFor s.ctx ps.length = false then s.waitFor (.requests ps.length)
          else if s.me.endsBusy s.ctx (granules src.key n ++ grs) then s.waitFor (.ends (granules src.key n ++ grs))
          else
            match s.badIn src.key n with
            | some b => s.trapBad b (spotAddr b [src.spot])
            | none =>
              (s.touch s.tile (addrOf dst) n).sendPuts (s.read src.key n) full (if counted then some cnt else none) (pieceAt 0 ps)

/-- R200: writes local bytes to a remote destination. -/
def execPut (a b c : Reg) (s : State) : Result :=
  .next (s.putAt (s.cur.rd a) (s.cur.rd b) (s.cur.rd c) 0 false false)

/-- R200: writes local bytes to a remote destination, setting FULL of its granules. -/
def execPutF (a b c : Reg) (s : State) : Result :=
  .next (s.putAt (s.cur.rd a) (s.cur.rd b) (s.cur.rd c) 0 true false)

/-- R200: writes local bytes to a remote destination, and adds 1 to a counter of its tile. -/
def execPutN (d a b c : Reg) (s : State) : Result :=
  .next (s.putAt (s.cur.rd a) (s.cur.rd b) (s.cur.rd c) (s.cur.rd d) false true)

/-- R200: writes local bytes to a remote destination, setting FULL of its granules, and adds 1 to a counter of its tile. -/
def execPutFn (d a b c : Reg) (s : State) : Result :=
  .next (s.putAt (s.cur.rd a) (s.cur.rd b) (s.cur.rd c) (s.cur.rd d) true true)

end Sys2Proof.Machine
end

