-- ==== Sys2Proof/Machine/Imm.lean ====
section
/-! DEFINITION. Immediate and address instructions (spec/ 11 R169, 09 R155). -/

namespace Sys2Proof.Machine

/-- R169: a + the sign-extended immediate. -/
def execAddi (d a : Reg) (i : BitVec 16) (s : State) : Result :=
  .next (s.retireG 4 d (s.cur.rd a + sext64 i))

/-- R169: a AND the zero-extended immediate. -/
def execAndi (d a : Reg) (i : BitVec 16) (s : State) : Result :=
  .next (s.retireG 4 d (s.cur.rd a &&& zext64 i))

/-- R169: a OR the zero-extended immediate. -/
def execOri (d a : Reg) (i : BitVec 16) (s : State) : Result :=
  .next (s.retireG 4 d (s.cur.rd a ||| zext64 i))

/-- R169: a XOR the zero-extended immediate. -/
def execXori (d a : Reg) (i : BitVec 16) (s : State) : Result :=
  .next (s.retireG 4 d (s.cur.rd a ^^^ zext64 i))

/-- R169: signed compare with the sign-extended immediate. -/
def execSlti (d a : Reg) (i : BitVec 16) (s : State) : Result :=
  .next (s.retireG 4 d (boolWord ((s.cur.rd a).slt (sext64 i))))

/-- R169: unsigned compare with the sign-extended immediate. -/
def execSltni (d a : Reg) (i : BitVec 16) (s : State) : Result :=
  .next (s.retireG 4 d (boolWord ((s.cur.rd a).ult (sext64 i))))

/-- R169: shift left. -/
def execShli (d a : Reg) (n : BitVec 6) (s : State) : Result :=
  .next (s.retireG 4 d (s.cur.rd a <<< n.toNat))

/-- R169: logical shift right. -/
def execShri (d a : Reg) (n : BitVec 6) (s : State) : Result :=
  .next (s.retireG 4 d (s.cur.rd a >>> n.toNat))

/-- R169: arithmetic shift right. -/
def execSari (d a : Reg) (n : BitVec 6) (s : State) : Result :=
  .next (s.retireG 4 d ((s.cur.rd a).sshiftRight n.toNat))

/-- R169: rotation left. -/
def execRoli (d a : Reg) (n : BitVec 6) (s : State) : Result :=
  .next (s.retireG 4 d (rotl (s.cur.rd a) n.toNat))

/-- R169: 32-bit shift left, sign-extended. -/
def execShliW (d a : Reg) (n : BitVec 5) (s : State) : Result :=
  .next (s.retireG 4 d (sext64 (low32 (s.cur.rd a) <<< n.toNat)))

/-- R169: 32-bit logical shift right, sign-extended. -/
def execShriW (d a : Reg) (n : BitVec 5) (s : State) : Result :=
  .next (s.retireG 4 d (sext64 (low32 (s.cur.rd a) >>> n.toNat)))

/-- R169: 32-bit arithmetic shift right, sign-extended. -/
def execSariW (d a : Reg) (n : BitVec 5) (s : State) : Result :=
  .next (s.retireG 4 d (sext64 ((low32 (s.cur.rd a)).sshiftRight n.toNat)))

/-- R169: rotation left within 32 bits, sign-extended. -/
def execRoliW (d a : Reg) (n : BitVec 5) (s : State) : Result :=
  .next (s.retireG 4 d (sext64 (rotl (low32 (s.cur.rd a)) n.toNat)))

/-- R169: the immediate in 16-bit lane p. -/
def execMovw (d : Reg) (i : BitVec 16) (p : BitVec 2) (s : State) : Result :=
  .next (s.retireG 4 d (zext64 i <<< (16 * p.toNat)))

/-- R169: 16-bit lane p of gD replaced. -/
def execMovk (d : Reg) (i : BitVec 16) (p : BitVec 2) (s : State) : Result :=
  .next (s.retireG 4 d ((s.cur.rd d &&& ~~~((0xFFFF : Word) <<< (16 * p.toNat))) ||| (zext64 i <<< (16 * p.toNat))))

/-- R169: NOT of the immediate in 16-bit lane p. -/
def execMovn (d : Reg) (i : BitVec 16) (p : BitVec 2) (s : State) : Result :=
  .next (s.retireG 4 d (~~~(zext64 i <<< (16 * p.toNat))))

/-- R169: the address plus the sign-extended immediate, the tag kept. -/
def execPaddi (d a : Reg) (i : BitVec 16) (s : State) : Result :=
  .next (s.retireG 4 d (ptrAdd (s.cur.rd a) (sext64 i)))

/-- R169: the PC plus twice the sign-extended offset, modulo 2^56. -/
def execAdr (d : Reg) (off : BitVec 20) (s : State) : Result :=
  .next (s.retireG 4 d (zext64 (s.cur.pc + 2 * off.signExtend 56)))

/-- R155: the immediate converted exactly. -/
def execFmoviF64H (d : Reg) (i : BitVec 16) (s : State) : Result :=
  .next (s.retireG 4 d (BitVec.ofNat 64 (fmovi fmtF16 fmtF64 i.toNat)))

/-- R155: the immediate converted exactly. -/
def execFmoviF32H (d : Reg) (i : BitVec 16) (s : State) : Result :=
  .next (s.retireG 4 d (BitVec.ofNat 64 (fmovi fmtF16 fmtF32 i.toNat)))

/-- R155: the immediate converted exactly. -/
def execFmoviF64Bf (d : Reg) (i : BitVec 16) (s : State) : Result :=
  .next (s.retireG 4 d (BitVec.ofNat 64 (fmovi fmtBf16 fmtF64 i.toNat)))

/-- R155: the immediate converted exactly. -/
def execFmoviF32Bf (d : Reg) (i : BitVec 16) (s : State) : Result :=
  .next (s.retireG 4 d (BitVec.ofNat 64 (fmovi fmtBf16 fmtF32 i.toNat)))

end Sys2Proof.Machine
end

