-- ==== Sys2Proof/Machine/Kop.lean ====
section
/-! DEFINITION. The KOP family (spec/ 15 R225). -/

namespace Sys2Proof.Machine

/-- A predicate result: a write to k0 is discarded (R225). -/
def State.retireK (s : State) (d : KReg) (w : Word) : State := s.retire 4 fun c => c.wk d w

/-- KFIRST (R225): the lowest set bit, or 64. -/
def kfirst (w : Word) : Nat := ctz w

/-- R225: AND. -/
def execKand (d a b : KReg) (s : State) : Result :=
  .next (s.retireK d (s.cur.rk a &&& s.cur.rk b))

/-- R225: OR. -/
def execKor (d a b : KReg) (s : State) : Result :=
  .next (s.retireK d (s.cur.rk a ||| s.cur.rk b))

/-- R225: XOR. -/
def execKxor (d a b : KReg) (s : State) : Result :=
  .next (s.retireK d (s.cur.rk a ^^^ s.cur.rk b))

/-- R225: kA AND NOT kB. -/
def execKandn (d a b : KReg) (s : State) : Result :=
  .next (s.retireK d (s.cur.rk a &&& ~~~(s.cur.rk b)))

/-- R225: NOT. -/
def execKnot (d a : KReg) (s : State) : Result :=
  .next (s.retireK d (~~~(s.cur.rk a)))

/-- R225: gA into kD. -/
def execKfromg (d : KReg) (a : Reg) (s : State) : Result :=
  .next (s.retireK d (s.cur.rd a))

/-- R225: kA into gD. -/
def execKtog (d : Reg) (a : KReg) (s : State) : Result :=
  .next (s.retireG 4 d (s.cur.rk a))

/-- R225: the number of one bits. -/
def execKpopc (d : Reg) (a : KReg) (s : State) : Result :=
  .next (s.retireG 4 d (BitVec.ofNat 64 (popc (s.cur.rk a))))

/-- R225: the lowest set bit, or 64. -/
def execKfirst (d : Reg) (a : KReg) (s : State) : Result :=
  .next (s.retireG 4 d (BitVec.ofNat 64 (kfirst (s.cur.rk a))))

end Sys2Proof.Machine
end

