-- ==== Sys2Proof/Machine/Parked.lean ====
section
/-! DEFINITION. The restoring and discarding of parked groups: ROLLBACK with PARKED (spec/ 23 R314, R315, R318). The parked image names the
tiles, pages and ASIDs it was taken on; they are renamed to those of the targets before the rollback of R316 runs. -/

namespace Sys2Proof.Machine

/-! ### Renaming -/

/-- How an image's tiles, with their packages, its packages, HBM pages and ASIDs become the targets', each old with its new. -/
structure Renaming where
  pkg   : Nat
  addrs : List ((Nat × Nat) × (Nat × Nat))
  pkgs  : List (Nat × Nat)
  pages : List (Nat × Nat)
  asids : List (BitVec 16 × BitVec 16)

/-- The new value of an old one. -/
def renameIn {α : Type} [DecidableEq α] (l : List (α × α)) (x : α) : α :=
  match l.find? fun e => e.1 == x with
  | some e => e.2
  | none => x

/-- A node of a package: a tile of a job by its address, another node by its package. -/
def Renaming.node (r : Renaming) (pkg t : Nat) : Nat × Nat :=
  match r.addrs.find? fun e => e.1 == (pkg, t) with
  | some e => e.2
  | none => (renameIn r.pkgs pkg, t)
def Renaming.tile (r : Renaming) (t : Nat) : Nat := (r.node r.pkg t).2
def Renaming.pkgField (r : Renaming) (pkg : BitVec 15) (t : BitVec 12) : BitVec 15 := BitVec.ofNat 15 (r.node pkg.toNat t.toNat).1
def Renaming.tileField (r : Renaming) (pkg : BitVec 15) (t : BitVec 12) : BitVec 12 := BitVec.ofNat 12 (r.node pkg.toNat t.toNat).2
/-- Whether this package takes its own part of the image again: another's is not in this state (log entry 14). -/
def Renaming.stays (r : Renaming) : Bool := renameIn r.pkgs r.pkg == r.pkg

/-- A memory key: the offset in a pool or a page stays. -/
def Renaming.key (r : Renaming) (k : Nat) : Nat :=
  match poolTile k with
  | some t => poolBase (r.tile t) + (k - poolBase t)
  | none => renameIn r.pages (k / 0x10000) * 0x10000 + k % 0x10000

def Renaming.hdr (r : Renaming) (h : Header) : Header :=
  { h with dpkg := r.pkgField h.dpkg h.dtile, dtile := r.tileField h.dpkg h.dtile
           spkg := r.pkgField h.spkg h.stile, stile := r.tileField h.spkg h.stile }

def Renaming.op (r : Renaming) : MemOp → MemOp
  | .read ps => .read (ps.map fun p => { p with key := r.key p.key })
  | .fe o a w => .fe o (r.key a) w
  | .vldW a => .vldW (r.key a)
  | .write ps full cnt => .write (ps.map fun p => (r.key p.1, p.2)) full cnt
  | .amo o z a b c => .amo o z (r.key a) b c
  | .addLanes t ls => .addLanes t (ls.map fun l => (r.key l.1, l.2))
  | .ring o a x y => .ring o (r.key a) x y

def Renaming.body (r : Renaming) : Body → Body
  | .request tag op => .request tag (r.op op)
  | .lock q => .lock { q with asid := renameIn r.asids q.asid }
  | .words ws => .words ws
  | .incr c a => .incr c a
  | .trig => .trig
  | .reply tag v => .reply tag v
  | .lockReply q => .lockReply q

def Renaming.msg (r : Renaming) (m : Msg) : Msg := { hdr := r.hdr m.hdr, body := r.body m.body }
def Renaming.flit (r : Renaming) (f : Flit) : Flit := { f with hdr := r.hdr f.hdr, body := r.body f.body }
def Renaming.entry (r : Renaming) (e : Entry) : Entry := { e with hdr := r.hdr e.hdr }

/-- A buffered send's destination, a tile address of the wire. -/
def Renaming.dest (r : Renaming) (d : BitVec 27) : BitVec 27 :=
  r.pkgField (d.extractLsb' 12 15) (d.extractLsb' 0 12) ++ r.tileField (d.extractLsb' 12 15) (d.extractLsb' 0 12)

/-- A granule's number. -/
def Renaming.gr (r : Renaming) (g : Nat) : Nat := r.key (16 * g) / 16

/-- A context: its sends, the bad data it is still to report, and the places that it waits for. -/
def Renaming.ctx (r : Renaming) (k : Ctx) : Ctx :=
  { k with
    sends := k.sends.map fun b => { b with dests := b.dests.map r.dest }
    late := k.late.map fun e => (e.1, r.key e.2.1, e.2.2)
    run := match k.run with
      | .wait (.cond (.granules gs)) => .wait (.cond (.granules (gs.map r.gr)))
      | .wait (.cond (.ends gs)) => .wait (.cond (.ends (gs.map r.gr)))
      | .wait (.cond (.leases ks)) => .wait (.cond (.leases (ks.map r.key)))
      | .wait (.xinv left cmds) => .wait (.xinv (left.map fun p => (r.tile p.1, p.2)) (cmds.map fun p => (r.tile p.1, p.2)))
      | x => x }

/-- A tile's image. -/
def Renaming.state (r : Renaming) (x : Tile) : Tile :=
  { x with
    ctxs := x.ctxs.map r.ctx
    land := { x.land with
      slots := x.land.slots.map r.entry, spill := x.land.spill.map r.entry
      again := x.land.again.map fun a => { a with entry := r.entry a.entry }
      reserved := x.land.reserved.map r.flit, logged := x.land.logged.map r.flit }
    cnt := { x.cnt with held := x.cnt.held.map fun h => { h with reply := h.reply.map r.msg } }
    mu := { x.mu with
      parts := x.mu.parts.map fun p => { p with hdr := r.hdr p.hdr }
      waiters := x.mu.waiters.map fun w => { w with op := r.op w.op, hdr := r.hdr w.hdr }
      out := x.mu.out.map fun o =>
        { o with grs := o.grs.map r.gr, spots := o.spots.map fun p => { p with key := r.key p.key }
                 get := o.get.map fun e => { e with dst := r.key e.dst, grs := e.grs.map r.gr } }
      queue := x.mu.queue.map fun q => { q with msg := r.msg q.msg } }
    locks := { x.locks with pend := x.locks.pend.map fun p => { p with home := 4 * renameIn r.pkgs (p.home / 4) + p.home % 4 } }
    outq := x.outq.map fun q => { q with msg := r.msg q.msg }
    vn1 := x.vn1.map r.msg
    reports := x.reports.map fun q => { q with msg := r.msg q.msg } }

/-- Cells moved with their keys. -/
def Renaming.cells (r : Renaming) (l : List Host.Cell) : List Host.Cell := l.map fun c => (r.key c.1, c.2)

def Renaming.image (r : Renaming) (i : TileImage) : TileImage :=
  { i with tile := r.tile i.tile, state := r.state i.state, bytes := r.cells i.bytes, empty := i.empty.map r.gr }

def Renaming.lock (r : Renaming) (e : LockEntry) : LockEntry :=
  { e with asid := renameIn r.asids e.asid, queue := e.queue.map fun w => { w with hdr := r.hdr w.hdr } }

def Renaming.newel (r : Renaming) (i : NewelImage) : NewelImage :=
  { i with out := i.out.map r.msg, waiting := i.waiting.map fun w => { w with flit := r.flit w.flit },
           locks := i.locks.map r.lock, matrices := i.matrices.map fun e => ((renameIn r.asids (BitVec.ofNat 16 e.1)).toNat, e.2) }

/-- The parked snapshot on its targets. A parked group holds no work queue (R315). -/
def Renaming.snapshot (r : Renaming) (q : Snapshot) (pids : List (Nat × Nat)) : Snapshot :=
  { q with
    tiles := if r.stays then q.tiles.map r.image else []
    newels := if r.stays then q.newels.map r.newel else []
    jobs := q.jobs.map fun e => (renameIn pids e.1, e.2)
    queues := []
    outs := q.outs.map r.msg
    logs := (if r.stays then q.logs else []).map fun l => (r.tile l.1, { l.2 with flits := l.2.flits.map r.flit })
    granules := q.granules.map (renameIn r.pages)
    pages := q.pages.map fun p => { p with num := renameIn r.pages p.num, pid := renameIn pids p.pid }
    full := if r.stays then r.cells q.full else [] }

/-! ### The checks (R315) -/

/-- Target partition ids of a packet, as many as jobs. -/
def parkTargets (b : List Byte) (n : Nat) : List Nat := (List.range n).map fun i => natAt b (16 + i) 1

/-- Tiles of an image's list 0, rising. -/
def imgTiles (b : List Byte) : List Nat := ((imgLists b).getD 0 []).foldl ins []

/-- Packages of an image's list 1, rising. -/
def imgPkgs (b : List Byte) : List Nat := ((imgLists b).getD 1 []).foldl ins []

/-- Whether a target has the shape of a job: as many packages, and as many tiles on each (R314). -/
def State.shapeOk (s : State) (pid : Nat) (shape : List (Nat × List Nat)) : Bool :=
  (s.part pid).isSome && (s.shapeOf pid).map (·.2.length) == shape.map (·.2.length)

/-- A renaming table, none where every number stays. -/
def namesOf (l : List (Nat × Nat)) : List (Nat × Nat) := if l.all fun e => e.1 == e.2 then [] else l

/-! ### Restoring -/

/-- The image with the target's packages in place of its own, as the renaming table has it. -/
def State.loadParked (s : State) (pid : Nat) (j : Job) : Except Nat State :=
  match s.part pid with
  | none => .error stShape
  | some _ =>
    let names := fun (l : List Nat) => namesOf (List.zip (imgTiles j.image) l)
    let s1 := s.modPart pid fun p =>
      { p with rename := names p.tiles
               pkgNames := namesOf (List.zip (imgPkgs j.image) (s.pkgsOf p))
               farNames := ((s.shapeOf pid).filter (·.1 != s.pkg)).flatMap fun e => (names e.2).map fun x => (e.1, x) }
    match (s1.part pid).bind fun p => s1.imgFault j.image p ((s1.pkgsOf p).map p.jobPkg) with
    | some e => .error e
    | none =>
      match s1.reserveArea pid j.area with
      | none => .error stNoArea
      | some (at_, s2) =>
        match s2.loadImage pid j.image at_ j.area j.drain with
        | some s3 => .ok s3
        | none => .error stNoQuota

/-- Every job loaded into its target, or the first status that refuses one. -/
def State.loadAllParked (s : State) : List (Nat × Job) → Except Nat State
  | [] => .ok s
  | (pid, j) :: l =>
    match s.loadParked pid j with
    | .ok s1 => s1.loadAllParked l
    | .error e => .error e

/-- Backs the pages of the parked image that are not backed yet; none if a quota or memory does not allow it. -/
def State.backParked (s : State) (pids : List (Nat × Nat)) : List Page → Option State
  | [] => some s
  | g :: l =>
    match g.va with
    | none => s.backParked pids l
    | some va =>
      let pid := renameIn pids g.pid
      let x := match (s.part pid).bind (·.job) with
        | some j => match j.rangeOf va with
          | some r => r.x
          | none => false
        | none => false
      if (s.ownPage pid va).isSome then s.backParked pids l
      else
        match s.backPage pid va x with
        | some s1 => s1.backParked pids l
        | none => none

/-- The renaming of a park record onto its targets: packages and tiles by rank, pages by their virtual addresses. -/
def State.renaming (s : State) (q : Snapshot) (pids : List (Nat × Nat)) (shapes : List (List (Nat × List Nat))) : Renaming :=
  let ranks := (List.zip pids shapes).flatMap fun e => List.zip e.2 (s.shapeOf e.1.2)
  { pkg := s.pkg
    addrs := ranks.flatMap fun e => (List.zip e.1.2 e.2.2).map fun t => ((e.1.1, t.1), (e.2.1, t.2))
    pkgs := ranks.map fun e => (e.1.1, e.2.1)
    pages := q.pages.filterMap fun g => match g.va with
      | some va => (s.ownPage (renameIn pids g.pid) va).map fun n => (g.num, n.num)
      | none => none
    asids := pids.filterMap fun e =>
      match q.tiles.find? fun i => i.state.regs.pid.toNat == e.1, s.part e.2 with
      | some i, some p => some (i.state.regs.asid, p.asid)
      | _, _ => none }

/-- The group of the targets takes over what the park record kept: identifiers, RCOUNT, colour, and the snapshot. -/
def State.adoptPark (s : State) (gid : Nat) (p : Park) (q : Snapshot) : State :=
  (s.modGroup gid fun g =>
    { p.group with id := gid, snaps := [q], dies := g.dies, replay := [], logging := false, node := g.node }).modVest fun v =>
      { v with parks := v.parks.filter fun x => x.id != p.id }

/-- ROLLBACK with PARKED, modes 0 and 1. -/
def State.rollParked (s : State) (k : Pkt) : State × Answer :=
  match s.pktPark k with
  | none => (s, some (stNoPark, 0))
  | some p =>
    let ids := parkTargets k.bytes p.jobs.length
    if natAt k.bytes 12 1 = 0 then (s, some (stNoLocal, 0))
    else if natAt k.bytes 8 4 ≠ p.snap.sid then (s, some (stNoSnap, 0))
    else if (ids.any fun n => ((s.part n).bind (·.job)).isSome) ∨ anyPair (· == ·) ids then (s, some (stResident, 0))
    else if (List.zip ids p.shapes).any fun e => !s.shapeOk e.1 e.2 then (s, some (stShape, 0))
    else
      match s.loadAllParked (List.zip ids p.jobs) with
      | .error e => (s, some (e, 0))
      | .ok s1 =>
        let pids := List.zip (p.snap.jobs.map (·.1)) ids
        match s1.backParked pids p.snap.pages with
        | none => (s, some (stNoQuota, 0))
        | some s2 =>
          match s2.groupOfPart (ids.headD 0) with
          | none => (s, some (stNoPark, 0))
          | some gid =>
            let q := (s2.renaming p.snap pids p.shapes).snapshot p.snap pids
            (((s2.joinDies gid).adoptPark gid p q).addRoll gid q.sid true (some (k.n, k.idx)), none)

/-- R315: ROLLBACK with PARKED. -/
def execRollbackParked (q : Nat) (s : State) : Result :=
  .next (s.command q .rollParked always State.rollParked State.rollEnd noAfter)

/-- ROLLBACK with PARKED, mode 2: the park record is freed. -/
def State.rollDiscard (s : State) (k : Pkt) : State × Answer :=
  match s.pktPark k with
  | none => (s, some (stNoPark, 0))
  | some p => (s.modVest fun v => { v with parks := v.parks.filter fun x => x.id != p.id }, some (stOk, 0))

/-- R315: a park record is freed. -/
def execRollbackDiscard (q : Nat) (s : State) : Result := .next (s.command q .rollDiscard always State.rollDiscard noEnd noAfter)

end Sys2Proof.Machine
end

