-- ==== Sys2Proof/Machine/Ring.lean ====
section
/-! DEFINITION. RING instructions (spec/ 13 R203, R204). -/

namespace Sys2Proof.Machine

/-- A RING instruction on the descriptor at gA (R204); it counts as an atomic for R33, and the context waits for its reply. -/
def State.ringAt (s : State) (op : RingOp) (a x y : Word) (fin : Fin) (rel : Bool) : State :=
  s.accessAt 4 (addrOf a) 64 64 ⟨true, true⟩ (fun k => .ring op k x y) fin true rel

/-- R204: reserves slots, waiting for room. -/
def execRresv (d a b : Reg) (s : State) : Result :=
  .next (s.ringAt .rresv (s.cur.rd a) (s.cur.rd b) 0 (.ring d) false)

/-- R204: publishes the slots of tickets; a release. -/
def execRpubl (a b c : Reg) (s : State) : Result :=
  .next (s.ringAt .rpubl (s.cur.rd a) (s.cur.rd b) (s.cur.rd c) .none true)

/-- R204: the number of full slots from HEAD. -/
def execRhead (d a : Reg) (s : State) : Result :=
  .next (s.ringAt .rhead (s.cur.rd a) 0 0 (.ring d) false)

/-- R204: consumes slots; a release. -/
def execRcons (a b : Reg) (s : State) : Result :=
  .next (s.ringAt .rcons (s.cur.rd a) (s.cur.rd b) 0 .none true)

end Sys2Proof.Machine
end

