-- ==== Sys2Proof/Machine/Trigger.lean ====
section
/-! DEFINITION. Reading the triggering message (spec/ 13 R202). -/

namespace Sys2Proof.Machine

/-- The triggering message, which stays in its slot (R81, R202). -/
def State.trigger (s : State) : Entry :=
  match s.me.entry s.cur.key with
  | some e => { e with hdr := s.jobHeader s.tile e.hdr }
  | none => Entry.ofWords {} 0 []

/-- R202: payload word w, zero beyond the payload. -/
def execMsgld (d : Reg) (w : BitVec 5) (s : State) : Result :=
  .next (s.retireG 4 d (s.trigger.words.getD w.toNat 0))

/-- R202: H0 or H1 as accepted. -/
def execMsghd (d : Reg) (h : BitVec 1) (s : State) : Result :=
  .next (s.retireG 4 d (if h = 0 then s.trigger.hdr.h0 else s.trigger.hdr.h1 0 s.trigger.age))

/-- R202: SPKG, STILE and MSEQ. -/
def execMsgid (d : Reg) (s : State) : Result :=
  .next (s.retireG 4 d s.trigger.hdr.msgid)

/-- R202: the payload length in bytes. -/
def execMsglen (d : Reg) (s : State) : Result :=
  .next (s.retireG 4 d (BitVec.ofNat 64 (64 * (s.trigger.hdr.nflit.toNat + 1))))

end Sys2Proof.Machine
end

