-- ==== Sys2Proof/Machine/Vari.lean ====
section
/-! DEFINITION. The VARI family (spec/ 15 R210). -/

namespace Sys2Proof.Machine

/-- Integer minimum and maximum lanes. -/
def intMin (x y : Int) : Int := if y < x then y else x
def intMax (x y : Int) : Int := if x < y then y else x

/-- The quotient of R39 on lanes of a type. -/
def laneDiv (t : ElemType) (x y : Nat) : Nat :=
  if t.isSigned then (sdivTrunc (BitVec.ofNat t.width x) (BitVec.ofNat t.width y)).toNat
  else (udivOnes (BitVec.ofNat t.width x) (BitVec.ofNat t.width y)).toNat

/-- R210: a + b. -/
def execVadd (t : ElemType) (z : Bool) (d a b : Reg) (k : KReg) (s : State) : Result :=
  .next (s.vmap2 t z k d a b fun x y => if t.isInt then laneInt2 t (· + ·) x y else fadd (fmtOf t) s.vrm x y)

/-- R210: a − b. -/
def execVsub (t : ElemType) (z : Bool) (d a b : Reg) (k : KReg) (s : State) : Result :=
  .next (s.vmap2 t z k d a b fun x y => if t.isInt then laneInt2 t (· - ·) x y else fsub (fmtOf t) s.vrm x y)

/-- R210: a × b. -/
def execVmul (t : ElemType) (z : Bool) (d a b : Reg) (k : KReg) (s : State) : Result :=
  .next (s.vmap2 t z k d a b fun x y => if t.isInt then laneInt2 t (· * ·) x y else fmul (fmtOf t) s.vrm x y)

/-- R210: the minimum, R46 for floating lanes. -/
def execVmin (t : ElemType) (z : Bool) (d a b : Reg) (k : KReg) (s : State) : Result :=
  .next (s.vmap2 t z k d a b fun x y => if t.isInt then laneInt2 t intMin x y else fminmax (fmtOf t) false x y)

/-- R210: the maximum, R46 for floating lanes. -/
def execVmax (t : ElemType) (z : Bool) (d a b : Reg) (k : KReg) (s : State) : Result :=
  .next (s.vmap2 t z k d a b fun x y => if t.isInt then laneInt2 t intMax x y else fminmax (fmtOf t) true x y)

/-- R210: |a| modulo 2^N; the sign bit cleared for floating lanes. -/
def execVabs (t : ElemType) (z : Bool) (d a : Reg) (k : KReg) (s : State) : Result :=
  .next (s.vmap1 t z k d a fun x => (if t.isInt then laneWrap t (laneInt t x).natAbs else x % 2 ^ (t.width - 1), 0))

/-- R210: 0 − a modulo 2^N; the sign bit inverted for floating lanes. -/
def execVneg (t : ElemType) (z : Bool) (d a : Reg) (k : KReg) (s : State) : Result :=
  .next (s.vmap1 t z k d a fun x => (if t.isInt then laneWrap t (-(laneInt t x)) else fflip (fmtOf t) x, 0))

/-- R210: a + b clamped to the type. -/
def execVadds (t : ElemType) (z : Bool) (d a b : Reg) (k : KReg) (s : State) : Result :=
  .next (s.vmap2 t z k d a b fun x y => (laneClamp t (laneInt t x + laneInt t y), 0))

/-- R210: a − b clamped to the type. -/
def execVsubs (t : ElemType) (z : Bool) (d a b : Reg) (k : KReg) (s : State) : Result :=
  .next (s.vmap2 t z k d a b fun x y => (laneClamp t (laneInt t x - laneInt t y), 0))

/-- R210: the high half of the product. -/
def execVmulh (t : ElemType) (z : Bool) (d a b : Reg) (k : KReg) (s : State) : Result :=
  .next (s.vmap2 t z k d a b fun x y => laneInt2 t (fun i j => i * j / 2 ^ t.width) x y)

/-- R210: a / b, R39 for integer lanes. -/
def execVdiv (t : ElemType) (z : Bool) (d a b : Reg) (k : KReg) (s : State) : Result :=
  .next (s.vmap2 t z k d a b fun x y => if t.isInt then (laneDiv t x y, 0) else fdiv (fmtOf t) s.vrm x y)

/-- R210: √a. -/
def execVsqrt (t : ElemType) (z : Bool) (d a : Reg) (k : KReg) (s : State) : Result :=
  .next (s.vmap1 t z k d a fun x => fsqrt (fmtOf t) s.vrm x)

/-- R210: ⌊(a + b + 1) / 2⌋. -/
def execVavg (t : ElemType) (z : Bool) (d a b : Reg) (k : KReg) (s : State) : Result :=
  .next (s.vmap2 t z k d a b fun x y => laneInt2 t (fun i j => (i + j + 1) / 2) x y)

end Sys2Proof.Machine
end

