-- ==== Sys2Proof/Machine/Vcmp.lean ====
section
/-! DEFINITION. The VCMP family (spec/ 15 R214). -/

namespace Sys2Proof.Machine

/-- The predicate word of lane outcomes whose bit of `mask` is set, bit 0 first (R214). -/
def predWord (mask : Word) : Nat → List Bool → Nat
  | _, [] => 0
  | i, b :: bs => (if b && mask.getLsbD i then 2 ^ i else 0) + predWord mask (i + 1) bs

/-- One lane comparison (R214). -/
def laneCmp (c : VCond) (t : ElemType) (x y : Nat) : Bool × Flags :=
  if t.isInt then
    let i := laneInt t x
    let j := laneInt t y
    (match c with
      | .eq => i == j | .ne => i != j | .lt => i < j | .le => i ≤ j | .gt => j < i | .ge => j ≤ i | .un => false, 0)
  else
    let f := fmtOf t
    match c with
    | .eq => fcompare f true (· == .eq) x y
    | .ne => fcompare f true (· != .eq) x y
    | .lt => fcompare f false (· == .lt) x y
    | .le => fcompare f false (· != .gt) x y
    | .gt => fcompare f false (· == .gt) x y
    | .ge => fcompare f false (· != .lt) x y
    | .un => funord f x y

/-- VCMP (R214): the destination predicate, with the flags of active lanes even when it is k0. -/
def State.vcmp (s : State) (c : VCond) (t : ElemType) (d : KReg) (a b : Reg) (k : KReg) : State :=
  let rs := List.zipWith (laneCmp c t) (lanes t.width (s.cur.rv a)) (lanes t.width (s.cur.rv b))
  s.retire 4 fun x =>
    (x.wk d (BitVec.ofNat 64 (predWord (x.rk k) 0 (rs.map (·.1))))).orFlags (activeFlags (x.rk k) 0 (rs.map fun r => (0, r.2)))

/-- R214: lane compare EQ. -/
def execVcmpEq (t : ElemType) (d : KReg) (a b : Reg) (k : KReg) (s : State) : Result :=
  .next (s.vcmp .eq t d a b k)

/-- R214: lane compare NE. -/
def execVcmpNe (t : ElemType) (d : KReg) (a b : Reg) (k : KReg) (s : State) : Result :=
  .next (s.vcmp .ne t d a b k)

/-- R214: lane compare LT. -/
def execVcmpLt (t : ElemType) (d : KReg) (a b : Reg) (k : KReg) (s : State) : Result :=
  .next (s.vcmp .lt t d a b k)

/-- R214: lane compare LE. -/
def execVcmpLe (t : ElemType) (d : KReg) (a b : Reg) (k : KReg) (s : State) : Result :=
  .next (s.vcmp .le t d a b k)

/-- R214: lane compare GT. -/
def execVcmpGt (t : ElemType) (d : KReg) (a b : Reg) (k : KReg) (s : State) : Result :=
  .next (s.vcmp .gt t d a b k)

/-- R214: lane compare GE. -/
def execVcmpGe (t : ElemType) (d : KReg) (a b : Reg) (k : KReg) (s : State) : Result :=
  .next (s.vcmp .ge t d a b k)

/-- R214: lane compare UN. -/
def execVcmpUn (t : ElemType) (d : KReg) (a b : Reg) (k : KReg) (s : State) : Result :=
  .next (s.vcmp .un t d a b k)

end Sys2Proof.Machine
end

