-- ==== Sys2Proof/Machine/Vfma.lean ====
section
/-! DEFINITION. The VFMA family (spec/ 15 R211, R212). -/

namespace Sys2Proof.Machine

/-- R211: a × b + d rounded once. -/
def execVfma (t : ElemType) (z : Bool) (d a b : Reg) (k : KReg) (s : State) : Result :=
  .next (s.vmap3 t z k d a b fun x y o => ffma (fmtOf t) s.vrm false false x y o)

/-- R211: a × b − d rounded once. -/
def execVfms (t : ElemType) (z : Bool) (d a b : Reg) (k : KReg) (s : State) : Result :=
  .next (s.vmap3 t z k d a b fun x y o => ffma (fmtOf t) s.vrm false true x y o)

/-- R211: −(a × b) − d rounded once. -/
def execVnfma (t : ElemType) (z : Bool) (d a b : Reg) (k : KReg) (s : State) : Result :=
  .next (s.vmap3 t z k d a b fun x y o => ffma (fmtOf t) s.vrm true true x y o)

/-- R211: d + a × b modulo 2^N. -/
def execVmac (t : ElemType) (z : Bool) (d a b : Reg) (k : KReg) (s : State) : Result :=
  .next (s.vmap3 t z k d a b fun x y o => (laneWrap t (laneInt t o + laneInt t x * laneInt t y), 0))

/-- Lanes in groups of `r`. -/
def groupsOf (r : Nat) : Nat → List Nat → List (List Nat)
  | 0, _ => []
  | n + 1, xs => xs.take r :: groupsOf r n (xs.drop r)

/-- A dot product into the 16 lanes of 32 bits (R212): `f` takes the old lane and the source lanes of each group. -/
def State.vdot (s : State) (t : ElemType) (z : Bool) (k : KReg) (d a b : Reg) (f : Nat → List (Nat × Nat) → Nat × Flags) : State :=
  let r := 32 / t.width
  let pairs := List.zipWith List.zip (groupsOf r 16 (lanes t.width (s.cur.rv a))) (groupsOf r 16 (lanes t.width (s.cur.rv b)))
  s.retireV 32 z k d (List.zipWith f (lanes 32 (s.cur.rv d)) pairs)

/-- The floating dot product of one lane (R62): exact, rounded once under RNE. -/
def dotF (t : ElemType) (o : Nat) (ps : List (Nat × Nat)) : Nat × Flags :=
  groupSum fmtF32 (fdec fmtF32 o) (ps.map fun p => (fdec (fmtOf t) p.1, fdec (fmtOf t) p.2))

/-- The integer dot product of one lane (R212). -/
def dotI (t : ElemType) (o : Nat) (ps : List (Nat × Nat)) : Nat × Flags :=
  ((ps.foldl (fun (i : Int) (p : Nat × Nat) => i + laneInt t p.1 * laneInt t p.2) (o : Int) % 2 ^ 32).toNat, 0)

/-- R212: two products into each f32 lane. -/
def execVdot2 (t : ElemType) (z : Bool) (d a b : Reg) (k : KReg) (s : State) : Result :=
  .next (s.vdot t z k d a b (dotF t))

/-- R212: four products into each f32 lane. -/
def execVdot4 (t : ElemType) (z : Bool) (d a b : Reg) (k : KReg) (s : State) : Result :=
  .next (s.vdot t z k d a b (dotF t))

/-- R212: four integer products into each 32-bit lane. -/
def execVdot4i (t : ElemType) (z : Bool) (d a b : Reg) (k : KReg) (s : State) : Result :=
  .next (s.vdot t z k d a b (dotI t))

end Sys2Proof.Machine
end

