-- ==== Sys2Proof/Machine/Vgs.lean ====
section
/-! DEFINITION. The VGS family: gather, scatter and typed block access (spec/ 15 R221 to R224). -/

namespace Sys2Proof.Machine

/-- The places of several accesses of `n` bytes each, in order, or the first failed check (R221, R223). -/
def State.resolveEach (s : State) (n align : Nat) (need : Need) : List Addr → Except Trap (List Piece)
  | [] => .ok []
  | a :: as =>
    match s.resolve1 s.tile a n align need with
    | .error e => .error e
    | .ok p =>
      match s.resolveEach n align need as with
      | .error e => .error e
      | .ok ps => .ok (p :: ps)

/-- The homes that pieces reach by a request (R222): every one but the executing tile's own. -/
def State.farHomes {α : Type} (s : State) (ps : List (Piece × α)) : List (Nat × Nat) :=
  ((ps.filter fun p => !s.isOwn p.1).map fun p => (p.1.pkg, p.1.node)).eraseDups

/-- The pieces an instruction reaches at once: those of the executing tile's own scratchpad (R189). -/
def State.ownParts {α : Type} (s : State) (ps : List (Piece × α)) : List (Piece × α) := ps.filter fun p => s.isOwn p.1

/-- The granules of pieces. -/
def grsOf {α : Type} (ps : List (Piece × α)) : List Nat := ps.flatMap fun p => granules p.1.key p.1.len

/-- Where pieces reach the uncorrectable location at a key (R275). -/
def spotOf {α : Type} (ps : List (Piece × α)) (k : Nat) : Addr := spotAddr k (ps.map fun p => p.1.spot)

/-- The pieces at one home. -/
def atHome {α : Type} (ps : List (Piece × α)) (h : Nat × Nat) : List (Piece × α) := ps.filter fun p => p.1.pkg == h.1 && p.1.node == h.2

/-- What keeps an instruction of several requests from being performed: room for them all; for what it writes of the own scratchpad, the
reads the context has outstanding (R124); or a granule that is outstanding, which for a plain load of the own scratchpad does not mean the
destination of a GET (R188, R200, R222). -/
def State.manyWait {α : Type} (s : State) (write : Bool) (ps : List (Piece × α)) : Option Cond :=
  let own := grsOf (s.ownParts ps)
  let far := grsOf (ps.filter fun p => !s.isOwn p.1) ++ if write then own else []
  if s.me.roomFor s.ctx (s.farHomes ps).length = false then some (.requests (s.farHomes ps).length)
  else if write && !own.isEmpty && s.me.readTags s.ctx != [] then some .reads
  else if s.me.granuleBusy s.ctx own then some (.granules own)
  else if s.me.endsBusy s.ctx far then some (.ends far)
  else none

/-- One request to a home for its pieces, injected after the accesses it covers. -/
def State.requestFor {α : Type} (s : State) (kind : BitVec 4) (h : Nat × Nat) (ps : List (Piece × α)) (op : MemOp) (after : List Nat) :
    State :=
  s.request s.tile s.ctx
    { kind := kind, pkg := h.1, node := h.2, op := op, grs := opGranules op, pages := ps.filterMap fun p => p.1.page,
      spots := ps.map fun p => p.1.spot, get := none } after

/-- Fills the translation caches for the addresses of an instruction. -/
def State.touchEach (s : State) (as : List Addr) (n : Nat) : State := as.foldl (fun s a => s.touch s.tile a n) s

/-- Reads pieces, each with the place of its data in the result (R221 to R223): the executing tile's own at once, one request to each
other home, and the instruction completes with the last reply. -/
def State.readMany (s : State) (ps : List (Piece × Nat)) (fin : Fin) (ea : Addr) : State :=
  match s.manyWait false ps with
  | some c => s.waitFor c
  | none =>
    let own := s.ownParts ps
    match s.badParts (own.map fun p => (p.1.key, p.1.len)) with
    | some b => s.trapBad b (spotOf own b)
    | none =>
      let got := own.map fun p => (p.2, s.read p.1.key p.1.len)
      let homes := s.farHomes ps
      if homes = [] then s.retire 4 fun c => c.finish fin got none
      else
        let tag := s.me.mu.nextTag
        let op := fun h => MemOp.read ((atHome ps h).map fun p => ⟨p.1.key, p.1.len, p.2⟩)
        (homes.foldl (fun s h => s.requestFor 1 h (atHome ps h) (op h) []) s).modCur fun c =>
          { c with run := .wait (.replies ((List.range homes.length).map (tag + ·)) got none fin ea 4) }

/-- Writes pieces, in order (R221, R224): the executing tile's own at once, one request to each other home, after the reads the context
has outstanding (R124); `done` is what the instruction does to its context. -/
def State.writeMany (s : State) (ps : List (Piece × List Byte)) (done : Ctx → Ctx) : State :=
  let after := s.me.readTags s.ctx
  match s.manyWait true ps with
  | some c => s.waitFor c
  | none =>
    let own := s.ownParts ps
    match own.findSome? fun p => s.badPartly p.1.key p.1.len with
    | some b => s.trapBad b (spotOf own b)
    | none =>
      let s1 := own.foldl (fun s p => s.write p.1.key p.2) s
      ((s.farHomes ps).foldl (fun s h =>
        s.requestFor 2 h (atHome ps h) (.write ((atHome ps h).map fun p => (p.1.key, p.2)) false none) after) s1).retire 4 done

/-- Adds lanes at their homes, in lane order (R221, R222). The injection of an atomic is a release (R125). -/
def State.addMany (s : State) (t : ElemType) (ps : List (Piece × Word)) : State :=
  let after := s.me.outTags s.ctx
  match s.manyWait true ps with
  | some c => s.waitFor c
  | none =>
    let own := s.ownParts ps
    match s.badParts (own.map fun p => (p.1.key, p.1.len)) with
    | some b => s.trapBad b (spotOf own b)
    | none =>
      let s1 := own.foldl (fun s p =>
        s.write p.1.key (leBytes (t.width / 8) (laneSum t (leNat (s.read p.1.key (t.width / 8))) p.2.toNat))) s
      ((s.farHomes ps).foldl (fun s h =>
        s.requestFor 3 h (atHome ps h) (.addLanes t ((atHome ps h).map fun p => (p.1.key, p.2))) after) s1).retire 4 (fun c => c)

/-- The active lanes of a gather or scatter. -/
def State.gsLanes (s : State) (t : ElemType) (k : KReg) : List Nat := (List.range t.lanes).filter fun i => (s.cur.rk k).getLsbD i

/-- The address of a lane (R221). -/
def State.gsAddr (s : State) (t : ElemType) (base : Word) (b : Reg) (i : Nat) : Addr :=
  addrOf base + BitVec.ofNat 56 (t.width / 8) * (BitVec.ofNat 32 (Sys2Proof.Machine.lane 32 (s.cur.rv b) i)).signExtend 56

/-- The checked places of the active lanes. -/
def State.gsPieces (s : State) (t : ElemType) (base : Word) (b : Reg) (k : KReg) (write : Bool) : Except Trap (List Piece) :=
  s.resolveEach (t.width / 8) (t.width / 8) ⟨write, false⟩ ((s.gsLanes t k).map (s.gsAddr t base b))

/-- The lanes' ranges of addresses. -/
def State.gsRanges (s : State) (t : ElemType) (base : Word) (b : Reg) (k : KReg) : List (Addr × Nat) :=
  (s.gsLanes t k).map fun i => (s.gsAddr t base b i, t.width / 8)

/-- The state with the caches filled for a gather or scatter. -/
def State.gsTouch (s : State) (t : ElemType) (base : Word) (b : Reg) (k : KReg) : State :=
  s.touchEach ((s.gsLanes t k).map (s.gsAddr t base b)) (t.width / 8)

/-- R221: gathers the active lanes. -/
def execVgath (t : ElemType) (z : Bool) (d a b : Reg) (k : KReg) (s : State) : Result :=
  .next (s.orLease s.tile (s.gsRanges t (s.cur.rd a) b k) (s.gsPieces t (s.cur.rd a) b k false) fun ps =>
    (s.gsTouch t (s.cur.rd a) b k).readMany (ps.zip (s.gsLanes t k)) (.gather t z k d) (addrOf (s.cur.rd a)))

/-- The data of the active lanes. -/
def State.gsData (s : State) (t : ElemType) (d : Reg) (k : KReg) : List Nat :=
  (s.gsLanes t k).map fun i => Sys2Proof.Machine.lane t.width (s.cur.rv d) i

/-- R221: scatters the active lanes. -/
def execVscat (t : ElemType) (d a b : Reg) (k : KReg) (s : State) : Result :=
  .next (s.orLease s.tile (s.gsRanges t (s.cur.rd a) b k) (s.gsPieces t (s.cur.rd a) b k true) fun ps =>
    (s.gsTouch t (s.cur.rd a) b k).writeMany (ps.zip ((s.gsData t d k).map (leBytes (t.width / 8)))) (fun c => c))

/-- R221: adds the active lanes at their homes; flags are discarded. -/
def execVscata (t : ElemType) (d a b : Reg) (k : KReg) (s : State) : Result :=
  .next (s.orLease s.tile (s.gsRanges t (s.cur.rd a) b k) (s.gsPieces t (s.cur.rd a) b k true) fun ps =>
    (s.gsTouch t (s.cur.rd a) b k).addMany t (ps.zip ((s.gsData t d k).map (BitVec.ofNat 64))))

/-- FMT of a fat pointer, and its block length (R52, R53). -/
def fatFmt (w : Word) : Nat := (w.extractLsb' 60 4).toNat
def fatLen (w : Word) : Option Nat := if fatFmt w = 7 ∨ fatFmt w = 8 then blockLen (w.extractLsb' 56 4).toNat else some 0

/-- Where a typed block load reads (R223): its data bytes and their alignment, and its scale bytes. -/
def vldtReads (fmt len : Nat) (a sc : Addr) : (Addr × Nat × Nat) × List Addr :=
  if fmt = 5 ∨ fmt = 6 then ((a, 64, 64), [])
  else if len = 32 then ((a, 32, 32), [sc, sc + 1])
  else if len = 128 ∧ fmt = 8 then ((a &&& ~~~0x3F, 64, 32), [sc])
  else ((a, 32, 32), [sc])

/-- VLDT (R223). Where its data range and a scale byte both fail a check, the data range's is the one that traps (DESIGN CHOICE, log entry
72). -/
def State.vldt (s : State) (t : ElemType) (z : Bool) (d : Reg) (p sc : Word) (k : KReg) : State :=
  let fmt := fatFmt p
  match fatLen p with
  | none => s.trap trapIllOperand
  | some len =>
    if fmt < 5 ∨ 8 < fmt then s.trap trapIllOperand
    else if addrOf p % 32 ≠ 0 then s.trap (trapAlign (addrOf p))
    else
      let ((da, dn, al), scs) := vldtReads fmt len (addrOf p) (addrOf sc)
      s.orLease s.tile [(da, dn)] (s.resolve1 s.tile da dn al needRead) fun dp =>
        s.orLease s.tile (scs.map (·, 1)) (s.resolveEach 1 1 needRead scs) fun sps =>
          ((s.touch s.tile da dn).touchEach scs 1).readMany ((dp, 0) :: sps.zipIdx.map fun e => (e.1, scalePos + e.2))
            (.block t z k d fmt len (addrOf p)) (addrOf p)

/-- R223: decodes 64 elements into a register group. -/
def execVldt (t : ElemType) (z : Bool) (d a b : Reg) (k : KReg) (s : State) : Result :=
  .next (s.vldt t z d (s.cur.rd a) (s.cur.rd b) k)

/-- The elements of the register group of VSTQ (R224). -/
def State.groupElems (s : State) (t : ElemType) (d : Reg) : List Nat :=
  [0, 1, 2, 3].flatMap fun i => lanes t.width (s.cur.rv (d + BitVec.ofNat 4 i))

/-- The bytes of an FP8 store and its flags (R224). -/
def storeFp8 (src : Fmt) (fmt : Nat) (xs : List (Nat × Rm)) : List Byte × Flags :=
  let rs := xs.map fun x => fcvt src (fmtOfCode fmt) x.2 true x.1
  (rs.map fun r => BitVec.ofNat 8 r.1, rs.foldl (fun f r => f ||| r.2) 0)

/-- The element bytes, scale bytes and flags of a block store (R224): `n` blocks of `len` elements. -/
def storeBlocks (src : Fmt) (q4o : Bool) (len : Nat) : Nat → List (Nat × Rm) → List Byte × List Byte × Flags
  | 0, _ => ([], [], 0)
  | n + 1, xs =>
    let (sc, codes, fl) := quantBlock q4o ((xs.take len).map fun x => (fdec src x.1, x.2))
    let (bs, scs, fl') := storeBlocks src q4o len n (xs.drop len)
    (packNibbles codes ++ bs, BitVec.ofNat 8 sc :: scs, fl ||| fl')

/-- The pieces of a range with their bytes. -/
def withBytes : List Piece → List Byte → List (Piece × List Byte)
  | [], _ => []
  | p :: ps, bs => (p, bs.take p.len) :: withBytes ps (bs.drop p.len)

/-- VSTQ after its format is checked: its data and scale bytes are written and its flags and generator state kept (R224). The data range's
checks come before those of any scale byte (DESIGN CHOICE, log entry 72). -/
def State.storeTyped (s : State) (a sc : Addr) (align : Nat) (data scales : List Byte) (fl : Flags) (g : Word) : State :=
  let scs := (List.range scales.length).map fun i => sc + BitVec.ofNat 56 i
  s.orLease s.tile [(a, data.length)] (s.resolve s.tile a data.length align needWrite) fun dps =>
    s.orLease s.tile (scs.map (·, 1)) (s.resolveEach 1 1 needWrite scs) fun sps =>
      ((s.touch s.tile a data.length).touchEach scs 1).writeMany (withBytes dps data ++ withBytes sps scales) fun c =>
        { c.orFlags fl with srng := g }

/-- VSTQ (R224). -/
def State.vstq (s : State) (t : ElemType) (sr : Bool) (d : Reg) (p sc : Word) : State :=
  let fmt := fatFmt p
  let es := s.groupElems t d
  let (rs, g) := roundings s.vrm sr es.length s.cur.srng
  let xs := es.zip rs
  match fatLen p with
  | none => s.trap trapIllOperand
  | some len =>
    if fmt < 5 ∨ 8 < fmt then s.trap trapIllOperand
    else if fmt < 7 then
      let (bs, fl) := storeFp8 (fmtOf t) fmt xs
      s.storeTyped (addrOf p) 0 64 bs [] fl g
    else if es.length % len ≠ 0 ∨ (addrOf p).toNat % (len / 2) ≠ 0 ∨ (addrOf p).toNat % 32 ≠ 0 then s.trap trapIllOperand
    else
      let (bs, scs, fl) := storeBlocks (fmtOf t) (fmt == 8) len (es.length / len) xs
      s.storeTyped (addrOf p) (addrOf sc) 1 bs scs fl g

/-- R224: quantises a register group to memory. -/
def execVstq (t : ElemType) (sr : Bool) (d a b : Reg) (s : State) : Result :=
  .next (s.vstq t sr d (s.cur.rd a) (s.cur.rd b))

end Sys2Proof.Machine
end

