-- ==== Sys2Proof/Machine/Vlog.lean ====
section
/-! DEFINITION. The VLOG family (spec/ 15 R213). -/

namespace Sys2Proof.Machine

/-- The lane operation of a bit-vector function of the lane width. -/
def laneBits (t : ElemType) (f : BitVec t.width → BitVec t.width → BitVec t.width) (x y : Nat) : Nat × Flags :=
  ((f (BitVec.ofNat t.width x) (BitVec.ofNat t.width y)).toNat, 0)

/-- R213: AND. -/
def execVand (t : ElemType) (z : Bool) (d a b : Reg) (k : KReg) (s : State) : Result :=
  .next (s.vmap2 t z k d a b fun x y => laneBits t (fun p q => p &&& q) x y)

/-- R213: OR. -/
def execVor (t : ElemType) (z : Bool) (d a b : Reg) (k : KReg) (s : State) : Result :=
  .next (s.vmap2 t z k d a b fun x y => laneBits t (fun p q => p ||| q) x y)

/-- R213: XOR. -/
def execVxor (t : ElemType) (z : Bool) (d a b : Reg) (k : KReg) (s : State) : Result :=
  .next (s.vmap2 t z k d a b fun x y => laneBits t (fun p q => p ^^^ q) x y)

/-- R213: a AND NOT b. -/
def execVandn (t : ElemType) (z : Bool) (d a b : Reg) (k : KReg) (s : State) : Result :=
  .next (s.vmap2 t z k d a b fun x y => laneBits t (fun p q => p &&& ~~~q) x y)

/-- R213: shift left. -/
def execVshl (t : ElemType) (z : Bool) (d a b : Reg) (k : KReg) (s : State) : Result :=
  .next (s.vmap2 t z k d a b fun x y => laneBits t (fun p q => p <<< (q.toNat % t.width)) x y)

/-- R213: logical shift right. -/
def execVshr (t : ElemType) (z : Bool) (d a b : Reg) (k : KReg) (s : State) : Result :=
  .next (s.vmap2 t z k d a b fun x y => laneBits t (fun p q => p >>> (q.toNat % t.width)) x y)

/-- R213: arithmetic shift right. -/
def execVsar (t : ElemType) (z : Bool) (d a b : Reg) (k : KReg) (s : State) : Result :=
  .next (s.vmap2 t z k d a b fun x y => laneBits t (fun p q => p.sshiftRight (q.toNat % t.width)) x y)

/-- R213: rotation left. -/
def execVrol (t : ElemType) (z : Bool) (d a b : Reg) (k : KReg) (s : State) : Result :=
  .next (s.vmap2 t z k d a b fun x y => laneBits t (fun p q => rotl p (q.toNat % t.width)) x y)

/-- R213: NOT. -/
def execVnot (t : ElemType) (z : Bool) (d a : Reg) (k : KReg) (s : State) : Result :=
  .next (s.vmap1 t z k d a fun x => ((~~~(BitVec.ofNat t.width x)).toNat, 0))

end Sys2Proof.Machine
end

