-- ==== Sys2Proof/Machine/Vmem.lean ====
section
/-! DEFINITION. The VMEM family (spec/ 15 R219, R220). -/

namespace Sys2Proof.Machine

/-- A load of 64 bytes (R219). -/
def State.vloadAt (s : State) (ea : Addr) (d : Reg) : State :=
  s.accessAt 4 ea 64 64 needRead (fun k => .read [⟨k, 64, 0⟩]) (.vload d) true false

/-- A store of 64 bytes (R219, R220): `full` sets all four FULL bits, a release. -/
def State.vstoreAt (s : State) (ea : Addr) (v : VReg) (full : Bool) : State :=
  s.accessAt 4 ea 64 64 ⟨true, full⟩ (fun k => .write [(k, leBytes 64 v.toNat)] full none) .none false full

/-- R219: a load of 64 bytes. -/
def execVld (d a : Reg) (i : BitVec 12) (s : State) : Result :=
  .next (s.vloadAt (effAddr (s.cur.rd a) 64 i) d)

/-- R220: waits until all four granules are full, then loads; an acquire. -/
def execVldW (d a : Reg) (i : BitVec 12) (s : State) : Result :=
  .next (s.accessAt 4 (effAddr (s.cur.rd a) 64 i) 64 64 ⟨false, true⟩ (fun k => .vldW k) (.vload d) true false)

/-- R219: a load of 64 bytes with a no-reuse hint. -/
def execVldb (d a : Reg) (i : BitVec 12) (s : State) : Result :=
  .next (s.vloadAt (effAddr (s.cur.rd a) 64 i) d)

/-- R219: a store of 64 bytes. -/
def execVst (d a : Reg) (i : BitVec 12) (s : State) : Result :=
  .next (s.vstoreAt (effAddr (s.cur.rd a) 64 i) (s.cur.rv d) false)

/-- R220: a store of 64 bytes that sets all four FULL bits; a release. -/
def execVstF (d a : Reg) (i : BitVec 12) (s : State) : Result :=
  .next (s.vstoreAt (effAddr (s.cur.rd a) 64 i) (s.cur.rv d) true)

end Sys2Proof.Machine
end

