-- ==== Sys2Proof/Machine/Vprm.lean ====
section
/-! DEFINITION. The VPRM family (spec/ 15 R215). -/

namespace Sys2Proof.Machine

/-- A predicated permute (R208, R215): no flag. -/
def State.vperm (s : State) (t : ElemType) (z : Bool) (k : KReg) (d : Reg) (f : Nat → Nat) : State :=
  s.retireV t.width z k d ((List.range t.lanes).map fun i => (f i, 0))

/-- Lane `i` of a register at a type's width. -/
def State.lane (s : State) (t : ElemType) (r : Reg) (i : Nat) : Nat := Sys2Proof.Machine.lane t.width (s.cur.rv r) i

/-- R215: the low bits of gA in every active lane. -/
def execVbcast (t : ElemType) (z : Bool) (d a : Reg) (k : KReg) (s : State) : Result :=
  .next (s.vperm t z k d fun _ => (s.cur.rd a).toNat % 2 ^ t.width)

/-- R215: lanes of vA chosen by vB. -/
def execVperm (t : ElemType) (z : Bool) (d a b : Reg) (k : KReg) (s : State) : Result :=
  .next (s.vperm t z k d fun i => s.lane t a (s.lane t b i % t.lanes))

/-- R215: each lane from vA or vB by predicate. -/
def execVsel (t : ElemType) (d a b : Reg) (k : KReg) (s : State) : Result :=
  .next (s.retire 4 fun c =>
    c.wv d (packLanes t.width ((List.range t.lanes).map fun i => if (c.rk k).getLsbD i then s.lane t a i else s.lane t b i)))

/-- R215: lane gB of vA, extended by type. -/
def execVext (t : ElemType) (d a b : Reg) (s : State) : Result :=
  .next (s.retireG 4 d (BitVec.ofInt 64 (laneInt t (s.lane t a ((s.cur.rd b).toNat % t.lanes)))))

/-- R215: gA into lane gB of vD. -/
def execVins (t : ElemType) (d a b : Reg) (s : State) : Result :=
  .next (s.retire 4 fun c =>
    c.wv d (packLanes t.width ((lanes t.width (c.rv d)).set ((s.cur.rd b).toNat % t.lanes) ((s.cur.rd a).toNat % 2 ^ t.width))))

/-- R215: the low halves interleaved. -/
def execVzipl (t : ElemType) (z : Bool) (d a b : Reg) (k : KReg) (s : State) : Result :=
  .next (s.vperm t z k d fun i => if i % 2 = 0 then s.lane t a (i / 2) else s.lane t b (i / 2))

/-- R215: the high halves interleaved. -/
def execVziph (t : ElemType) (z : Bool) (d a b : Reg) (k : KReg) (s : State) : Result :=
  .next (s.vperm t z k d fun i => if i % 2 = 0 then s.lane t a (t.lanes / 2 + i / 2) else s.lane t b (t.lanes / 2 + i / 2))

/-- R215: even lanes of vA, then of vB. -/
def execVuzpe (t : ElemType) (z : Bool) (d a b : Reg) (k : KReg) (s : State) : Result :=
  .next (s.vperm t z k d fun i => if i < t.lanes / 2 then s.lane t a (2 * i) else s.lane t b (2 * i - t.lanes))

/-- R215: odd lanes of vA, then of vB. -/
def execVuzpo (t : ElemType) (z : Bool) (d a b : Reg) (k : KReg) (s : State) : Result :=
  .next (s.vperm t z k d fun i => if i < t.lanes / 2 then s.lane t a (2 * i + 1) else s.lane t b (2 * i + 1 - t.lanes))

/-- R215: the number of earlier active predicate bits. -/
def execViota (t : ElemType) (z : Bool) (d : Reg) (k : KReg) (s : State) : Result :=
  .next (s.vperm t z k d fun i => popFrom (s.cur.rk k) i)

/-- The active lanes of a list, in order. -/
def activeLanes (mask : Word) : Nat → List Nat → List Nat
  | _, [] => []
  | i, x :: xs => if mask.getLsbD i then x :: activeLanes mask (i + 1) xs else activeLanes mask (i + 1) xs

/-- R215: the active lanes of vA fill the low lanes. -/
def execVcmprs (t : ElemType) (z : Bool) (d a : Reg) (k : KReg) (s : State) : Result :=
  .next (s.retire 4 fun c =>
    let xs := activeLanes (c.rk k) 0 (lanes t.width (c.rv a))
    let rest := if z then List.replicate (t.lanes - xs.length) 0 else (lanes t.width (c.rv d)).drop xs.length
    c.wv d (packLanes t.width (xs ++ rest)))

/-- R215: vA moved down by gB lanes. -/
def execVsldn (t : ElemType) (z : Bool) (d a b : Reg) (k : KReg) (s : State) : Result :=
  .next (s.vperm t z k d fun i => if i + (s.cur.rd b).toNat < t.lanes then s.lane t a (i + (s.cur.rd b).toNat) else 0)

end Sys2Proof.Machine
end

