-- ==== Sys2Proof/Machine/Vred.lean ====
section
/-! DEFINITION. The VRED family (spec/ 15 R218, 03 R63). -/

namespace Sys2Proof.Machine

/-- The values of the active lanes of vA, in lane order. -/
def State.active (s : State) (t : ElemType) (a : Reg) (k : KReg) : List Nat :=
  ((lanes t.width (s.cur.rv a)).zipIdx.filter fun e => (s.cur.rk k).getLsbD e.2).map (·.1)

/-- The format a floating reduction is held in (R63, R218): f64 for f64, f32 for the rest. -/
def redFmt (t : ElemType) : Fmt := if t = .f64 then fmtF64 else fmtF32

/-- A lane as it enters a floating sum (R63): converted exactly, a signalling NaN quieted. -/
def enterSum (t : ElemType) (x : Nat) : Nat × Flags := fcvt (fmtOf t) (redFmt t) .rne false x

/-- An addition that gathers flags. -/
def addFlags (f : Fmt) (r : Rm) (a b : Nat × Flags) : Nat × Flags :=
  let (x, fl) := fadd f r a.1 b.1
  (x, a.2 ||| b.2 ||| fl)

/-- The lane-order sum (R63). -/
def sumOrdered (f : Fmt) (r : Rm) : List (Nat × Flags) → Nat × Flags
  | [] => (0, 0)
  | x :: xs => xs.foldl (addFlags f r) x

/-- One level of the pairwise tree (R63). -/
def pairUp (f : Fmt) (r : Rm) : List (Nat × Flags) → List (Nat × Flags)
  | a :: b :: xs => addFlags f r a b :: pairUp f r xs
  | xs => xs

/-- The pairwise tree: `n` levels. -/
def sumTree (f : Fmt) (r : Rm) : Nat → List (Nat × Flags) → Nat × Flags
  | 0, xs => xs.headD (0, 0)
  | n + 1, xs => sumTree f r n (pairUp f r xs)

/-- The sum of integer lanes, modulo 2^64 (R63). -/
def sumInt (t : ElemType) (xs : List Nat) : Word := BitVec.ofInt 64 ((xs.map (laneInt t)).foldl (· + ·) 0)

/-- A reduction's result with its flags. -/
def State.retireRed (s : State) (d : Reg) (w : Word) (f : Flags) : State := s.retire 4 fun c => (c.wr d w).orFlags f

/-- VRMIN and VRMAX (R218). -/
def State.vrminmax (s : State) (mx : Bool) (t : ElemType) (d a : Reg) (k : KReg) : State :=
  let xs := s.active t a k
  if t.isInt then
    let is := xs.map (laneInt t)
    let r := is.foldl (fun m i => if mx then (if m < i then i else m) else (if i < m then i else m))
      (if mx then typeMin t else typeMax t)
    s.retireRed d (BitVec.ofInt 64 r) 0
  else
    match xs with
    | [] => s.retireRed d (BitVec.ofNat 64 (finf (redFmt t) mx)) 0
    | x :: rest =>
      let (m, f) := rest.foldl (fun m y => ((fminmax (fmtOf t) mx m.1 y).1, m.2 ||| (fminmax (fmtOf t) mx m.1 y).2)) (x, (0 : Flags))
      let v := if t = .f32 ∨ t = .f64 then m else fmovi (fmtOf t) fmtF32 m
      s.retireRed d (BitVec.ofNat 64 v) f

/-- VRAND, VROR and VRXOR (R218): the w-bit lanes folded, zero-extended. -/
def State.vrbits (s : State) (f : Nat → Nat → Nat) (start : Nat) (t : ElemType) (d a : Reg) (k : KReg) : State :=
  s.retireRed d (BitVec.ofNat 64 ((s.active t a k).foldl f start)) 0

/-- R218: the lane-order sum of R63. -/
def execVrsum (t : ElemType) (d a : Reg) (k : KReg) (s : State) : Result :=
  if t.isInt then .next (s.retireRed d (sumInt t (s.active t a k)) 0)
  else
    let r := sumOrdered (redFmt t) s.vrm ((s.active t a k).map (enterSum t))
    .next (s.retireRed d (BitVec.ofNat 64 r.1) r.2)

/-- R218: the pairwise tree of R63; inactive lanes are +0. -/
def execVrsumt (t : ElemType) (d a : Reg) (k : KReg) (s : State) : Result :=
  if t.isInt then .next (s.retireRed d (sumInt t (s.active t a k)) 0)
  else
    let xs := (lanes t.width (s.cur.rv a)).zipIdx.map fun e => if (s.cur.rk k).getLsbD e.2 then enterSum t e.1 else (0, 0)
    let r := sumTree (redFmt t) s.vrm (Nat.log2 t.lanes) xs
    .next (s.retireRed d (BitVec.ofNat 64 r.1) r.2)

/-- R218: the minimum of the active lanes. -/
def execVrmin (t : ElemType) (d a : Reg) (k : KReg) (s : State) : Result :=
  .next (s.vrminmax false t d a k)

/-- R218: the maximum of the active lanes. -/
def execVrmax (t : ElemType) (d a : Reg) (k : KReg) (s : State) : Result :=
  .next (s.vrminmax true t d a k)

/-- R218: the AND of the active lanes. -/
def execVrand (t : ElemType) (d a : Reg) (k : KReg) (s : State) : Result :=
  .next (s.vrbits (· &&& ·) (2 ^ t.width - 1) t d a k)

/-- R218: the OR of the active lanes. -/
def execVror (t : ElemType) (d a : Reg) (k : KReg) (s : State) : Result :=
  .next (s.vrbits (· ||| ·) 0 t d a k)

/-- R218: the XOR of the active lanes. -/
def execVrxor (t : ElemType) (d a : Reg) (k : KReg) (s : State) : Result :=
  .next (s.vrbits (· ^^^ ·) 0 t d a k)

end Sys2Proof.Machine
end

