-- ==== Sys2Proof/Machine/Dispatch.lean ====
section
/-! DEFINITION. The meaning of each operation and event: one arm each, one call each. -/

namespace Sys2Proof.Machine

/-- What an instruction or event does to the state. -/
def exec (i : Instr) (s : State) : Host.Outcome State Fault Refusal :=
  match i with
  | .cMov d a => Sys2Proof.Machine.execCMov d a s
  | .cAdd d a => Sys2Proof.Machine.execCAdd d a s
  | .cSub d a => Sys2Proof.Machine.execCSub d a s
  | .cAnd d a => Sys2Proof.Machine.execCAnd d a s
  | .cOr d a => Sys2Proof.Machine.execCOr d a s
  | .cAddi d imm => Sys2Proof.Machine.execCAddi d imm s
  | .cMovi d imm => Sys2Proof.Machine.execCMovi d imm s
  | .cLdd d a imm => Sys2Proof.Machine.execCLdd d a imm s
  | .cStd d a imm => Sys2Proof.Machine.execCStd d a imm s
  | .cBz d off => Sys2Proof.Machine.execCBz d off s
  | .cBnz d off => Sys2Proof.Machine.execCBnz d off s
  | .cDone => Sys2Proof.Machine.execCDone s
  | .cYield => Sys2Proof.Machine.execCYield s
  | .cNop => Sys2Proof.Machine.execCNop s
  | .cRet => Sys2Proof.Machine.execCRet s
  | .cCommit => Sys2Proof.Machine.execCCommit s
  | .add d a b => Sys2Proof.Machine.execAdd d a b s
  | .sub d a b => Sys2Proof.Machine.execSub d a b s
  | .mul d a b => Sys2Proof.Machine.execMul d a b s
  | .mulh d a b => Sys2Proof.Machine.execMulh d a b s
  | .mulhn d a b => Sys2Proof.Machine.execMulhn d a b s
  | .div d a b => Sys2Proof.Machine.execDiv d a b s
  | .divn d a b => Sys2Proof.Machine.execDivn d a b s
  | .rem d a b => Sys2Proof.Machine.execRem d a b s
  | .remn d a b => Sys2Proof.Machine.execRemn d a b s
  | .and d a b => Sys2Proof.Machine.execAnd d a b s
  | .or d a b => Sys2Proof.Machine.execOr d a b s
  | .xor d a b => Sys2Proof.Machine.execXor d a b s
  | .andn d a b => Sys2Proof.Machine.execAndn d a b s
  | .orn d a b => Sys2Proof.Machine.execOrn d a b s
  | .shl d a b => Sys2Proof.Machine.execShl d a b s
  | .shr d a b => Sys2Proof.Machine.execShr d a b s
  | .sar d a b => Sys2Proof.Machine.execSar d a b s
  | .rol d a b => Sys2Proof.Machine.execRol d a b s
  | .min d a b => Sys2Proof.Machine.execMin d a b s
  | .max d a b => Sys2Proof.Machine.execMax d a b s
  | .minn d a b => Sys2Proof.Machine.execMinn d a b s
  | .maxn d a b => Sys2Proof.Machine.execMaxn d a b s
  | .seq d a b => Sys2Proof.Machine.execSeq d a b s
  | .sne d a b => Sys2Proof.Machine.execSne d a b s
  | .slt d a b => Sys2Proof.Machine.execSlt d a b s
  | .sle d a b => Sys2Proof.Machine.execSle d a b s
  | .sltn d a b => Sys2Proof.Machine.execSltn d a b s
  | .slen d a b => Sys2Proof.Machine.execSlen d a b s
  | .sel d a b c => Sys2Proof.Machine.execSel d a b c s
  | .clz d a => Sys2Proof.Machine.execClz d a s
  | .ctz d a => Sys2Proof.Machine.execCtz d a s
  | .popc d a => Sys2Proof.Machine.execPopc d a s
  | .brev d a => Sys2Proof.Machine.execBrev d a s
  | .muladd d a b c => Sys2Proof.Machine.execMuladd d a b c s
  | .padd d a b => Sys2Proof.Machine.execPadd d a b s
  | .psub d a b => Sys2Proof.Machine.execPsub d a b s
  | .ptag d a b => Sys2Proof.Machine.execPtag d a b s
  | .pfmt d a => Sys2Proof.Machine.execPfmt d a s
  | .bfx d a c => Sys2Proof.Machine.execBfx d a c s
  | .bfxs d a c => Sys2Proof.Machine.execBfxs d a c s
  | .bfi d a b c => Sys2Proof.Machine.execBfi d a b c s
  | .addw d a b => Sys2Proof.Machine.execAddw d a b s
  | .subw d a b => Sys2Proof.Machine.execSubw d a b s
  | .mulw d a b => Sys2Proof.Machine.execMulw d a b s
  | .shlw d a b => Sys2Proof.Machine.execShlw d a b s
  | .shrw d a b => Sys2Proof.Machine.execShrw d a b s
  | .sarw d a b => Sys2Proof.Machine.execSarw d a b s
  | .addi d a imm => Sys2Proof.Machine.execAddi d a imm s
  | .andi d a imm => Sys2Proof.Machine.execAndi d a imm s
  | .ori d a imm => Sys2Proof.Machine.execOri d a imm s
  | .xori d a imm => Sys2Proof.Machine.execXori d a imm s
  | .slti d a imm => Sys2Proof.Machine.execSlti d a imm s
  | .sltni d a imm => Sys2Proof.Machine.execSltni d a imm s
  | .shli d a n => Sys2Proof.Machine.execShli d a n s
  | .shri d a n => Sys2Proof.Machine.execShri d a n s
  | .sari d a n => Sys2Proof.Machine.execSari d a n s
  | .roli d a n => Sys2Proof.Machine.execRoli d a n s
  | .shliW d a n => Sys2Proof.Machine.execShliW d a n s
  | .shriW d a n => Sys2Proof.Machine.execShriW d a n s
  | .sariW d a n => Sys2Proof.Machine.execSariW d a n s
  | .roliW d a n => Sys2Proof.Machine.execRoliW d a n s
  | .movw d imm p => Sys2Proof.Machine.execMovw d imm p s
  | .movk d imm p => Sys2Proof.Machine.execMovk d imm p s
  | .movn d imm p => Sys2Proof.Machine.execMovn d imm p s
  | .paddi d a imm => Sys2Proof.Machine.execPaddi d a imm s
  | .adr d off => Sys2Proof.Machine.execAdr d off s
  | .fmoviF64H d imm => Sys2Proof.Machine.execFmoviF64H d imm s
  | .fmoviF32H d imm => Sys2Proof.Machine.execFmoviF32H d imm s
  | .fmoviF64Bf d imm => Sys2Proof.Machine.execFmoviF64Bf d imm s
  | .fmoviF32Bf d imm => Sys2Proof.Machine.execFmoviF32Bf d imm s
  | .b off => Sys2Proof.Machine.execB off s
  | .bl off => Sys2Proof.Machine.execBl off s
  | .bcEq x y off => Sys2Proof.Machine.execBcEq x y off s
  | .bcNe x y off => Sys2Proof.Machine.execBcNe x y off s
  | .bcLt x y off => Sys2Proof.Machine.execBcLt x y off s
  | .bcGe x y off => Sys2Proof.Machine.execBcGe x y off s
  | .bcLtn x y off => Sys2Proof.Machine.execBcLtn x y off s
  | .bcGen x y off => Sys2Proof.Machine.execBcGen x y off s
  | .bcAny x y off => Sys2Proof.Machine.execBcAny x y off s
  | .bcNone x y off => Sys2Proof.Machine.execBcNone x y off s
  | .fbcEq p x y off => Sys2Proof.Machine.execFbcEq p x y off s
  | .fbcNe p x y off => Sys2Proof.Machine.execFbcNe p x y off s
  | .fbcLt p x y off => Sys2Proof.Machine.execFbcLt p x y off s
  | .fbcLe p x y off => Sys2Proof.Machine.execFbcLe p x y off s
  | .fbcUn p x y off => Sys2Proof.Machine.execFbcUn p x y off s
  | .fbcOrd p x y off => Sys2Proof.Machine.execFbcOrd p x y off s
  | .jr a => Sys2Proof.Machine.execJr a s
  | .jlr d a => Sys2Proof.Machine.execJlr d a s
  | .loop0 c len => Sys2Proof.Machine.execLoop0 c len s
  | .loop1 c len => Sys2Proof.Machine.execLoop1 c len s
  | .done => Sys2Proof.Machine.execDone s
  | .commit => Sys2Proof.Machine.execCommit s
  | .yield => Sys2Proof.Machine.execYield s
  | .abort => Sys2Proof.Machine.execAbort s
  | .requeue => Sys2Proof.Machine.execRequeue s
  | .trap e => Sys2Proof.Machine.execTrap e s
  | .tret => Sys2Proof.Machine.execTret s
  | .nop => Sys2Proof.Machine.execNop s
  | .waitf a => Sys2Proof.Machine.execWaitf a s
  | .migrate cls a => Sys2Proof.Machine.execMigrate cls a s
  | .mfs d e => Sys2Proof.Machine.execMfs d e s
  | .mts e a => Sys2Proof.Machine.execMts e a s
  | .ldbs d a imm => Sys2Proof.Machine.execLdbs d a imm s
  | .ldbz d a imm => Sys2Proof.Machine.execLdbz d a imm s
  | .ldhs d a imm => Sys2Proof.Machine.execLdhs d a imm s
  | .ldhz d a imm => Sys2Proof.Machine.execLdhz d a imm s
  | .ldws d a imm => Sys2Proof.Machine.execLdws d a imm s
  | .ldwz d a imm => Sys2Proof.Machine.execLdwz d a imm s
  | .ldd d a imm => Sys2Proof.Machine.execLdd d a imm s
  | .stb d a imm => Sys2Proof.Machine.execStb d a imm s
  | .sth d a imm => Sys2Proof.Machine.execSth d a imm s
  | .stw d a imm => Sys2Proof.Machine.execStw d a imm s
  | .std d a imm => Sys2Proof.Machine.execStd d a imm s
  | .lddW d a imm => Sys2Proof.Machine.execLddW d a imm s
  | .lddWc d a imm => Sys2Proof.Machine.execLddWc d a imm s
  | .lddT d a imm => Sys2Proof.Machine.execLddT d a imm s
  | .lddTc d a imm => Sys2Proof.Machine.execLddTc d a imm s
  | .fetest d a imm => Sys2Proof.Machine.execFetest d a imm s
  | .stdF d a imm => Sys2Proof.Machine.execStdF d a imm s
  | .stdWf d a imm => Sys2Proof.Machine.execStdWf d a imm s
  | .feset a imm => Sys2Proof.Machine.execFeset a imm s
  | .feclr a imm => Sys2Proof.Machine.execFeclr a imm s
  | .amoAdd o sz d a b => Sys2Proof.Machine.execAmoAdd o sz d a b s
  | .amoAnd o sz d a b => Sys2Proof.Machine.execAmoAnd o sz d a b s
  | .amoOr o sz d a b => Sys2Proof.Machine.execAmoOr o sz d a b s
  | .amoXor o sz d a b => Sys2Proof.Machine.execAmoXor o sz d a b s
  | .amoMin o sz d a b => Sys2Proof.Machine.execAmoMin o sz d a b s
  | .amoMax o sz d a b => Sys2Proof.Machine.execAmoMax o sz d a b s
  | .amoMinn o sz d a b => Sys2Proof.Machine.execAmoMinn o sz d a b s
  | .amoMaxn o sz d a b => Sys2Proof.Machine.execAmoMaxn o sz d a b s
  | .amoSwap o sz d a b => Sys2Proof.Machine.execAmoSwap o sz d a b s
  | .amoCas o sz d a b c => Sys2Proof.Machine.execAmoCas o sz d a b c s
  | .amoFadd o sz d a b => Sys2Proof.Machine.execAmoFadd o sz d a b s
  | .fence sc => Sys2Proof.Machine.execFence sc s
  | .fenceAcq sc => Sys2Proof.Machine.execFenceAcq sc s
  | .fenceRel sc => Sys2Proof.Machine.execFenceRel sc s
  | .fenceEng => Sys2Proof.Machine.execFenceEng s
  | .send cls a p n => Sys2Proof.Machine.execSend cls a p n s
  | .sendx cls a b c => Sys2Proof.Machine.execSendx cls a b c s
  | .sendg cls a p n => Sys2Proof.Machine.execSendg cls a p n s
  | .get a b c => Sys2Proof.Machine.execGet a b c s
  | .getN d a b c => Sys2Proof.Machine.execGetN d a b c s
  | .put a b c => Sys2Proof.Machine.execPut a b c s
  | .putF a b c => Sys2Proof.Machine.execPutF a b c s
  | .putN d a b c => Sys2Proof.Machine.execPutN d a b c s
  | .putFn d a b c => Sys2Proof.Machine.execPutFn d a b c s
  | .carm a b c => Sys2Proof.Machine.execCarm a b c s
  | .cadd d a b => Sys2Proof.Machine.execCadd d a b s
  | .crd d a => Sys2Proof.Machine.execCrd d a s
  | .cdis a => Sys2Proof.Machine.execCdis a s
  | .cinc a b c => Sys2Proof.Machine.execCinc a b c s
  | .msgld d w => Sys2Proof.Machine.execMsgld d w s
  | .msghd d h => Sys2Proof.Machine.execMsghd d h s
  | .msgid d => Sys2Proof.Machine.execMsgid d s
  | .msglen d => Sys2Proof.Machine.execMsglen d s
  | .rresv d a b => Sys2Proof.Machine.execRresv d a b s
  | .rpubl a b c => Sys2Proof.Machine.execRpubl a b c s
  | .rhead d a => Sys2Proof.Machine.execRhead d a s
  | .rcons a b => Sys2Proof.Machine.execRcons a b s
  | .fadd p r d a b => Sys2Proof.Machine.execFadd p r d a b s
  | .fsub p r d a b => Sys2Proof.Machine.execFsub p r d a b s
  | .fmul p r d a b => Sys2Proof.Machine.execFmul p r d a b s
  | .fdiv p r d a b => Sys2Proof.Machine.execFdiv p r d a b s
  | .fsqrt p r d a => Sys2Proof.Machine.execFsqrt p r d a s
  | .fmin p d a b => Sys2Proof.Machine.execFmin p d a b s
  | .fmax p d a b => Sys2Proof.Machine.execFmax p d a b s
  | .fabs p d a => Sys2Proof.Machine.execFabs p d a s
  | .fneg p d a => Sys2Proof.Machine.execFneg p d a s
  | .fcpys p d a b => Sys2Proof.Machine.execFcpys p d a b s
  | .ffma p r d a b c => Sys2Proof.Machine.execFfma p r d a b c s
  | .ffms p r d a b c => Sys2Proof.Machine.execFfms p r d a b c s
  | .fnfma p r d a b c => Sys2Proof.Machine.execFnfma p r d a b c s
  | .fnfms p r d a b c => Sys2Proof.Machine.execFnfms p r d a b c s
  | .feq p d a b => Sys2Proof.Machine.execFeq p d a b s
  | .flt p d a b => Sys2Proof.Machine.execFlt p d a b s
  | .fle p d a b => Sys2Proof.Machine.execFle p d a b s
  | .fun p d a b => Sys2Proof.Machine.execFun p d a b s
  | .fclass p d a => Sys2Proof.Machine.execFclass p d a s
  | .fcvtp p r d a => Sys2Proof.Machine.execFcvtp p r d a s
  | .ftos p r d a => Sys2Proof.Machine.execFtos p r d a s
  | .fton p r d a => Sys2Proof.Machine.execFton p r d a s
  | .stof p r d a => Sys2Proof.Machine.execStof p r d a s
  | .ntof p r d a => Sys2Proof.Machine.execNtof p r d a s
  | .frint p r d a => Sys2Proof.Machine.execFrint p r d a s
  | .vadd t z d a b k => Sys2Proof.Machine.execVadd t z d a b k s
  | .vsub t z d a b k => Sys2Proof.Machine.execVsub t z d a b k s
  | .vmul t z d a b k => Sys2Proof.Machine.execVmul t z d a b k s
  | .vmin t z d a b k => Sys2Proof.Machine.execVmin t z d a b k s
  | .vmax t z d a b k => Sys2Proof.Machine.execVmax t z d a b k s
  | .vabs t z d a k => Sys2Proof.Machine.execVabs t z d a k s
  | .vneg t z d a k => Sys2Proof.Machine.execVneg t z d a k s
  | .vadds t z d a b k => Sys2Proof.Machine.execVadds t z d a b k s
  | .vsubs t z d a b k => Sys2Proof.Machine.execVsubs t z d a b k s
  | .vmulh t z d a b k => Sys2Proof.Machine.execVmulh t z d a b k s
  | .vdiv t z d a b k => Sys2Proof.Machine.execVdiv t z d a b k s
  | .vsqrt t z d a k => Sys2Proof.Machine.execVsqrt t z d a k s
  | .vavg t z d a b k => Sys2Proof.Machine.execVavg t z d a b k s
  | .vfma t z d a b k => Sys2Proof.Machine.execVfma t z d a b k s
  | .vfms t z d a b k => Sys2Proof.Machine.execVfms t z d a b k s
  | .vnfma t z d a b k => Sys2Proof.Machine.execVnfma t z d a b k s
  | .vmac t z d a b k => Sys2Proof.Machine.execVmac t z d a b k s
  | .vdot2 t z d a b k => Sys2Proof.Machine.execVdot2 t z d a b k s
  | .vdot4 t z d a b k => Sys2Proof.Machine.execVdot4 t z d a b k s
  | .vdot4i t z d a b k => Sys2Proof.Machine.execVdot4i t z d a b k s
  | .vand t z d a b k => Sys2Proof.Machine.execVand t z d a b k s
  | .vor t z d a b k => Sys2Proof.Machine.execVor t z d a b k s
  | .vxor t z d a b k => Sys2Proof.Machine.execVxor t z d a b k s
  | .vandn t z d a b k => Sys2Proof.Machine.execVandn t z d a b k s
  | .vshl t z d a b k => Sys2Proof.Machine.execVshl t z d a b k s
  | .vshr t z d a b k => Sys2Proof.Machine.execVshr t z d a b k s
  | .vsar t z d a b k => Sys2Proof.Machine.execVsar t z d a b k s
  | .vrol t z d a b k => Sys2Proof.Machine.execVrol t z d a b k s
  | .vnot t z d a k => Sys2Proof.Machine.execVnot t z d a k s
  | .vcmpEq t d a b k => Sys2Proof.Machine.execVcmpEq t d a b k s
  | .vcmpNe t d a b k => Sys2Proof.Machine.execVcmpNe t d a b k s
  | .vcmpLt t d a b k => Sys2Proof.Machine.execVcmpLt t d a b k s
  | .vcmpLe t d a b k => Sys2Proof.Machine.execVcmpLe t d a b k s
  | .vcmpGt t d a b k => Sys2Proof.Machine.execVcmpGt t d a b k s
  | .vcmpGe t d a b k => Sys2Proof.Machine.execVcmpGe t d a b k s
  | .vcmpUn t d a b k => Sys2Proof.Machine.execVcmpUn t d a b k s
  | .vbcast t z d a k => Sys2Proof.Machine.execVbcast t z d a k s
  | .vperm t z d a b k => Sys2Proof.Machine.execVperm t z d a b k s
  | .vsel t d a b k => Sys2Proof.Machine.execVsel t d a b k s
  | .vext t d a b => Sys2Proof.Machine.execVext t d a b s
  | .vins t d a b => Sys2Proof.Machine.execVins t d a b s
  | .vzipl t z d a b k => Sys2Proof.Machine.execVzipl t z d a b k s
  | .vziph t z d a b k => Sys2Proof.Machine.execVziph t z d a b k s
  | .vuzpe t z d a b k => Sys2Proof.Machine.execVuzpe t z d a b k s
  | .vuzpo t z d a b k => Sys2Proof.Machine.execVuzpo t z d a b k s
  | .viota t z d k => Sys2Proof.Machine.execViota t z d k s
  | .vcmprs t z d a k => Sys2Proof.Machine.execVcmprs t z d a k s
  | .vsldn t z d a b k => Sys2Proof.Machine.execVsldn t z d a b k s
  | .vcvt hi sat r t src z k d a => Sys2Proof.Machine.execVcvt hi sat r t src z k d a s
  | .vrsum t d a k => Sys2Proof.Machine.execVrsum t d a k s
  | .vrsumt t d a k => Sys2Proof.Machine.execVrsumt t d a k s
  | .vrmin t d a k => Sys2Proof.Machine.execVrmin t d a k s
  | .vrmax t d a k => Sys2Proof.Machine.execVrmax t d a k s
  | .vrand t d a k => Sys2Proof.Machine.execVrand t d a k s
  | .vror t d a k => Sys2Proof.Machine.execVror t d a k s
  | .vrxor t d a k => Sys2Proof.Machine.execVrxor t d a k s
  | .vld d a imm => Sys2Proof.Machine.execVld d a imm s
  | .vldW d a imm => Sys2Proof.Machine.execVldW d a imm s
  | .vldb d a imm => Sys2Proof.Machine.execVldb d a imm s
  | .vst d a imm => Sys2Proof.Machine.execVst d a imm s
  | .vstF d a imm => Sys2Proof.Machine.execVstF d a imm s
  | .vgath t z d a b k => Sys2Proof.Machine.execVgath t z d a b k s
  | .vscat t d a b k => Sys2Proof.Machine.execVscat t d a b k s
  | .vscata t d a b k => Sys2Proof.Machine.execVscata t d a b k s
  | .vldt t z d a b k => Sys2Proof.Machine.execVldt t z d a b k s
  | .vstq t sr d a b => Sys2Proof.Machine.execVstq t sr d a b s
  | .kand d a b => Sys2Proof.Machine.execKand d a b s
  | .kor d a b => Sys2Proof.Machine.execKor d a b s
  | .kxor d a b => Sys2Proof.Machine.execKxor d a b s
  | .kandn d a b => Sys2Proof.Machine.execKandn d a b s
  | .knot d a => Sys2Proof.Machine.execKnot d a s
  | .kfromg d a => Sys2Proof.Machine.execKfromg d a s
  | .ktog d a => Sys2Proof.Machine.execKtog d a s
  | .kpopc d a => Sys2Proof.Machine.execKpopc d a s
  | .kfirst d a => Sys2Proof.Machine.execKfirst d a s
  | .mpost d a => Sys2Proof.Machine.execMpost d a s
  | .mseq d => Sys2Proof.Machine.execMseq d s
  | .mwait a => Sys2Proof.Machine.execMwait a s
  | .mstat d a => Sys2Proof.Machine.execMstat d a s
  | .cpost d a => Sys2Proof.Machine.execCpost d a s
  | .cseq d => Sys2Proof.Machine.execCseq d s
  | .cwait a => Sys2Proof.Machine.execCwait a s
  | .cstat d a => Sys2Proof.Machine.execCstat d a s
  | .txbeg d a => Sys2Proof.Machine.execTxbeg d a s
  | .txcommit d => Sys2Proof.Machine.execTxcommit d s
  | .txend d => Sys2Proof.Machine.execTxend d s
  | .lkacq d a b => Sys2Proof.Machine.execLkacq d a b s
  | .lkacqm d a b c => Sys2Proof.Machine.execLkacqm d a b c s
  | .lktry d a b => Sys2Proof.Machine.execLktry d a b s
  | .lkcvt d a b => Sys2Proof.Machine.execLkcvt d a b s
  | .lkrel d a => Sys2Proof.Machine.execLkrel d a s
  | .lkmat d a => Sys2Proof.Machine.execLkmat d a s
  | .lease d a b => Sys2Proof.Machine.execLease d a b s
  | .leaser d a => Sys2Proof.Machine.execLeaser d a s
  | .lkqry d a b => Sys2Proof.Machine.execLkqry d a b s
  | .snap d => Sys2Proof.Machine.execSnap d s
  | .snapq d a => Sys2Proof.Machine.execSnapq d a s
  | .resumeq d => Sys2Proof.Machine.execResumeq d s
  | .trig => Sys2Proof.Machine.execTrig s
  | .time d => Sys2Proof.Machine.execTime d s
  | .cycle d => Sys2Proof.Machine.execCycle d s
  | .xinv a b => Sys2Proof.Machine.execXinv a b s
  | .inject a b => Sys2Proof.Machine.execInject a b s
  | .xinvComplete t c => Sys2Proof.Machine.execXinvComplete t c s
  | .routerCycle => Sys2Proof.Machine.execRouterCycle s
  | .handlerMessageArrival t => Sys2Proof.Machine.execHandlerMessageArrival t s
  | .localArrivalRetry t => Sys2Proof.Machine.execLocalArrivalRetry t s
  | .galleryRecordRead t => Sys2Proof.Machine.execGalleryRecordRead t s
  | .dispatch t => Sys2Proof.Machine.execDispatch t s
  | .hlimitExpiry t c => Sys2Proof.Machine.execHlimitExpiry t c s
  | .ageReport t p => Sys2Proof.Machine.execAgeReport t p s
  | .xlateResolution => Sys2Proof.Machine.execXlateResolution s
  | .getRequest n => Sys2Proof.Machine.execGetRequest n s
  | .putRequest n => Sys2Proof.Machine.execPutRequest n s
  | .atomicRequest n => Sys2Proof.Machine.execAtomicRequest n s
  | .ringRequest n => Sys2Proof.Machine.execRingRequest n s
  | .counterIncrement t => Sys2Proof.Machine.execCounterIncrement t s
  | .replyData t => Sys2Proof.Machine.execReplyData t s
  | .replyStatus t => Sys2Proof.Machine.execReplyStatus t s
  | .forwardedFlit t => Sys2Proof.Machine.execForwardedFlit t s
  | .commitRoomWaitEnd t c => Sys2Proof.Machine.execCommitRoomWaitEnd t c s
  | .counterActionLaunch t => Sys2Proof.Machine.execCounterActionLaunch t s
  | .counterActionMpost t => Sys2Proof.Machine.execCounterActionMpost t s
  | .counterActionCpost t => Sys2Proof.Machine.execCounterActionCpost t s
  | .counterActionSend t => Sys2Proof.Machine.execCounterActionSend t s
  | .counterActionSetfull t => Sys2Proof.Machine.execCounterActionSetfull t s
  | .heldUpdateApply t => Sys2Proof.Machine.execHeldUpdateApply t s
  | .mmaBf16 t => Sys2Proof.Machine.execMmaBf16 t s
  | .mmaF16 t => Sys2Proof.Machine.execMmaF16 t s
  | .mmaE4m3 t => Sys2Proof.Machine.execMmaE4m3 t s
  | .mmaE5m2 t => Sys2Proof.Machine.execMmaE5m2 t s
  | .mmaE4e5 t => Sys2Proof.Machine.execMmaE4e5 t s
  | .mmaMxf4 t => Sys2Proof.Machine.execMmaMxf4 t s
  | .mmaQ4o t => Sys2Proof.Machine.execMmaQ4o t s
  | .mmaF32 t => Sys2Proof.Machine.execMmaF32 t s
  | .mmaF64 t => Sys2Proof.Machine.execMmaF64 t s
  | .mmaSpBf16 t => Sys2Proof.Machine.execMmaSpBf16 t s
  | .mmaSpE4m3 t => Sys2Proof.Machine.execMmaSpE4m3 t s
  | .aclr t => Sys2Proof.Machine.execAclr t s
  | .aload t => Sys2Proof.Machine.execAload t s
  | .astore t => Sys2Proof.Machine.execAstore t s
  | .aadd t => Sys2Proof.Machine.execAadd t s
  | .mark t => Sys2Proof.Machine.execMark t s
  | .matrixCommandComplete t => Sys2Proof.Machine.execMatrixCommandComplete t s
  | .copy1d t n => Sys2Proof.Machine.execCopy1d t n s
  | .copy2d t n => Sys2Proof.Machine.execCopy2d t n s
  | .fill t n => Sys2Proof.Machine.execFill t n s
  | .gatherrows t n => Sys2Proof.Machine.execGatherrows t n s
  | .scatterrows t n => Sys2Proof.Machine.execScatterrows t n s
  | .copyCommandComplete t n => Sys2Proof.Machine.execCopyCommandComplete t n s
  | .leaveGrant die => Sys2Proof.Machine.execLeaveGrant die s
  | .governorPowerCheck die dieMw pkgMw => Sys2Proof.Machine.execGovernorPowerCheck die dieMw pkgMw s
  | .lockAcquireRequest die => Sys2Proof.Machine.execLockAcquireRequest die s
  | .lockConvertRequest die => Sys2Proof.Machine.execLockConvertRequest die s
  | .lockReleaseRequest die => Sys2Proof.Machine.execLockReleaseRequest die s
  | .lockCancelRequest die => Sys2Proof.Machine.execLockCancelRequest die s
  | .lockGrantArrival t => Sys2Proof.Machine.execLockGrantArrival t s
  | .woundArrival t => Sys2Proof.Machine.execWoundArrival t s
  | .woundgraceExpiry t slot => Sys2Proof.Machine.execWoundgraceExpiry t slot s
  | .txendConfirm t c => Sys2Proof.Machine.execTxendConfirm t c s
  | .lkmatComplete t c => Sys2Proof.Machine.execLkmatComplete t c s
  | .leaseRequest die => Sys2Proof.Machine.execLeaseRequest die s
  | .leaseRecall die => Sys2Proof.Machine.execLeaseRecall die s
  | .leaseReleaseAtHome die => Sys2Proof.Machine.execLeaseReleaseAtHome die s
  | .migratetile q => Sys2Proof.Machine.execMigratetile q s
  | .migrationStream => Sys2Proof.Machine.execMigrationStream s
  | .migrationRemap => Sys2Proof.Machine.execMigrationRemap s
  | .migrationResume => Sys2Proof.Machine.execMigrationResume s
  | .forwardingEntryRetire r => Sys2Proof.Machine.execForwardingEntryRetire r s
  | .snapshotMarker n => Sys2Proof.Machine.execSnapshotMarker n s
  | .backgroundBlockCopy t => Sys2Proof.Machine.execBackgroundBlockCopy t s
  | .snapshotCountReport n => Sys2Proof.Machine.execSnapshotCountReport n s
  | .snapshotDrain grp => Sys2Proof.Machine.execSnapshotDrain grp s
  | .snapqAnswer => Sys2Proof.Machine.execSnapqAnswer s
  | .rollbackStep => Sys2Proof.Machine.execRollbackStep s
  | .sealComplete pid => Sys2Proof.Machine.execSealComplete pid s
  | .packageLoss p => Sys2Proof.Machine.execPackageLoss p s
  | .doorbell q => Sys2Proof.Machine.execDoorbell q s
  | .reconcilePass q => Sys2Proof.Machine.execReconcilePass q s
  | .loadjob q => Sys2Proof.Machine.execLoadjob q s
  | .unloadjob q => Sys2Proof.Machine.execUnloadjob q s
  | .unloadjobKeep q => Sys2Proof.Machine.execUnloadjobKeep q s
  | .launch q => Sys2Proof.Machine.execLaunch q s
  | .waittag q => Sys2Proof.Machine.execWaittag q s
  | .signal q => Sys2Proof.Machine.execSignal q s
  | .snapshot q => Sys2Proof.Machine.execSnapshot q s
  | .rollbackLocal q => Sys2Proof.Machine.execRollbackLocal q s
  | .rollbackRemote q => Sys2Proof.Machine.execRollbackRemote q s
  | .rollbackParked q => Sys2Proof.Machine.execRollbackParked q s
  | .rollbackDiscard q => Sys2Proof.Machine.execRollbackDiscard q s
  | .partitionCreate q => Sys2Proof.Machine.execPartitionCreate q s
  | .partitionDestroy q => Sys2Proof.Machine.execPartitionDestroy q s
  | .createq q => Sys2Proof.Machine.execCreateq q s
  | .destroyq q => Sys2Proof.Machine.execDestroyq q s
  | .attest q => Sys2Proof.Machine.execAttest q s
  | .injecterr q => Sys2Proof.Machine.execInjecterr q s
  | .launchSweep pid => Sys2Proof.Machine.execLaunchSweep pid s
  | .trigArrival => Sys2Proof.Machine.execTrigArrival s
  | .hostinRecord mailbox rec => Sys2Proof.Machine.execHostinRecord mailbox rec s
  | .egressDelivery => Sys2Proof.Machine.execEgressDelivery s
  | .linkFrameReceive port frame => Sys2Proof.Machine.execLinkFrameReceive port frame s
  | .frameAck port ack => Sys2Proof.Machine.execFrameAck port ack s
  | .frameRetryTimeout port => Sys2Proof.Machine.execFrameRetryTimeout port s
  | .laneRetire port out => Sys2Proof.Machine.execLaneRetire port out s
  | .portDownSequenceReply port seq => Sys2Proof.Machine.execPortDownSequenceReply port seq s
  | .routeTableUpdate entries => Sys2Proof.Machine.execRouteTableUpdate entries s
  | .laneTurnaround port toOut => Sys2Proof.Machine.execLaneTurnaround port toOut s
  | .laneRecalibration port out result => Sys2Proof.Machine.execLaneRecalibration port out result s
  | .telemetrySample dieMw dieMilliC => Sys2Proof.Machine.execTelemetrySample dieMw dieMilliC s
  | .hbmPatrolScrub pa => Sys2Proof.Machine.execHbmPatrolScrub pa s
  | .sramScrub t off => Sys2Proof.Machine.execSramScrub t off s
  | .thermalLimit die => Sys2Proof.Machine.execThermalLimit die s
  | .powerRemoval => Sys2Proof.Machine.execPowerRemoval s
  | .deviceReset boot => Sys2Proof.Machine.execDeviceReset boot s
  | .illegalInstruction insn => Sys2Proof.Machine.execIllegalInstruction insn s
  | .fetchFault at_ unmapped => Sys2Proof.Machine.execFetchFault at_ unmapped s
  | .softError key correctable => Sys2Proof.Machine.execSoftError key correctable s
  | .hostWrite pa bytes => Sys2Proof.Machine.execHostWrite pa bytes s
  | .egressRingConsumed q n => Sys2Proof.Machine.execEgressRingConsumed q n s
  | .thermalLimitCleared die => Sys2Proof.Machine.execThermalLimitCleared die s
  | .portTrained port peer txl rxl => Sys2Proof.Machine.execPortTrained port peer txl rxl s

end Sys2Proof.Machine
end

