-- ==== Sys2Proof/Machine/Schedule.lean ====
section
/-! DEFINITION. The order in which one core cycle runs the instructions of the tiles and the events of the package. The spec leaves this
order open (05 R78, 27 R341, 25 R324) but for the Landing's (R74, R75); log entry 4 gives the one this model takes. -/

namespace Sys2Proof.Machine

/-! ### Events that are due -/

/-- Events of one kind that are due, by a number that orders them and is below `kindRoom`. -/
abbrev Due := List (Nat × Instr)

def kindRoom : Nat := 0x10000

/-- The events of a kind for tiles that meet `p`. -/
def forTiles (p : State → Nat → Bool) (i : Nat → Instr) (s : State) : Due :=
  (s.tiles.filter fun e => p s e.1).map fun e => (e.1, i e.1)

/-- The events of a kind for contexts that meet `p`. -/
def forCtxs (p : State → Nat → Nat → Bool) (i : Nat → Nat → Instr) (s : State) : Due :=
  s.tiles.flatMap fun e => ([0, 1, 2, 3, 4, 5, 6, 7].filter fun c => p s e.1 c).map fun c => (8 * e.1 + c, i e.1 c)

/-- The events of a kind for work queues that meet `p`. -/
def forQueues (p : State → Nat → Bool) (i : Nat → Instr) (s : State) : Due :=
  (s.vest.queues.filter fun e => p s e.1).map fun e => (e.1, i e.1)

/-- The events of a kind for partitions that meet `p`. -/
def forParts (p : State → Nat → Bool) (i : Nat → Instr) (s : State) : Due :=
  (s.vest.parts.filter fun e => p s e.1).map fun e => (e.1, i e.1)

/-- An event of a kind that names nothing. -/
def whenDue (p : State → Bool) (i : Instr) (s : State) : Due := if p s then [(0, i)] else []

/-- The event of the matrix command at the front of a chain. -/
noncomputable def matrixEvent (t : Nat) (k : Cmd) : Option Instr :=
  match recOp k.record with
  | 0x01 => some (.mmaBf16 t) | 0x02 => some (.mmaF16 t) | 0x03 => some (.mmaE4m3 t) | 0x04 => some (.mmaE5m2 t)
  | 0x05 => some (.mmaE4e5 t) | 0x06 => some (.mmaMxf4 t) | 0x07 => some (.mmaQ4o t) | 0x08 => some (.mmaF32 t)
  | 0x09 => some (.mmaF64 t) | 0x0A => some (.mmaSpBf16 t) | 0x0B => some (.mmaSpE4m3 t) | 0x10 => some (.aclr t)
  | 0x11 => some (.aload t) | 0x12 => some (.astore t) | 0x13 => some (.aadd t) | 0x20 => some (.mark t)
  | _ => none

/-- The event of a copy command. -/
noncomputable def copyEvent (t : Nat) (k : Cmd) : Option Instr :=
  match recOp k.record with
  | 1 => some (.copy1d t k.seq) | 2 => some (.copy2d t k.seq) | 3 => some (.fill t k.seq)
  | 4 => some (.gatherrows t k.seq) | 5 => some (.scatterrows t k.seq)
  | _ => none

/-- Matrix commands that can go on. -/
noncomputable def matrixDue (s : State) : Due :=
  s.tiles.filterMap fun e => (e.2.matrix.cmds.head?.bind fun k =>
    if (s.frontCmd e.1 (recOp k.record)).isSome then matrixEvent e.1 k else none).map fun i => (e.1, i)

/-- Copy commands that can go on. -/
noncomputable def copyDue (s : State) : Due :=
  s.tiles.flatMap fun e => ((e.2.copy.cmds.mapIdx fun i k => (i, k)).filterMap fun p =>
    if (s.copyCmd e.1 p.2.seq (recOp p.2.record)).isSome then (copyEvent e.1 p.2).map fun i => (48 * e.1 + p.1, i) else none)

/-- Copy commands that can complete. -/
noncomputable def copyDoneDue (s : State) : Due :=
  s.tiles.flatMap fun e => ((e.2.copy.cmds.mapIdx fun i k => (i, k)).filterMap fun p =>
    if (s.copyDone e.1 p.2.seq).isSome then some (48 * e.1 + p.1, Instr.copyCommandComplete e.1 p.2.seq) else none)

/-- Wounded transactions whose grace is over. -/
noncomputable def graceDue (s : State) : Due :=
  s.tiles.flatMap fun e => (e.2.locks.txs.filter fun x => (s.graceOver e.1 x.1).isSome).map fun x => (e.1, Instr.woundgraceExpiry e.1 x.1)

/-- Whether every node has confirmed a partition's seal: not in the core cycle of the seal, whose instructions still issue (R294). -/
def State.sealDue (s : State) (pid : Nat) : Bool :=
  s.vest.seals.any (fun c => c.pid == pid) && (s.part pid).all fun p => p.sealedAt != s.cycle

/-- Queue heads due for an AGE report. -/
noncomputable def ageReportDue (s : State) : Due :=
  s.tiles.flatMap fun e => ([0, 1, 2, 3].filter fun p => (s.ageDue e.1 p).isSome).map fun p => (4 * e.1 + p, Instr.ageReport e.1 p)

/-- Nodes whose figures a running snapshot waits for. -/
noncomputable def countDue (s : State) : Due :=
  (((s.vest.groups.filter fun g => g.running.isSome).flatMap fun g => s.groupNodes g.id).filter fun n => (s.reportDue n).isSome).map
    fun n => (n, Instr.snapshotCountReport n)

/-- Snapshots to be drained: not while their group is rolled back. -/
noncomputable def drainDue (s : State) : Due :=
  (s.vest.groups.filter fun g => g.toDrain.isSome && !s.rolling (some g.id)).map fun g => (0, Instr.snapshotDrain g.id)

/-- Routers with idle forwarding entries. -/
noncomputable def retireDue (s : State) : Due :=
  (s.fabric.forwards.filter fun w => s.forwardIdle w).map fun w => (w.router, Instr.forwardingEntryRetire w.router)

/-- Dies whose governor can grant leave. -/
noncomputable def leaveDue (s : State) : Due :=
  ([0, 1, 2, 3].filter fun d => (s.leaveHead d).isSome).map fun d => (d, Instr.leaveGrant d)

/-- Ports whose lanes firmware turns, or whose turnaround ends. -/
noncomputable def turnDues (s : State) : Due :=
  ([1, 2, 3, 4, 5, 6].filterMap fun p => ((s.getPort p).turnDue s.cycle).map fun d => (p, Instr.laneTurnaround p d))

/-- Ports whose lanes leave for recalibration or come back. -/
noncomputable def calDues (s : State) : Due :=
  [0, 1, 2, 3, 4, 5, 6].flatMap fun p => [(0, true), (1, false)].filterMap fun o =>
    ((s.getPort p).calDue p o.2 s.cycle).map fun r => (2 * p + o.1, Instr.laneRecalibration p o.2 r)

/-- Telemetry, every 2^21 fabric cycles, and power checks, every 2^10 (R353, R354), with what the sensors read then. -/
def telemetryPeriod : Nat := 0x400000
def powerPeriod : Nat := 0x800
noncomputable def telemetryDue (s : State) : Due :=
  whenDue (fun s => s.cycle % telemetryPeriod == telemetryPeriod - 1)
    (.telemetrySample ([0, 1, 2, 3].map (Config.diePower s.cycle)) ([0, 1, 2, 3].map (Config.dieHeat s.cycle))) s
noncomputable def powerDue (s : State) : Due :=
  if s.cycle % powerPeriod = powerPeriod - 1 then
    [0, 1, 2, 3].map fun d => (d, Instr.governorPowerCheck d (Config.diePower s.cycle d) (Config.packagePower s.cycle))
  else []

/-- The patrol scrub reads the 64-byte lines of HBM in order, one in so many core cycles that a pass takes an hour (R354). -/
def patrolPeriod : Nat := 1341
noncomputable def patrolDue (s : State) : Due :=
  whenDue (fun s => s.cycle % patrolPeriod == patrolPeriod - 1) (.hbmPatrolScrub (s.cycle / patrolPeriod * 64 % Config.hbmBytes)) s

/-- The granule of a tile's pool that the SRAM scrub reads now: one in 2^(10 + SCRDIV) core cycles, in order, where SCRUB is set (R354,
R355). -/
def Tile.scrubNow (x : Tile) (cycle : Nat) : Option Nat :=
  let period := 2 ^ (10 + x.regs.scrdiv.toNat)
  if x.regs.scrub ∧ cycle % period = period - 1 then some (cycle / period * 16 % Config.poolBytes) else none
noncomputable def sramDue (s : State) : Due :=
  if s.cycle % 1024 = 1023 then
    (List.range Config.tiles).filterMap fun t => ((s.getTile t).scrubNow s.cycle).map fun off => (t, Instr.sramScrub t off)
  else []

/-- A command event of the Vestibule. -/
def forCommand (c : VCmd) (ready : State → Pkt → Bool) (fin : State → Pkt → Packet → Option (Nat × Nat)) (i : Nat → Instr) : State → Due :=
  forQueues (fun s n => s.commandDue n c ready fin) i

/-- Core cycles between sweeps of a partition's tags (R94 gives no rate) and between reconcile passes (R321). -/
def sweepPeriod : Nat := 0x100
def reconcilePeriod : Nat := 0x200000

/-- The kinds of events in the order in which a core cycle goes through them: those that may end a handler, and so free a slot, before the
arrivals (R75), ejections before local arrivals (R74). -/
noncomputable def kinds : List (State → Due) :=
  [ forCtxs (fun s t c => s.hlimitDue t c) .hlimitExpiry,
    forCtxs (fun s t c => (s.roomEnded t c).isSome) .commitRoomWaitEnd,
    whenDue (fun s => s.nextXlate.isSome) .xlateResolution,
    whenDue (fun s => s.vest.migs.any fun m => m.phase == 3) .migrationResume,
    whenDue (fun s => s.fabric.last != s.cycle / 2 + 1) .routerCycle,
    forTiles (fun s t => s.retryDue t) .localArrivalRetry,
    forTiles (fun s t => (s.getTile t).land.unreadHead.isSome) .galleryRecordRead,
    forTiles (fun s t => s.heldDue t) .heldUpdateApply,
    forTiles (fun s t => (s.actionDue t 1).isSome) .counterActionLaunch,
    forTiles (fun s t => (s.actionDue t 2).isSome) .counterActionMpost,
    forTiles (fun s t => (s.actionDue t 3).isSome) .counterActionCpost,
    forTiles (fun s t => (s.actionDue t 4).isSome) .counterActionSend,
    forTiles (fun s t => (s.actionDue t 5).isSome) .counterActionSetfull,
    matrixDue,
    forTiles (fun s t => (s.matrixDone t).isSome) .matrixCommandComplete,
    copyDue,
    copyDoneDue,
    leaveDue,
    forCtxs (fun s t c => (s.locksDone t c .txend).isSome) .txendConfirm,
    forCtxs (fun s t c => (s.locksDone t c .matrix).isSome) .lkmatComplete,
    forCtxs (fun s t c => s.xinvDone t c) .xinvComplete,
    graceDue,
    ageReportDue,
    forTiles (fun s t => (s.nextDispatch t).isSome) .dispatch,
    forTiles (fun s t => !(s.getTile t).uncop.isEmpty && (s.groupOfTile t).isSome) .backgroundBlockCopy,
    whenDue (fun s => s.snapqNext.isSome) .snapqAnswer,
    countDue,
    drainDue,
    whenDue (fun s => (s.migRest.or s.migBegin).isSome) .migrationStream,
    whenDue (fun s => s.vest.migs.any fun m => m.phase == 2) .migrationRemap,
    retireDue,
    forParts (fun s p => s.sealDue p) .sealComplete,
    whenDue (fun s => s.rollNext.isSome) .rollbackStep,
    whenDue (fun s => s.egressNext.isSome) .egressDelivery,
    forParts (fun s p => s.timerDue (false, p) (s.cycle % sweepPeriod == 0)) .launchSweep,
    forQueues (fun s n => s.timerDue (true, n) (s.cycle % reconcilePeriod == reconcilePeriod - 1)) .reconcilePass,
    forQueues (fun s n => s.vest.tokens.any (fun t => t.1 == n) || s.headFaulty n) .doorbell,
    forCommand .loadjob State.rollsOver noEnd .loadjob,
    forCommand .unloadjob State.rollsOver State.unloadEnd .unloadjob,
    forCommand .unloadKeep State.rollsOver State.keepEnd .unloadjobKeep,
    forCommand .launch State.launchReady noEnd .launch,
    forCommand .waittag always State.waitEnd .waittag,
    forCommand .signal always noEnd .signal,
    forCommand .snapshot always State.snapshotEnd .snapshot,
    forCommand .rollLocal State.rollReady State.rollEnd .rollbackLocal,
    forCommand .rollRemote State.rollReady State.rollEnd .rollbackRemote,
    forCommand .rollParked always State.rollEnd .rollbackParked,
    forCommand .rollDiscard always noEnd .rollbackDiscard,
    forCommand .migrate always State.migrateEnd .migratetile,
    forCommand .partCreate always noEnd .partitionCreate,
    forCommand .partDestroy always noEnd .partitionDestroy,
    forCommand .createq always noEnd .createq,
    forCommand .destroyq always noEnd .destroyq,
    forCommand .attest always noEnd .attest,
    forCommand .injecterr always State.injectEnd .injecterr,
    turnDues, calDues, telemetryDue, powerDue, patrolDue, sramDue ]

/-- The first event of a kind numbered `lo` or above. -/
def firstDue (lo : Nat) (l : Due) : Option (Nat × Instr) :=
  l.foldl (fun b e => if e.1 < lo then b else match b with
    | some x => if e.1 < x.1 then some e else b
    | none => some e) none

/-- The next event from a position on: the kinds from `k` on, the first of them from number `lo` on. -/
def nextFrom (s : State) (k lo : Nat) : List (State → Due) → Option (Nat × Instr)
  | [] => none
  | f :: fs =>
    match firstDue lo (f s) with
    | some e => some (kindRoom * k + e.1, e.2)
    | none => nextFrom s (k + 1) 0 fs

/-- The event a core cycle runs next, with its position. -/
noncomputable def State.nextEvent (s : State) : Option (Nat × Instr) :=
  nextFrom s (s.evPos / kindRoom) (s.evPos % kindRoom) (kinds.drop (s.evPos / kindRoom))

/-! ### Issue (R178, R188) -/

/-- Whether the condition a context waits for holds. -/
def State.condHolds (s : State) (t c : Nat) : Cond → Bool
  | .requests n => (s.getTile t).roomFor c n
  | .granules gs => !(s.getTile t).granuleBusy c gs
  | .ends gs => !(s.getTile t).endsBusy c gs
  | .leases keys => s.readConflicts t keys == []
  | .reads => (s.getTile t).readTags c == []
  | .drained => (s.getTile t).outTags c == []
  | .actions => (s.getTile t).cnt.hasRoom
  | .added cid => !(s.getTile t).cnt.addHeld c cid
  | .engine matrix n => n ≤ ((s.getTile t).engine matrix).done
  | .postRoom matrix => ((s.getTile t).engine matrix).hasRoom matrix
  | .ownPosts => (s.getCtx t c).posts.all (s.getTile t).postDone
  | .undone name => !(s.getTile t).locks.undoing name

/-- Whether a context can issue: it is ready, and not in the cycle of its dispatch (R79), or what it waits for has come about. -/
def State.canIssue (s : State) (t c : Nat) : Bool :=
  match (s.getCtx t c).run with
  | .ready => (s.getCtx t c).avail ≤ s.cycle
  | .wait (.cond w) => s.condHolds t c w
  | _ => false

/-- Whether a tile issues: it acts for its job, or a fault has sealed its partition in this very core cycle, whose instructions are all
issued (R294); what they have to send or report leaves no more (R289). -/
def State.tileIssues (s : State) (t : Nat) : Bool :=
  match s.partOf t with
  | some (_, p) => !(s.getTile t).frozen && (!p.sealed_ || (p.fault && !p.leaving && p.sealedAt == s.cycle))
  | none => !(s.getTile t).frozen

/-- The context a tile issues from: the first in issue order that can. -/
def State.issuer (s : State) (t : Nat) : Option Nat :=
  if s.tileIssues t then (s.getTile t).rot.find? fun c => s.canIssue t c else none

/-- The tile and context that issue next in this core cycle, before its events: a tile issues one instruction in it. What a handler's end
frees is thus there for the arrivals of the cycle (R75). -/
def State.nextIssue (s : State) : Option (Nat × Nat) :=
  if s.evPos ≠ 0 then none
  else (s.tiles.filter fun e => s.issued ≤ e.1).findSome? fun e => (s.issuer e.1).map fun c => (e.1, c)

/-- The state in which tile `t` and context `c` execute: the context stands behind the others in the issue rotation. -/
def State.turn (s : State) (t c : Nat) : State :=
  ({ s with tile := t, ctx := c, issued := t + 1 } : State).modTile t fun x => { x with rot := x.rot.filter (· != c) ++ [c] }

/-- The state in which the executing context executes a fetched instruction: the caches hold its translation, and the context is ready. -/
def State.begin_ (s : State) (w len : Nat) : State :=
  (s.touch s.tile s.cur.pc len).modCur fun k => { k with run := .ready, insn := w }

/-- The instruction of a fetched word, by its length. -/
noncomputable def decodeFetched (w len : Nat) : Option Instr := if len = 2 then decode16 (BitVec.ofNat 16 w) else decode32 (BitVec.ofNat 32 w)

/-- MCHECK of a request that completed with uncorrectable data, at the issue of the next instruction (R285): `rest` are further ones, each
of which leads to containment. -/
def State.lateMcheck (s : State) (pc : Addr) (key : Nat) (a : Addr) (rest : List (Addr × Nat × Addr)) : State :=
  rest.foldl (fun x e => x.consumeBad s.tile e.2.1 (s.orphanRecord s.tile s.ctx e.1 (s.msgidOf s.tile s.ctx) (s.dataAddr e.2.1 e.2.2)))
    ((s.modCur fun k => { k with late := [] }).mcheck s.tile s.ctx key a pc (s.insnAt s.tile pc))

/-- What an issue comes to: an instruction to execute in a state, or MCHECK. -/
inductive Issue where
  | run (i : Instr) (s : State)
  | check (s : State)

/-- The places of this package's HBM that a fetch at an address reads: its page walks' and its halfwords' (R121). -/
def State.fetchKeys (s : State) (t : Nat) (pc : Addr) : List Nat :=
  let half := fun (a : Addr) => s.walkKeys t [(a, 2)] ++ (match s.fetchPiece t a with
    | .ok p => if p.pkg = s.pkg ∧ Config.tiles ≤ p.node then [p.key] else []
    | .error _ => [])
  half pc ++ (match s.fetch t pc with
    | .word _ len => if len = 2 then [] else half (pc + 2)
    | .fail a _ | .bad a _ => if a = pc then [] else half (pc + 2))

/-- The issue of tile `s.tile`'s context `s.ctx`. MCHECK of a fetch reports no instruction, as none is known (DESIGN CHOICE, log
entry 71). -/
noncomputable def State.issue (s : State) : Issue :=
  match s.cur.late with
  | (pc, k, a) :: rest => .check (s.lateMcheck pc k a rest)
  | [] =>
    if s.readConflicts s.tile (s.fetchKeys s.tile s.cur.pc) ≠ [] then
      .check ((s.recallFor s.tile (s.fetchKeys s.tile s.cur.pc)).waitFor (.leases (s.fetchKeys s.tile s.cur.pc)))
    else match s.fetch s.tile s.cur.pc with
    | .fail a tr => .run (.fetchFault a (tr.code == 0x05)) s
    | .bad a k => .check (s.mcheck s.tile s.ctx k a s.cur.pc 0)
    | .word w len =>
      match decodeFetched w len with
      | some i => .run i (s.begin_ w len)
      | none => .run (.illegalInstruction w) (s.begin_ w len)

/-- The end of a core cycle (R352). -/
def State.tick (s : State) : State := { s with cycle := s.cycle + 1, evPos := 0, issued := 0 }

end Sys2Proof.Machine
end

