-- ==== Sys2Proof/Machine/Step.lean ====
section
/-! DEFINITION. One step of the machine: an event of the agenda, the issue of one instruction, the next event of the core cycle, or the
end of the core cycle (log entry 4). -/

namespace Sys2Proof.Machine

/-- A step of a package with power and an empty agenda. -/
noncomputable def State.cycleStep (s : State) : Result :=
  match s.nextIssue with
  | some (t, c) =>
    match (s.turn t c).issue with
    | .run i s1 => exec i s1
    | .check s1 => .next s1
  | none =>
    match s.nextEvent with
    | some (pos, i) => exec i { s with evPos := pos + 1 }
    | none => .next s.tick

/-- One step. Without power only a device reset can run (R357). -/
noncomputable def step (s : State) : Host.Outcome State Fault Refusal :=
  match s.agenda with
  | i :: is =>
    match s.power, i with
    | false, .deviceReset boot => exec (.deviceReset boot) { s with agenda := is }
    | false, _ => .fault .noPower
    | true, i => exec i { s with agenda := is }
  | [] => if s.power then s.cycleStep else .fault .noPower

/-- The table entries and the page at which `withFetchWord` puts an instruction: a root table, a level-1 and a level-2 table in the
Vestibule's pages, and a 1 GiB leaf, X, for virtual addresses from 0 on. -/
def benchRoot : Nat := Config.pagePool
def benchCode : Nat := 0x40000000

/-- The state with an instruction where the next step fetches: partition 1 holds tile 0 alone and runs a job without classes, the tile's
page table maps the code, context 0 of the tile is ready at virtual address 0, and the core cycle begins (log entry 4: otherwise a
program is loaded by LOADJOB and started by LAUNCH). -/
def State.withFetchWord (s : State) (_nbits w : Nat) : State :=
  let job : Job :=
    { name := [], jobid := 0, accq := 0, classes := [], snapCap := false, autoroll := false, trapt := 0, srseed := 1, grace := 0, gallery := 0,
      galleryBytes := 0, hostq := [], ranges := [], windows := [], msgs := [], tags := [], lastTag := 0, digest := [], image := [],
      service := none, lost := 0, group := 0, areaAt := 0, area := 0, drain := 0 }
  let part : Partition :=
    { tiles := [0], pkgs := [s.pkg], asid := 1, quota := 0, used := 0, landing := 0, gallery := 0, shares := [], root := benchRoot, lastTag := 0,
      job := some job, sealed_ := false, fault := false, sealedAt := 0, leaving := false, rename := [], absorbed := 0 }
  let tile : Tile :=
    { (Tile.reset.setCtx 0 { Ctx.reset with run := .ready }) with
      regs := { TileRegs.reset with pid := 1, asid := 1, xpkg := BitVec.ofNat 15 s.pkg, xroot := BitVec.ofNat 30 (benchRoot / 1024) } }
  let pte := fun (pa : Nat) (leaf : Bool) => leBytes 8 (s.pte pa leaf false leaf false).toNat
  let s1 : State :=
    { s with
      power := true, agenda := [], evPos := 0, issued := 0, tiles := mput s.tiles 0 tile, bad := []
      dies := s.dies.map fun d => { d with dtu := [] }
      vest := { s.vest with parts := mput (s.vest.parts.filter fun e => !e.2.tiles.contains 0) 1 part } }
  (((s1.write benchRoot (pte (benchRoot + 0x10000) false)).write (benchRoot + 0x10000) (pte (benchRoot + 0x20000) false)).write
    (benchRoot + 0x20000) (pte benchCode true)).write benchCode (leBytes 4 w)

end Sys2Proof.Machine
end

