-- ==== Sys2Proof/Safety.lean ====
section
/-! DEFINITION. What counts as a sound state and as a step that does not stop. -/

namespace Sys2Proof.Machine

/-- Memory is in canonical form: addresses strictly rising, no zero byte listed. -/
abbrev Memory.wf (m : List Host.Cell) : Bool := memWf m

/-- A step that stops the machine with a fault or a refusal. -/
def Stops (o : Host.Outcome State Fault Refusal) : Prop :=
  match o with
  | .next _ => False
  | .fault _ | .refused _ => True

end Sys2Proof.Machine
end

