-- ==== Sys2Proof/Certificates/Slice0/Obligations.lean ====
section
/-! DEFINITION. The statements for the provers. `Sys2Proof.Claims` holds the words they are written in; every `Obligations.<Name>` is one
statement, and its docstring names the rules of spec/ it rests on. -/

namespace Sys2Proof.Claims

open Sys2Proof.Machine

/-! ### Completing -/

/-- A context after an instruction of `len` bytes: it goes on at the next sequential PC, as the loop registers say, and is ready. -/
def goesOn (c : Ctx) (len : Nat) : Ctx := { c.seq len with run := .ready }

/-- A context after a jump to `pc`. -/
def jumps (c : Ctx) (pc : Addr) : Ctx := { c.goto pc with run := .ready }

/-- `i` answers the next state that is `s` but for its running context, which becomes `c`: no other context, no memory, no tile or
special register and nothing outside the tile changes. -/
def Becomes (i : Instr) (s : State) (c : Ctx) : Prop := exec i s = .next (s.setCtx s.tile s.ctx c)

/-- `i` takes the handler-level trap `tr`. -/
def Traps (i : Instr) (s : State) (tr : Trap) : Prop := exec i s = .next (s.trap tr)

/-- 1 or 0. -/
def truth (p : Prop) [Decidable p] : Word := if p then 1 else 0

/-- Bits [31:0] sign-extended to 64 bits. -/
def sx32 (x : Word) : Word := (x.setWidth 32).signExtend 64

/-! ### Integer results (R38, R39, R166 to R169) -/

/-- The quotient of R39 with truncation; a zero divisor gives all ones. -/
def quotS (x y : Word) : Word := if y = 0 then BitVec.allOnes 64 else BitVec.ofInt 64 (x.toInt.tdiv y.toInt)
/-- The remainder of R39, with the sign of the dividend; a zero divisor gives the dividend. -/
def remS (x y : Word) : Word := if y = 0 then x else BitVec.ofInt 64 (x.toInt.tmod y.toInt)
/-- The unsigned quotient and remainder of R39. -/
def quotU (x y : Word) : Word := if y = 0 then BitVec.allOnes 64 else BitVec.ofNat 64 (x.toNat / y.toNat)
def remU (x y : Word) : Word := if y = 0 then x else BitVec.ofNat 64 (x.toNat % y.toNat)

/-- The destination and the value of an INT member with register operands (R166), for register values `g`. -/
def intResult (g : Reg → Word) : Instr → Option (Reg × Word)
  | .add d a b => some (d, BitVec.ofInt 64 ((g a).toInt + (g b).toInt))
  | .sub d a b => some (d, BitVec.ofInt 64 ((g a).toInt - (g b).toInt))
  | .mul d a b => some (d, BitVec.ofInt 64 ((g a).toInt * (g b).toInt))
  | .mulh d a b => some (d, BitVec.ofInt 64 ((g a).toInt * (g b).toInt / 2 ^ 64))
  | .mulhn d a b => some (d, BitVec.ofNat 64 ((g a).toNat * (g b).toNat / 2 ^ 64))
  | .div d a b => some (d, quotS (g a) (g b))
  | .divn d a b => some (d, quotU (g a) (g b))
  | .rem d a b => some (d, remS (g a) (g b))
  | .remn d a b => some (d, remU (g a) (g b))
  | .and d a b => some (d, g a &&& g b)
  | .or d a b => some (d, g a ||| g b)
  | .xor d a b => some (d, g a ^^^ g b)
  | .andn d a b => some (d, g a &&& ~~~(g b))
  | .orn d a b => some (d, g a ||| ~~~(g b))
  | .shl d a b => some (d, BitVec.ofNat 64 ((g a).toNat * 2 ^ ((g b).toNat % 64)))
  | .shr d a b => some (d, BitVec.ofNat 64 ((g a).toNat / 2 ^ ((g b).toNat % 64)))
  | .sar d a b => some (d, BitVec.ofInt 64 ((g a).toInt / 2 ^ ((g b).toNat % 64)))
  | .rol d a b => some (d, (g a).rotateLeft ((g b).toNat % 64))
  | .min d a b => some (d, if (g a).toInt ≤ (g b).toInt then g a else g b)
  | .max d a b => some (d, if (g a).toInt ≤ (g b).toInt then g b else g a)
  | .minn d a b => some (d, if (g a).toNat ≤ (g b).toNat then g a else g b)
  | .maxn d a b => some (d, if (g a).toNat ≤ (g b).toNat then g b else g a)
  | .seq d a b => some (d, truth (g a = g b))
  | .sne d a b => some (d, truth (g a ≠ g b))
  | .slt d a b => some (d, truth ((g a).toInt < (g b).toInt))
  | .sle d a b => some (d, truth ((g a).toInt ≤ (g b).toInt))
  | .sltn d a b => some (d, truth ((g a).toNat < (g b).toNat))
  | .slen d a b => some (d, truth ((g a).toNat ≤ (g b).toNat))
  | .sel d a b c => some (d, if g c ≠ 0 then g a else g b)
  | .clz d a => some (d, (g a).clz)
  | .ctz d a => some (d, (g a).ctz)
  | .popc d a => some (d, (g a).cpop)
  | .brev d a => some (d, (g a).reverse)
  | .muladd d a b c => some (d, BitVec.ofInt 64 ((g a).toInt * (g b).toInt + (g c).toInt))
  | .addw d a b => some (d, sx32 (g a + g b))
  | .subw d a b => some (d, sx32 (g a - g b))
  | .mulw d a b => some (d, sx32 (g a * g b))
  | .shlw d a b => some (d, sx32 (BitVec.ofNat 64 ((g a).toNat % 2 ^ 32 * 2 ^ ((g b).toNat % 32))))
  | .shrw d a b => some (d, sx32 (BitVec.ofNat 64 ((g a).toNat % 2 ^ 32 / 2 ^ ((g b).toNat % 32))))
  | .sarw d a b => some (d, BitVec.ofInt 64 ((sx32 (g a)).toInt / 2 ^ ((g b).toNat % 32)))
  | .padd d a b => some (d, (g a).extractLsb' 56 8 ++ BitVec.ofNat 56 ((g a).toNat + (g b).toNat))
  | .psub d a b => some (d, (g a).extractLsb' 56 8 ++ BitVec.ofInt 56 ((g a).toInt - (g b).toInt))
  | .pfmt d a => some (d, BitVec.ofNat 64 ((g a).toNat / 2 ^ 56))
  | _ => none

/-- The control word of R168 with a field position and length, and when it is legal. -/
def control (pos len : Nat) : Word := BitVec.ofNat 64 (len * 256 + pos)
def controlOk (pos len : Nat) : Prop := pos < 64 ∧ len ≤ 64 ∧ pos + len ≤ 64

/-- The field of R168. -/
def field (x : Word) (pos len : Nat) : Nat := x.toNat / 2 ^ pos % 2 ^ len
/-- The field sign-extended from its length. -/
def fieldS (x : Word) (pos len : Nat) : Int :=
  if len = 0 then 0 else if field x pos len < 2 ^ (len - 1) then field x pos len else field x pos len - 2 ^ len
/-- Bit `i` of `x` with the field replaced by the low bits of `y`. -/
def fieldPut (x y : Word) (pos len i : Nat) : Bool := if pos ≤ i ∧ i < pos + len then y.getLsbD (i - pos) else x.getLsbD i

/-- The destination and the value of an immediate or address instruction (R169, R155), for register values `g` and PC `pc`. -/
def immResult (g : Reg → Word) (pc : Addr) : Instr → Option (Reg × Word)
  | .addi d a i => some (d, BitVec.ofInt 64 ((g a).toInt + i.toInt))
  | .andi d a i => some (d, g a &&& BitVec.ofNat 64 i.toNat)
  | .ori d a i => some (d, g a ||| BitVec.ofNat 64 i.toNat)
  | .xori d a i => some (d, g a ^^^ BitVec.ofNat 64 i.toNat)
  | .slti d a i => some (d, truth ((g a).toInt < i.toInt))
  | .sltni d a i => some (d, truth ((g a).toNat < (BitVec.ofInt 64 i.toInt).toNat))
  | .shli d a n => some (d, BitVec.ofNat 64 ((g a).toNat * 2 ^ n.toNat))
  | .shri d a n => some (d, BitVec.ofNat 64 ((g a).toNat / 2 ^ n.toNat))
  | .sari d a n => some (d, BitVec.ofInt 64 ((g a).toInt / 2 ^ n.toNat))
  | .roli d a n => some (d, (g a).rotateLeft n.toNat)
  | .shliW d a n => some (d, sx32 (BitVec.ofNat 64 ((g a).toNat % 2 ^ 32 * 2 ^ n.toNat)))
  | .shriW d a n => some (d, sx32 (BitVec.ofNat 64 ((g a).toNat % 2 ^ 32 / 2 ^ n.toNat)))
  | .sariW d a n => some (d, BitVec.ofInt 64 ((sx32 (g a)).toInt / 2 ^ n.toNat))
  | .roliW d a n => some (d, (((g a).setWidth 32).rotateLeft n.toNat).signExtend 64)
  | .movw d i p => some (d, BitVec.ofNat 64 (i.toNat * 2 ^ (16 * p.toNat)))
  | .movn d i p => some (d, ~~~(BitVec.ofNat 64 (i.toNat * 2 ^ (16 * p.toNat))))
  | .paddi d a i => some (d, (g a).extractLsb' 56 8 ++ BitVec.ofInt 56 ((g a).toInt + i.toInt))
  | .adr d off => some (d, BitVec.ofNat 64 (BitVec.ofInt 56 (pc.toInt + 2 * off.toInt)).toNat)
  | .fmoviF64H d i => some (d, BitVec.ofNat 64 (fmovi fmtF16 fmtF64 i.toNat))
  | .fmoviF32H d i => some (d, BitVec.ofNat 64 (fmovi fmtF16 fmtF32 i.toNat))
  | .fmoviF64Bf d i => some (d, BitVec.ofNat 64 (fmovi fmtBf16 fmtF64 i.toNat))
  | .fmoviF32Bf d i => some (d, BitVec.ofNat 64 (fmovi fmtBf16 fmtF32 i.toNat))
  | _ => none

/-- The 32-bit form a compressed instruction stands for where it writes a general register and reads no memory (R142). -/
def compressedResult (g : Reg → Word) : Instr → Option (Reg × Word)
  | .cMov d a => some (d, g a)
  | .cAdd d a => some (d, BitVec.ofInt 64 ((g d).toInt + (g a).toInt))
  | .cSub d a => some (d, BitVec.ofInt 64 ((g d).toInt - (g a).toInt))
  | .cAnd d a => some (d, g d &&& g a)
  | .cOr d a => some (d, g d ||| g a)
  | .cAddi d i => some (d, BitVec.ofInt 64 ((g d).toInt + i.toInt))
  | .cMovi d i => some (d, BitVec.ofInt 64 i.toInt)
  | _ => none

/-! ### Branches and loops (R170 to R176) -/

/-- The target of a relative branch, modulo 2^56 (R170). -/
def relative {n : Nat} (pc : Addr) (off : BitVec n) : Addr := BitVec.ofInt 56 (pc.toInt + 2 * off.toInt)

/-- When an integer branch is taken, its target and its length in bytes (R170, R142), for register values `g` and PC `pc`. -/
def branchOf (g : Reg → Word) (pc : Addr) : Instr → Option (Bool × Addr × Nat)
  | .b off => some (true, relative pc off, 4)
  | .bcEq x y off => some (decide (g x = g y), relative pc off, 4)
  | .bcNe x y off => some (decide (g x ≠ g y), relative pc off, 4)
  | .bcLt x y off => some (decide ((g x).toInt < (g y).toInt), relative pc off, 4)
  | .bcGe x y off => some (decide ((g y).toInt ≤ (g x).toInt), relative pc off, 4)
  | .bcLtn x y off => some (decide ((g x).toNat < (g y).toNat), relative pc off, 4)
  | .bcGen x y off => some (decide ((g y).toNat ≤ (g x).toNat), relative pc off, 4)
  | .bcAny x y off => some (decide (g x &&& g y ≠ 0), relative pc off, 4)
  | .bcNone x y off => some (decide (g x &&& g y = 0), relative pc off, 4)
  | .cBz d off => some (decide (g d = 0), relative pc off, 2)
  | .cBnz d off => some (decide (g d ≠ 0), relative pc off, 2)
  | _ => none

/-- The condition of a floating branch, its precision, operands and offset (R171). -/
def fbranchOf : Instr → Option (FCond × Prec × Reg × Reg × BitVec 12)
  | .fbcEq p x y off => some (.eq, p, x, y, off)
  | .fbcNe p x y off => some (.ne, p, x, y, off)
  | .fbcLt p x y off => some (.lt, p, x, y, off)
  | .fbcLe p x y off => some (.le, p, x, y, off)
  | .fbcUn p x y off => some (.un, p, x, y, off)
  | .fbcOrd p x y off => some (.ord, p, x, y, off)
  | _ => none

/-- A context after an instruction whose next sequential PC is `pc`. -/
def goesOnAt (c : Ctx) (pc : Addr) : Ctx := { c.seqTo pc with run := .ready }

/-- A level's loop ends its body at `pc`. -/
def endsAt (l : Loop) (pc : Addr) : Prop := l.act = true ∧ l.le = pc

/-- A level after its end-of-body test, and whether it branches back (R174). -/
def tested (l : Loop) : Loop := if l.count.toNat ≤ 1 then { l with count := 0, act := false } else { l with count := l.count - 1 }

/-! ### State registers (R137, R181) -/

/-- The 64-bit word with `v` at bit `lo`. -/
def at_ {n : Nat} (lo : Nat) (v : BitVec n) : Word := BitVec.ofNat 64 (v.toNat * 2 ^ lo)

/-- Whether a legal value may be written by MTS (R137 and the field checks of each register). -/
def mtsLegal (s : State) (e : StateReg) (w : Word) : Prop :=
  StateReg.readOnly e = false ∧ (∀ i, i < 64 → w.getLsbD i = true → (StateReg.writable e).getLsbD i = true) ∧
    (e = .qdepth → s.qdepthOk w = true)

/-- What MFS reads of a register after MTS wrote `w` to it: `w`, with the register's read-only fields as they were. COUNT of LCn is used at the
next end-of-body test, which is the MTS's own when it ends a body (R172, R174). SRNG takes 1 for 0 (R57). AGELIM and ERRINJ ignore what a write
has beside their writable fields (R12, R103, R286). -/
def readsBack (e : StateReg) (w : Word) (s t : State) : Prop :=
  match e with
  | .lc0 => ¬ endsAt s.cur.loop0 (s.cur.pc + 4) → t.cur.loop0.count = w.extractLsb' 0 32
  | .lc1 => ¬ endsAt s.cur.loop1 (s.cur.pc + 4) → t.cur.loop1.count = w.extractLsb' 0 32
  | .srng => t.stateReg e = if w = 0 then 1 else w
  | .utcause => (t.stateReg e).extractLsb' 0 16 = w.extractLsb' 0 16 ∧ t.cur.ut.act = s.cur.ut.act
  | .agelim => t.stateReg e = at_ 0 (w.extractLsb' 0 32)
  | .errinj => (t.stateReg e).extractLsb' 0 1 = w.extractLsb' 0 1 ∧ t.me.regs.errCnt = s.me.regs.errCnt
  | .sysctl => (t.stateReg e).extractLsb' 0 8 = w.extractLsb' 0 8 ∧ t.me.regs.gold = s.me.regs.gold ∧ t.me.regs.cec = s.me.regs.cec
  | _ => t.stateReg e = w

/-- Memory, granules, marks and everything outside tile `u` are as in `s`. -/
def SameOutside (s t : State) (u : Nat) : Prop :=
  t.mem = s.mem ∧ t.empty = s.empty ∧ t.bad = s.bad ∧ t.dies = s.dies ∧ t.fabric = s.fabric ∧ t.ports = s.ports ∧ t.vest = s.vest ∧
    t.host = s.host ∧ t.cycle = s.cycle ∧ ∀ v, v ≠ u → t.getTile v = s.getTile v

/-- The running context's registers are as in `s`: general, vector and predicate registers, flags, and user-trap registers. -/
def SameRegs (c d : Ctx) : Prop :=
  d.g = c.g ∧ d.v = c.v ∧ d.k = c.k ∧ d.fpf = c.fpf ∧ d.fpm = c.fpm ∧ d.ut = c.ut ∧ d.txh = c.txh ∧ d.srng = c.srng

/-! ### Handler control (R83, R84, R177 to R179) -/

/-- The messages the running context's buffered sends yield. -/
def sendsOf (s : State) : List Msg := s.sendMsgs s.tile s.cur.ftag s.me.mseq s.cur.sends

/-- The messages enter the outbound queue behind those there; each covers what the context has outstanding (R125, R198). -/
def queued (s : State) (ms : List Msg) : List Queued := s.me.outq ++ ms.map fun m => { msg := m, after := s.me.outTags s.ctx }

/-- The running context has ended and its message is gone from the Landing. -/
def Ended (s t : State) : Prop :=
  t.cur.run = .idle ∧ t.cur.sends = [] ∧ (t.getTile s.tile).entry s.cur.key = none ∧ t.mem = s.mem ∧ t.empty = s.empty

/-- Beside the running context, the slot of its message, the outbound queue, MSEQ and the figures nothing differs from `s`; the Landing loses the
slot alone where nothing of its priority waits to take it (R75). -/
def EndFrame (s t : State) : Prop :=
  SameOutside s t s.tile ∧ (∀ c, c % 8 ≠ s.ctx % 8 → t.getCtx s.tile c = s.getCtx s.tile c) ∧
    { t.getTile s.tile with
      ctxs := s.me.ctxs, land := s.me.land, outq := s.me.outq, mseq := s.me.mseq, figs := s.me.figs } = s.me ∧
    (s.me.land.spill = [] → (t.getTile s.tile).land = { s.me.land with slots := s.me.land.slots.filter (·.key != s.cur.key) })

/-- No spilled message of the running tile has the key of the running context's message, and no late MCHECK is pending. -/
def Plain (s : State) : Prop := (∀ e ∈ s.me.land.spill, e.key ≠ s.cur.key) ∧ s.cur.late = []

/-- The buffered sends find room in the outbound queue (R198). -/
def HasRoom (s : State) (ms : List Msg) : Prop := s.me.outq.length + ms.length ≤ Config.outboundRoom

/-! ### Memory accesses (R106 to R113, R186 to R193, R203, R204, R219 to R224) -/

/-- The effective address of an M-format access: the register's address plus the scaled displacement, modulo 2^56 (R186). -/
def ea (base : Word) (scale : Nat) (disp : BitVec 12) : Addr := BitVec.ofInt 56 (base.toInt + scale * disp.toInt)
/-- Bits [55:0] of an address operand (R106). -/
def adr (w : Word) : Addr := w.setWidth 56

/-- The address names `n` bytes of the running tile's own scratchpad, and is aligned to `al` (R106, R107, R109). -/
def OwnAt (s : State) (a : Addr) (n al : Nat) : Prop :=
  inTileSpace a = true ∧ s.pkgOn s.tile (tsPkg a) = s.pkg ∧ s.tileOn s.tile s.pkg (tsTile a) = s.tile ∧ tsZero a = true ∧
    tsOff a + n ≤ s.scratch s.tile ∧ a.toNat % al = 0
/-- The place in memory of an address of the running tile's scratchpad. -/
def ownKey (s : State) (a : Addr) : Nat := poolBase s.tile + tsOff a

/-- No earlier access of the executing context to granules of a range is outstanding (R188). -/
def Free (s : State) (k n : Nat) : Prop := s.me.granuleBusy s.ctx (granules k n) = false
/-- Nor is a GET of the context that lands there (R188, R200). -/
def Clear (s : State) (k n : Nat) : Prop := s.me.endsBusy s.ctx (granules k n) = false
/-- No read of the executing context is outstanding: what a write of it must follow is performed (R124). -/
def NoReads (s : State) : Prop := s.me.readTags s.ctx = []

/-- No uncorrectable location lies in a byte range (R285). -/
def Sound (s : State) (k n : Nat) : Prop := ∀ b ∈ s.bad, b.1 + b.2 ≤ k ∨ k + n ≤ b.1

/-- The block of tile `t`'s pool at `k` needs no copy for a running snapshot, or can be copied: it is sound and the area has room for it
(R303, R309). -/
def Saves (s : State) (t k : Nat) : Prop :=
  let b := (k - poolBase t) / 4096
  b ∈ (s.getTile t).uncop → Sound s (poolBase t + b * 4096) 4096 ∧ ∀ g, s.groupOfTile t = some g → s.areaRoom g 4096 = true
/-- No block of tile `t`'s pool is still to be copied for a running snapshot (R303). -/
def Copied (s : State) (t : Nat) : Prop := (s.getTile t).uncop = []

/-- The little-endian value of `n` bytes (R9). -/
def valueAt (s : State) (k : Nat) : Nat → Nat
  | 0 => 0
  | n + 1 => (s.byteAt k).toNat + 256 * valueAt s (k + 1) n

/-- In `t` the `n` bytes from `k` hold the little-endian value `v`, and every other byte of memory is as in `s`. -/
def Stored (s t : State) (k n v : Nat) : Prop :=
  ∀ a, t.byteAt a = if k ≤ a ∧ a < k + n then BitVec.ofNat 8 (v / 256 ^ (a - k)) else s.byteAt a

/-- Every granule's FULL bit but those of `gs` is as in `s`, and theirs is `b`. -/
def FullIs (s t : State) (gs : List Nat) (b : Bool) : Prop := ∀ g, t.full g = if g ∈ gs then b else s.full g

/-- Beside memory, FULL bits and the running context nothing differs, but for the blocks a snapshot has still to copy and the marks that a
whole write clears. -/
def SameBesideMemory (s t : State) : Prop :=
  t.dies = s.dies ∧ t.fabric = s.fabric ∧ t.ports = s.ports ∧ t.vest = s.vest ∧ t.host = s.host ∧ t.cycle = s.cycle ∧ t.agenda = s.agenda ∧
    (∀ v, v ≠ s.tile → t.getTile v = s.getTile v) ∧ (∀ c, c % 8 ≠ s.ctx % 8 → t.getCtx s.tile c = s.getCtx s.tile c) ∧
    { t.me with ctxs := s.me.ctxs, uncop := s.me.uncop } = s.me

/-- A load: destination, address, bytes, sign extension and length (R189, R142). -/
def loadOf (g : Reg → Word) : Instr → Option (Reg × Addr × Nat × Bool × Nat)
  | .ldbs d a i => some (d, ea (g a) 1 i, 1, true, 4)
  | .ldbz d a i => some (d, ea (g a) 1 i, 1, false, 4)
  | .ldhs d a i => some (d, ea (g a) 2 i, 2, true, 4)
  | .ldhz d a i => some (d, ea (g a) 2 i, 2, false, 4)
  | .ldws d a i => some (d, ea (g a) 4 i, 4, true, 4)
  | .ldwz d a i => some (d, ea (g a) 4 i, 4, false, 4)
  | .ldd d a i => some (d, ea (g a) 8 i, 8, false, 4)
  | .cLdd d a i => some (d, BitVec.ofNat 56 ((g a).toNat + 8 * i.toNat), 8, false, 2)
  | _ => none
/-- A loaded value, extended to 64 bits. -/
def extended (n : Nat) (signed : Bool) (v : Nat) : Word :=
  if signed ∧ 2 ^ (8 * n - 1) ≤ v then BitVec.ofInt 64 ((v : Int) - 2 ^ (8 * n)) else BitVec.ofNat 64 v

/-- A store: source value, address, bytes and length (R189, R142). -/
def storeOf (g : Reg → Word) : Instr → Option (Word × Addr × Nat × Nat)
  | .stb d a i => some (g d, ea (g a) 1 i, 1, 4)
  | .sth d a i => some (g d, ea (g a) 2 i, 2, 4)
  | .stw d a i => some (g d, ea (g a) 4 i, 4, 4)
  | .std d a i => some (g d, ea (g a) 8 i, 8, 4)
  | .cStd d a i => some (g d, BitVec.ofNat 56 ((g a).toNat + 8 * i.toNat), 8, 2)
  | _ => none

/-- A full/empty form: operation, address, stored value and destination (R190, R180). -/
def feOf (g : Reg → Word) : Instr → Option (FeOp × Addr × Word × Option Reg)
  | .lddW d a i => some (.lddW, ea (g a) 8 i, 0, some d)
  | .lddWc d a i => some (.lddWc, ea (g a) 8 i, 0, some d)
  | .lddT d a i => some (.lddT, ea (g a) 8 i, 0, some d)
  | .lddTc d a i => some (.lddTc, ea (g a) 8 i, 0, some d)
  | .fetest d a i => some (.fetest, ea (g a) 8 i, 0, some d)
  | .stdF d a i => some (.stdF, ea (g a) 8 i, g d, none)
  | .stdWf d a i => some (.stdWf, ea (g a) 8 i, g d, none)
  | .feset a i => some (.feset, ea (g a) 8 i, 0, none)
  | .feclr a i => some (.feclr, ea (g a) 8 i, 0, none)
  | .waitf a => some (.waitf, adr (g a), 0, none)
  | _ => none
/-- The forms that are releases (R190). -/
def feReleases : FeOp → Bool
  | .stdF | .stdWf | .feset => true
  | _ => false
/-- Whether a form writes its granule or FULL: what it needs of a page, and of a block to be copied. -/
def feWrites : FeOp → Bool
  | .lddW | .lddT | .fetest | .waitf => false
  | .lddWc | .lddTc | .stdF | .stdWf | .feset | .feclr => true
/-- Whether a form tests FULL before it reads (R190): on an empty granule it takes nothing from memory. -/
def feTests : FeOp → Bool
  | .lddW | .lddWc | .lddT | .lddTc | .fetest | .waitf => true
  | .stdF | .stdWf | .feset | .feclr => false
/-- What a form waits for before it goes to its granule at once: a release for all that is outstanding, another write for what reads, and
every form for earlier accesses to the granule, a test of an empty one not for a GET that is to land there. -/
def feFirst (s : State) (op : FeOp) (k : Nat) : Prop :=
  (feReleases op = true → s.me.outTags s.ctx = []) ∧ (feWrites op = true → NoReads s) ∧
    if feTests op = true ∧ s.full (granule k) = false then Free s k 8 else Clear s k 8
/-- The register a form loads, as what its wait's end does (R190). -/
def feFin : Option Reg → Fin
  | some r => .word r
  | none => .none
/-- Whether a form goes on at once, for the granule's FULL bit. -/
def feGoes (op : FeOp) (full : Bool) : Bool :=
  match op with
  | .lddW | .lddWc | .lddT | .lddTc | .waitf => full
  | .stdWf => !full
  | .fetest | .stdF | .feset | .feclr => true
/-- FULL after a form that went on. -/
def feLeaves (op : FeOp) (full : Bool) : Bool :=
  match op with
  | .lddW | .lddT | .waitf | .fetest => full
  | .lddWc | .lddTc | .feclr => false
  | .stdF | .stdWf | .feset => true
/-- Whether a form stores. -/
def feStores : FeOp → Bool
  | .stdF | .stdWf => true
  | _ => false

/-- Nothing waits at the running tile's memory unit. -/
def NoWaiters (s : State) : Prop := s.me.mu.waiters = [] ∧ s.me.land.reserved = none

/-- An atomic: operation, order, size, destination and operands (R192). -/
def amoOf (g : Reg → Word) : Instr → Option (AmoOp × Order × AmoSize × Reg × Addr × Word × Word)
  | .amoAdd o z d a b => some (.add, o, z, d, adr (g a), g b, 0)
  | .amoAnd o z d a b => some (.and, o, z, d, adr (g a), g b, 0)
  | .amoOr o z d a b => some (.or, o, z, d, adr (g a), g b, 0)
  | .amoXor o z d a b => some (.xor, o, z, d, adr (g a), g b, 0)
  | .amoMin o z d a b => some (.min, o, z, d, adr (g a), g b, 0)
  | .amoMax o z d a b => some (.max, o, z, d, adr (g a), g b, 0)
  | .amoMinn o z d a b => some (.minn, o, z, d, adr (g a), g b, 0)
  | .amoMaxn o z d a b => some (.maxn, o, z, d, adr (g a), g b, 0)
  | .amoSwap o z d a b => some (.swap, o, z, d, adr (g a), g b, 0)
  | .amoCas o z d a b c => some (.cas, o, z, d, adr (g a), g b, g c)
  | .amoFadd o z d a b => some (.fadd, o, z, d, adr (g a), g b, 0)
  | _ => none
/-- A value of `w` bits read as a two's-complement integer. -/
def asSigned (w v : Nat) : Int := if 2 ^ (w - 1) ≤ v then (v : Int) - 2 ^ w else v
/-- What an atomic of `w` bits leaves in memory for the old value `x` and the operands' low bits `y` and `c` (R192), and its flags. -/
def amoLeaves (op : AmoOp) (w x y c : Nat) : Nat × Flags :=
  match op with
  | .add => ((x + y) % 2 ^ w, 0)
  | .and => (x &&& y, 0)
  | .or => (x ||| y, 0)
  | .xor => (x ^^^ y, 0)
  | .min => (if asSigned w x ≤ asSigned w y then x else y, 0)
  | .max => (if asSigned w x ≤ asSigned w y then y else x, 0)
  | .minn => (Nat.min x y, 0)
  | .maxn => (Nat.max x y, 0)
  | .swap => (y, 0)
  | .cas => (if x = c then y else x, 0)
  | .fadd => fadd (if w = 64 then fmtF64 else fmtF32) .rne x y

/-- Whether an access takes nothing of a GET's that is to land there: a plain load (R200), and a test of FULL of an empty granule. -/
def takesNothing (s : State) : MemOp → Bool
  | .read _ => true
  | .fe op k _ => feTests op && !s.full (granule k)
  | .vldW k => (granules k 64).any fun g => !s.full g
  | _ => false
/-- Whether an access writes data or FULL, for what R124 has it follow. -/
def writesSome : MemOp → Bool
  | .read _ | .vldW _ | .ring .rhead .. => false
  | .fe op _ _ => feWrites op
  | _ => true

/-- The address, bytes and alignment of an instruction that makes one access (R109, R186). -/
def accessOf (g : Reg → Word) (i : Instr) : Option (Addr × Nat × Nat) :=
  match loadOf g i, storeOf g i, feOf g i, amoOf g i with
  | some (_, a, n, _), _, _, _ => some (a, n, n)
  | none, some (_, a, n, _), _, _ => some (a, n, n)
  | none, none, some (_, a, _), _ => some (a, 8, 8)
  | none, none, none, some (_, _, z, _, a, _) => some (a, z.bytes, z.bytes)
  | none, none, none, none =>
    match i with
    | .vld _ a d | .vldW _ a d | .vldb _ a d | .vst _ a d | .vstF _ a d => some (ea (g a) 64 d, 64, 64)
    | .rresv _ a _ | .rpubl a _ _ | .rhead _ a | .rcons a _ => some (adr (g a), 64, 64)
    | _ => none

/-- An access as its request: kind (R205), operation at a key, whether it is a release, whether the context waits for the reply, what the
reply gives, the instruction's length, and what it needs of a page: W, and scratchpad (R112, R115). -/
structure Access where
  kind : BitVec 4
  op : Nat → MemOp
  rel : Bool
  waits : Bool
  fin : Fin
  len : Nat
  write : Bool
  scratch : Bool

/-- The access of a full/empty form. -/
def feAccess (op : FeOp) (w : Word) (d : Option Reg) : Access :=
  { kind := if op = .stdF ∨ op = .stdWf ∨ op = .feset ∨ op = .feclr then 2 else 1
    op := fun k => .fe op k w, rel := feReleases op
    waits := decide (op ≠ .stdF ∧ op ≠ .feset ∧ op ≠ .feclr)
    fin := feFin d
    len := 4, write := feWrites op, scratch := true }
/-- The access of a vector or ring instruction. -/
def wideAccess (c : Ctx) : Instr → Option Access
  | .vld d _ _ | .vldb d _ _ => some ⟨1, fun k => .read [⟨k, 64, 0⟩], false, true, .vload d, 4, false, false⟩
  | .vldW d _ _ => some ⟨1, fun k => .vldW k, false, true, .vload d, 4, false, true⟩
  | .vst d _ _ => some ⟨2, fun k => .write [(k, leBytes 64 (c.rv d).toNat)] false none, false, false, .none, 4, true, false⟩
  | .vstF d _ _ => some ⟨2, fun k => .write [(k, leBytes 64 (c.rv d).toNat)] true none, true, false, .none, 4, true, true⟩
  | .rresv d _ b => some ⟨3, fun k => .ring .rresv k (c.rd b) 0, false, true, .ring d, 4, true, true⟩
  | .rpubl _ b e => some ⟨3, fun k => .ring .rpubl k (c.rd b) (c.rd e), true, true, .none, 4, true, true⟩
  | .rhead d _ => some ⟨3, fun k => .ring .rhead k 0 0, false, true, .ring d, 4, true, true⟩
  | .rcons _ b => some ⟨3, fun k => .ring .rcons k (c.rd b) 0, true, true, .none, 4, true, true⟩
  | _ => none
/-- The access of an instruction that makes one. -/
def accessRequest (c : Ctx) (i : Instr) : Option Access :=
  match loadOf c.rd i, storeOf c.rd i, feOf c.rd i, amoOf c.rd i with
  | some (d, _, n, sg, len), _, _, _ => some ⟨1, fun k => .read [⟨k, n, 0⟩], false, true, .load d n sg, len, false, false⟩
  | none, some (w, _, n, len), _, _ => some ⟨2, fun k => .write [(k, leBytes n w.toNat)] false none, false, false, .none, len, true, false⟩
  | none, none, some (op, _, w, d), _ => some (feAccess op w d)
  | none, none, none, some (op, o, z, d, _, b, e) =>
    some ⟨3, fun k => .amo op z k b e, o.releases, o.acquires || d != 0, if d = 0 then .none else .amo d z, 4, true, false⟩
  | none, none, none, none => wideAccess c i

/-! ### Page tables (R114, R115) -/

/-- The index bits of the five levels: the lowest bit, and the number of bits. -/
def tableLevels : List (Nat × Nat) := [(48, 7), (39, 9), (30, 9), (21, 9), (16, 5)]
/-- What makes an entry valid at any level: V, the reserved bits zero, and PKG a package or this one. -/
def entryOk (e : Word) : Prop :=
  e.getLsbD 0 = true ∧ e.extractLsb' 5 3 = 0 ∧ e.extractLsb' 40 9 = 0 ∧ (e.toNat / 2 ^ 49 < 4096 ∨ e.toNat / 2 ^ 49 = 0x7FFE)
/-- PA of an entry. -/
def entryPa (e : Word) : Nat := e.toNat / 2 ^ 8 % 2 ^ 32 * 2 ^ 8
/-- The leaf for `va` below the table at `table` of a package, by the levels left; none where the walk meets an invalid entry. -/
def Walks (s : State) (va : Nat) : Nat → Nat → List (Nat × Nat) → Leaf → Prop
  | _, _, [], _ => False
  | pkg, table, (lo, n) :: below, l =>
    let e := s.tableWord pkg (table + 8 * (va / 2 ^ lo % 2 ^ n))
    table < Config.hbmBytes ∧ (pkg < 4096 ∨ pkg = 0x7FFE) ∧ entryOk e ∧
      (e.getLsbD 1 = true → l = { pte := e, base := va / 2 ^ lo * 2 ^ lo, size := 2 ^ lo } ∧
        if e.getLsbD 4 then lo = 16 else lo ≤ 30 ∧ entryPa e % 2 ^ lo = 0 ∧ entryPa e < Config.hbmBytes) ∧
      (e.getLsbD 1 = false → (∃ m ∈ (below.map (·.2)).head?, entryPa e % (8 * 2 ^ m) = 0) ∧ Walks s va (e.toNat / 2 ^ 49) (entryPa e) below l)

/-- The leaf that translates an address for the executing tile is at hand: a page walk, if it takes one, meets no lease (R121). -/
def Leads (s : State) (a : Addr) (l : Leaf) : Prop :=
  s.leafOf s.tile a.toNat = some l ∧ s.readConflicts s.tile (s.tableKeys s.tile a.toNat) = []
/-- A leaf lets an access of `n` bytes at `a` through: W where it writes; a scratchpad page, or HBM, unless the access needs scratchpad, that
the Vestibule of this package does not keep for itself (R112, R115, R32, R76). -/
def leafAllows (s : State) (l : Leaf) (a : Addr) (n : Nat) (write scratch : Bool) : Prop :=
  let own := s.pkgOf (l.pte.toNat / 2 ^ 49) = s.pkg
  (write = true → l.pte.getLsbD 2 = true) ∧
    if l.pte.getLsbD 4 then
      own → l.pte.toNat / 2 ^ 16 % 32 * 2 ^ 16 + a.toNat % 2 ^ 16 + n ≤ s.scratch (l.pte.toNat / 2 ^ 28 % 2 ^ 12)
    else scratch = false ∧ (own → s.heldPage (entryPa l.pte + (a.toNat - l.base)) = false)

/-- An access of `n` bytes at `a` reaches key `k` of a node of a package (R106 to R108, R30, R107, R115): in tile space, or through a leaf. -/
def Reaches (s : State) (a : Addr) (n : Nat) (write scratch : Bool) (pkg node k : Nat) : Prop :=
  (inTileSpace a = true ∧ pkg = s.pkgOn s.tile (tsPkg a) ∧ node = s.tileOn s.tile pkg (tsTile a) ∧ s.inPartition s.tile pkg node = true ∧
    tsZero a = true ∧ tsOff a + n ≤ s.scratchOf s.tile pkg node ∧ k = poolBase node + tsOff a) ∨
  (inTileSpace a = false ∧ ∃ l, Leads s a l ∧ leafAllows s l a n write scratch ∧ pkg = s.pkgOf (l.pte.toNat / 2 ^ 49) ∧
    if l.pte.getLsbD 4 then
      node = l.pte.toNat / 2 ^ 28 % 2 ^ 12 ∧ k = poolBase node + l.pte.toNat / 2 ^ 16 % 32 * 2 ^ 16 + a.toNat % 2 ^ 16
    else k = entryPa l.pte + (a.toNat - l.base) ∧ node = Config.memoryNode (homeDie k))

/-- The ring descriptor at the running tile's key `k` (R203). -/
def ringAt (s : State) (k : Nat) : RingDesc := ringDesc (wordsOf 8 (s.read k 64)) (k - poolBase s.tile) (s.scratch s.tile)

/-- A full vector register as `n` bytes' little-endian value. -/
def vecAt (s : State) (k : Nat) : VReg := BitVec.ofNat 512 (valueAt s k 64)

/-- The lanes of a gather or scatter whose predicate bit is set, in ascending order, and their addresses (R221). -/
def gsActive (s : State) (t : ElemType) (k : KReg) : List Nat := (List.range t.lanes).filter fun i => (s.cur.rk k).getLsbD i
def gsAddress (s : State) (t : ElemType) (a b : Reg) (i : Nat) : Addr :=
  adr (s.cur.rd a) + BitVec.ofInt 56 ((t.width / 8 : Nat) * (BitVec.ofNat 32 (lane 32 (s.cur.rv b) i)).toInt)

/-! ### Floating results (R51, R182 to R185) -/

/-- The rounding mode an instruction names (R182). -/
def modeOf (c : Ctx) : Rnd → Rm
  | .fpm => rmOfFpm c.fpm
  | .rne => .rne
  | .rtz => .rtz

/-- The format of a precision, and an operand's bits at it (R182): bits [31:0] for f32. -/
def precFmt : Prec → Fmt
  | .d => fmtF64
  | .s => fmtF32
def precBits : Prec → Nat
  | .d => 64
  | .s => 32
def operand (p : Prec) (w : Word) : Nat := w.toNat % 2 ^ precBits p

/-- A comparison as an integer result. -/
def asBit (x : Bool × Flags) : Nat × Flags := (if x.1 then 1 else 0, x.2)

/-- The destination, the result's bits and the flags of a FOP member (R183 to R185), for the context `c`. -/
def floatResult (c : Ctx) : Instr → Option (Reg × Nat × Flags)
  | .fadd p r d a b => some (d, fadd (precFmt p) (modeOf c r) (operand p (c.rd a)) (operand p (c.rd b)))
  | .fsub p r d a b => some (d, fsub (precFmt p) (modeOf c r) (operand p (c.rd a)) (operand p (c.rd b)))
  | .fmul p r d a b => some (d, fmul (precFmt p) (modeOf c r) (operand p (c.rd a)) (operand p (c.rd b)))
  | .fdiv p r d a b => some (d, fdiv (precFmt p) (modeOf c r) (operand p (c.rd a)) (operand p (c.rd b)))
  | .fsqrt p r d a => some (d, fsqrt (precFmt p) (modeOf c r) (operand p (c.rd a)))
  | .ffma p r d a b e =>
    some (d, ffma (precFmt p) (modeOf c r) false false (operand p (c.rd a)) (operand p (c.rd b)) (operand p (c.rd e)))
  | .ffms p r d a b e =>
    some (d, ffma (precFmt p) (modeOf c r) false true (operand p (c.rd a)) (operand p (c.rd b)) (operand p (c.rd e)))
  | .fnfma p r d a b e =>
    some (d, ffma (precFmt p) (modeOf c r) true true (operand p (c.rd a)) (operand p (c.rd b)) (operand p (c.rd e)))
  | .fnfms p r d a b e =>
    some (d, ffma (precFmt p) (modeOf c r) true false (operand p (c.rd a)) (operand p (c.rd b)) (operand p (c.rd e)))
  | .frint p r d a => some (d, frint (precFmt p) (modeOf c r) (operand p (c.rd a)))
  | .fmin p d a b => some (d, fminmax (precFmt p) false (operand p (c.rd a)) (operand p (c.rd b)))
  | .fmax p d a b => some (d, fminmax (precFmt p) true (operand p (c.rd a)) (operand p (c.rd b)))
  | .fabs p d a => some (d, operand p (c.rd a) % 2 ^ (precBits p - 1), 0)
  | .fneg p d a => some (d, (operand p (c.rd a) + 2 ^ (precBits p - 1)) % 2 ^ precBits p, 0)
  | .fcpys p d a b =>
    some (d, operand p (c.rd a) % 2 ^ (precBits p - 1) +
      (if 2 ^ (precBits p - 1) ≤ operand p (c.rd b) then 2 ^ (precBits p - 1) else 0), 0)
  | .feq p d a b => some (d, asBit (fcompare (precFmt p) true (fun o => o == .eq) (operand p (c.rd a)) (operand p (c.rd b))))
  | .flt p d a b => some (d, asBit (fcompare (precFmt p) false (fun o => o == .lt) (operand p (c.rd a)) (operand p (c.rd b))))
  | .fle p d a b => some (d, asBit (fcompare (precFmt p) false (fun o => o != .gt) (operand p (c.rd a)) (operand p (c.rd b))))
  | .fun p d a b => some (d, asBit (funord (precFmt p) (operand p (c.rd a)) (operand p (c.rd b))))
  | .fclass p d a => some (d, fclass (precFmt p) (operand p (c.rd a)), 0)
  | .fcvtp .d r d a => some (d, fcvt fmtF32 fmtF64 (modeOf c r) false (operand .s (c.rd a)))
  | .fcvtp .s r d a => some (d, fcvt fmtF64 fmtF32 (modeOf c r) false (operand .d (c.rd a)))
  | .ftos p r d a => some (d, fToInt (modeOf c r) true 64 (fdec (precFmt p) (operand p (c.rd a))))
  | .fton p r d a => some (d, fToInt (modeOf c r) false 64 (fdec (precFmt p) (operand p (c.rd a))))
  | .stof p r d a => some (d, fOfInt (precFmt p) (modeOf c r) false (c.rd a).toInt)
  | .ntof p r d a => some (d, fOfInt (precFmt p) (modeOf c r) false (c.rd a).toNat)
  | _ => none

/-- What rounding `m × 2^e` to a multiple of `2^q` gives under each mode, said by the distance to the value (R54, R56). -/
def RoundsToGrid : Prop :=
  ∀ (neg : Bool) (m : Nat) (e q : Int), e < q →
    let d := 2 ^ (q - e).toNat
    let y := fun r => (roundAt r neg m e q).1
    (∀ r, (roundAt r neg m e q).2 = decide (m % d ≠ 0)) ∧
    y .rtz * d ≤ m ∧ m < (y .rtz + 1) * d ∧
    2 * y .rne * d ≤ 2 * m + d ∧ 2 * m ≤ 2 * y .rne * d + d ∧
    (2 * y .rne * d = 2 * m + d ∨ 2 * m = 2 * y .rne * d + d → y .rne % 2 = 0) ∧
    (if neg then y .rup = y .rtz ∧ m ≤ y .rdn * d ∧ y .rdn * d < m + d else y .rdn = y .rtz ∧ m ≤ y .rup * d ∧ y .rup * d < m + d) ∧
    ∀ u, u < 2 ^ 24 → y (.sto u) = y .rtz + if u * d < (m - y .rtz * d) * 2 ^ 24 then 1 else 0

/-- Results worked from R40 to R56 by hand: sums, products, quotients and roots at ties, at the ends of the range and in the subnormals. -/
def ArithmeticWorked : Prop :=
  fadd fmtF32 .rne 0x3F800000 0x33800000 = (0x3F800000, flagNX) ∧ fadd fmtF32 .rup 0x3F800000 0x33800000 = (0x3F800001, flagNX) ∧
  fadd fmtF32 .rne 0x3F800001 0x33800000 = (0x3F800002, flagNX) ∧ fsub fmtF32 .rdn 0x3F800000 0x3F800000 = (0x80000000, 0) ∧
  fmul fmtF32 .rne 0x7F7FFFFF 0x40000000 = (0x7F800000, flagOF ||| flagNX) ∧ fmul fmtF32 .rtz 0x7F7FFFFF 0x40000000 = (0x7F7FFFFF, flagOF ||| flagNX) ∧
  fmul fmtF32 .rne 0x00800000 0x3F000000 = (0x00400000, 0) ∧ fmul fmtF32 .rne 0x00000001 0x3F000000 = (0, flagUF ||| flagNX) ∧
  fdiv fmtF64 .rne 0x3FF0000000000000 0x4008000000000000 = (0x3FD5555555555555, flagNX) ∧
  fdiv fmtF32 .rne 0xC0000000 0 = (0xFF800000, flagDZ) ∧ fdiv fmtF32 .rne 0 0 = (0x7FC00000, flagNV) ∧
  fsqrt fmtF64 .rne 0x4000000000000000 = (0x3FF6A09E667F3BCD, flagNX) ∧
  ffma fmtF32 .rne false false 0x3F800800 0x3F800800 0xBF801000 = (0x33800000, 0)

/-- What a FOP member gives for g1 and g2, with FPM zero. -/
def fop (i : Instr) (x y : Word) : Option (Nat × Flags) := (floatResult ((Ctx.reset.wr 1 x).wr 2 y) i).map (·.2)

/-- Comparisons, extremes and classes worked from R46 and R184: order, equal zeros of both signs, infinities, quiet and signalling NaNs. -/
def ComparesWorked : Prop :=
  let one : Word := 0x3F800000
  let two : Word := 0x40000000
  let minus : Word := 0xBF800000
  let zero : Word := 0
  let negz : Word := 0x80000000
  let quiet : Word := 0x7FC00000
  let signalling : Word := 0x7FA00000
  let inf : Word := 0x7F800000
  let ninf : Word := 0xFF800000
  let eq := fop (.feq .s 3 1 2)
  let lt := fop (.flt .s 3 1 2)
  let le := fop (.fle .s 3 1 2)
  let un := fop (.fun .s 3 1 2)
  let mn := fop (.fmin .s 3 1 2)
  let mx := fop (.fmax .s 3 1 2)
  let class_ := fun x => fop (.fclass .s 3 1) x 0
  (eq one one = some (1, 0) ∧ eq zero negz = some (1, 0) ∧ eq one two = some (0, 0) ∧ eq quiet quiet = some (0, 0) ∧
    eq signalling one = some (0, flagNV)) ∧
  (lt one two = some (1, 0) ∧ lt two one = some (0, 0) ∧ lt one one = some (0, 0) ∧ lt negz zero = some (0, 0) ∧ lt minus one = some (1, 0) ∧
    lt ninf minus = some (1, 0) ∧ lt one inf = some (1, 0) ∧ lt quiet one = some (0, flagNV) ∧ lt one signalling = some (0, flagNV)) ∧
  (le one one = some (1, 0) ∧ le zero negz = some (1, 0) ∧ le two one = some (0, 0) ∧ le one quiet = some (0, flagNV)) ∧
  (un one two = some (0, 0) ∧ un quiet one = some (1, 0) ∧ un one signalling = some (1, flagNV)) ∧
  (mn one two = some (0x3F800000, 0) ∧ mx one two = some (0x40000000, 0) ∧ mn zero negz = some (0x80000000, 0) ∧ mx negz zero = some (0, 0) ∧
    mn one quiet = some (0x3F800000, 0) ∧ mx signalling one = some (0x3F800000, flagNV) ∧
    mn 0x7FC00001 0x7FC00002 = some (0x7FC00001, 0) ∧ mx signalling 0x7FC00002 = some (0x7FE00000, flagNV)) ∧
  (class_ ninf = some (1, 0) ∧ class_ minus = some (2, 0) ∧ class_ 0x80000001 = some (4, 0) ∧ class_ negz = some (8, 0) ∧ class_ zero = some (16, 0) ∧
    class_ 1 = some (32, 0) ∧ class_ one = some (64, 0) ∧ class_ inf = some (128, 0) ∧ class_ signalling = some (256, 0) ∧
    class_ quiet = some (512, 0)) ∧
  fop (.flt .d 3 1 2) 0x3FF0000000000000 0x4000000000000000 = some (1, 0) ∧ fop (.feq .d 3 1 2) 0x8000000000000000 0 = some (1, 0) ∧
  fop (.fmax .d 3 1 2) 0x7FF8000000000000 0xBFF0000000000000 = some (0xBFF0000000000000, 0) ∧
  fop (.fclass .d 3 1) 0x7FF4000000000000 0 = some (256, 0) ∧ fop (.fclass .d 3 1) 0x000FFFFFFFFFFFFF 0 = some (32, 0)

/-- Conversions and integral values: those worked in R185, and at ties, at the ends of the ranges, of infinities and of NaNs (R55, R183). -/
def ConvertsWorked : Prop :=
  let tos := fun r x => fop (.ftos .d r 3 1) x 0
  let ton := fun x => fop (.fton .d .rne 3 1) x 0
  let rint := fun r x => fop (.frint .d r 3 1) x 0
  (tos .rne 0xC004000000000000 = some (0xFFFFFFFFFFFFFFFE, flagNX) ∧ tos .rtz 0xC004000000000000 = some (0xFFFFFFFFFFFFFFFE, flagNX) ∧
    tos .rne 0x400C000000000000 = some (4, flagNX) ∧ tos .rtz 0x400C000000000000 = some (3, flagNX) ∧
    tos .rne 0x7FF8000000000000 = some (0, flagNV) ∧ tos .rne 0x43E0000000000000 = some (0x7FFFFFFFFFFFFFFF, flagNV) ∧
    tos .rne 0xC3E0000000000000 = some (0x8000000000000000, 0) ∧ tos .rne 0xFFF0000000000000 = some (0x8000000000000000, flagNV) ∧
    fop (.ftos .s .rne 3 1) 0xBF800000 0 = some (0xFFFFFFFFFFFFFFFF, 0)) ∧
  (ton 0x43F0000000000000 = some (0xFFFFFFFFFFFFFFFF, flagNV) ∧ ton 0xBFD3333333333333 = some (0, flagNX) ∧ ton 0xBFF0000000000000 = some (0, flagNV) ∧
    ton 0x7FF8000000000000 = some (0, flagNV) ∧ ton 0x43E0000000000000 = some (0x8000000000000000, 0)) ∧
  (fop (.stof .s .rne 3 1) 0x01000001 0 = some (0x4B800000, flagNX) ∧ fop (.stof .d .rne 3 1) (-1) 0 = some (0xBFF0000000000000, 0) ∧
    fop (.ntof .d .rne 3 1) (-1) 0 = some (0x43F0000000000000, flagNX) ∧ fop (.ntof .s .rtz 3 1) (-1) 0 = some (0x5F7FFFFF, flagNX)) ∧
  (rint .rne 0x4004000000000000 = some (0x4000000000000000, flagNX) ∧ rint .rne 0xBFD3333333333333 = some (0x8000000000000000, flagNX) ∧
    rint .rne 0x4008000000000000 = some (0x4008000000000000, 0) ∧ rint .rtz 0x400C000000000000 = some (0x4008000000000000, flagNX) ∧
    rint .rne 0x7FF0000000000000 = some (0x7FF0000000000000, 0) ∧ rint .rne 0x7FF4000000000000 = some (0x7FFC000000000000, flagNV)) ∧
  fop (.fcvtp .s .rne 3 1) 0x3FF0000010000000 0 = some (0x3F800000, flagNX) ∧
  fop (.fcvtp .s .rne 3 1) 0x7FF4000000000000 0 = some (0x7FE00000, flagNV) ∧
  fop (.fcvtp .s .rne 3 1) 0x7FE0000000000000 0 = some (0x7F800000, flagOF ||| flagNX) ∧
  fop (.fcvtp .d .rne 3 1) 0x00000001 0 = some (0x36A0000000000000, 0)

/-- The group of the spec's worked cell: two products of half an ulp each and an accumulator of 64, rounded once (R60, R61). -/
def GroupWorked : Prop :=
  let p := (fdec fmtE4m3 1, fdec fmtE4m3 1)
  groupSum fmtF32 (fdec fmtF32 0x42800000) [p, p] = (0x42800001, 0) ∧ groupSum fmtF32 (fdec fmtF32 0x42800000) [p] = (0x42800000, flagNX)

/-- The conversions of R54's table but that of 465 toward zero, and those worked in the notes on number formats. -/
def ConversionsWorked : Prop :=
  let cv := fun f r sat x => fcvt fmtF32 f r sat x
  cv fmtE4m3 .rne false 0x43E38000 = (0x7E, flagNX) ∧ cv fmtE4m3 .rtz false 0x43E38000 = (0x7E, flagNX) ∧
  cv fmtE4m3 .rne false 0x43E80000 = (0x7E, flagNX) ∧ cv fmtE4m3 .rne true 0x43E80000 = (0x7E, flagNX) ∧
  cv fmtE4m3 .rne false 0x43E88000 = (0x7F, flagOF ||| flagNX) ∧ cv fmtE4m3 .rne true 0x43E88000 = (0x7E, flagOF ||| flagNX) ∧
  cv fmtE4m3 .rne false 0x3A83126F = (0x01, flagUF ||| flagNX) ∧ cv fmtE4m3 .rtz false 0x3A83126F = (0, flagUF ||| flagNX) ∧
  cv fmtE4m3 .rne false 0x3F800000 = (0x38, 0) ∧ cv fmtE5m2 .rne false 0x3F800000 = (0x3C, 0) ∧
  cv fmtE4m3 .rne false 0xC0200000 = (0xC2, 0) ∧ cv fmtE5m2 .rne false 0xC0200000 = (0xC1, 0) ∧
  cv fmtE4m3 .rne false 0x3E99999A = (0x2A, flagNX) ∧ cv fmtE5m2 .rne false 0x3E99999A = (0x35, flagNX) ∧
  cv fmtE4m3 .rne false 0x43FA0000 = (0x7F, flagOF ||| flagNX) ∧ cv fmtE4m3 .rne true 0x43FA0000 = (0x7E, flagOF ||| flagNX) ∧
  cv fmtE5m2 .rne false 0x43FA0000 = (0x60, flagNX) ∧
  cv fmtBf16 .rne false 0x3EAAAAAB = (0x3EAB, flagNX) ∧ cv fmtBf16 .rtz false 0x3EAAAAAB = (0x3EAA, flagNX) ∧
  cv fmtBf16 (.sto (rngDraw (rngStep 1))) false 0x3F804000 = (0x3F81, flagNX)

/-- The blocks worked in the notes on number formats, decoded, and two blocks stored, worked by hand from R58 and R59. -/
def BlocksWorked : Prop :=
  let zeros := fun n => List.replicate n (FV.num false 0 0, Rm.rne)
  (decodeBlock false 0x7D [2, 0xB, 7, 8]).1.map (fun v => fpack fmtF32 .rne false v) =
    [(0x3E800000, 0), (0xBEC00000, 0), (0x3FC00000, 0), (0x80000000, 0)] ∧
  (decodeBlock false 0xFF [2, 0xB, 7, 8]).1.map (fun v => fpack fmtF32 .rne false v) = List.replicate 4 (0x7FC00000, 0) ∧
  (decodeBlock true 0x7F [3, 8, 5, 0, 8, 8, 4, 0, 1, 8, 0xF]).2 = true ∧
  (decodeBlock true 0x7F [3, 8, 5, 0, 8, 8, 4, 0, 1, 8, 0xF]).1.map (fun v => fpack fmtF32 .rne false v) =
    [(0x40400000, 0), (0x41000000, 0), (0, 0), (0, 0), (0xBC000000, 0), (0, 0), (0, 0), (0, 0), (0x3F800000, 0), (0, 0), (0xBF800000, 0)] ∧
  quantBlock false ([(.num false 6 0, .rne), (.num false 3 0, .rne), (.num false 5 (-2), .rne), (.num true 1 (-2), .rne)] ++ zeros 28) =
    (127, [7, 5, 2, 8] ++ List.replicate 28 0, flagUF ||| flagNX) ∧
  quantBlock true ([(.num false 100 0, .rne), (.num false 0 0, .rne), (.num false 0 0, .rne), (.num false 7 0, .rne), (.num true 5 (-1), .rne)] ++
    zeros 27) = (127, [8, 6, 0xC, 7, 0xE] ++ List.replicate 27 0, flagNX)

/-! ### Vector lanes (R207 to R218) -/

/-- The integer a lane holds (R207), and an integer modulo 2^w, or clamped to the type's range (R38). -/
def element (t : ElemType) (x : Nat) : Int := if t.isSigned then asSigned t.width x else x
def wrapped (w : Nat) (i : Int) : Nat := (i % 2 ^ w).toNat
def least (t : ElemType) : Int := if t.isSigned then -(2 ^ (t.width - 1)) else 0
def greatest (t : ElemType) : Int := if t.isSigned then 2 ^ (t.width - 1) - 1 else 2 ^ t.width - 1
def clamped (t : ElemType) (i : Int) : Nat := wrapped t.width (max (least t) (min (greatest t) i))

/-- A predicated lane operation (R208): lane width, zeroing, predicate, destination, and each lane's new value with its flags. -/
structure LaneOp where
  w : Nat
  z : Bool
  k : KReg
  d : Reg
  f : Nat → Nat × Flags

/-- A lane of an integer type by `g` modulo 2^w, and of a floating type by `h`. -/
def byType (t : ElemType) (g : Int → Int → Int) (h : Nat → Nat → Nat × Flags) (x y : Nat) : Nat × Flags :=
  if t.isInt then (wrapped t.width (g (element t x) (element t y)), 0) else h x y

/-- The quotient of R39 on lanes. -/
def laneQuot (t : ElemType) (x y : Nat) : Nat :=
  if y = 0 then 2 ^ t.width - 1
  else if t.isSigned then wrapped t.width ((element t x).tdiv (element t y)) else x / y

/-- A lane-wise operation of one and of two sources. -/
def lanes1 (c : Ctx) (t : ElemType) (z : Bool) (d a : Reg) (k : KReg) (f : Nat → Nat × Flags) : Option LaneOp :=
  some ⟨t.width, z, k, d, fun i => f (lane t.width (c.rv a) i)⟩
def lanes2 (c : Ctx) (t : ElemType) (z : Bool) (d a b : Reg) (k : KReg) (f : Nat → Nat → Nat × Flags) : Option LaneOp :=
  some ⟨t.width, z, k, d, fun i => f (lane t.width (c.rv a) i) (lane t.width (c.rv b) i)⟩
/-- One of two sources and the old destination (R211). -/
def lanes3 (c : Ctx) (t : ElemType) (z : Bool) (d a b : Reg) (k : KReg) (f : Nat → Nat → Nat → Nat × Flags) : Option LaneOp :=
  some ⟨t.width, z, k, d, fun i => f (lane t.width (c.rv a) i) (lane t.width (c.rv b) i) (lane t.width (c.rv d) i)⟩

/-- The source lanes of 32-bit lane `i` of a dot product (R212). -/
def dotPairs (c : Ctx) (t : ElemType) (a b : Reg) (i : Nat) : List (Nat × Nat) :=
  let r := 32 / t.width
  (List.range r).map fun j => (lane t.width (c.rv a) (r * i + j), lane t.width (c.rv b) (r * i + j))
/-- The floating dot product of a lane: exact, rounded once (R62, R212), and the integer one. -/
def dotFloat (c : Ctx) (t : ElemType) (d a b : Reg) (i : Nat) : Nat × Flags :=
  groupSum fmtF32 (fdec fmtF32 (lane 32 (c.rv d) i)) ((dotPairs c t a b i).map fun p => (fdec (fmtOf t) p.1, fdec (fmtOf t) p.2))
def dotInt (c : Ctx) (t : ElemType) (d a b : Reg) (i : Nat) : Nat × Flags :=
  (wrapped 32 ((lane 32 (c.rv d) i : Int) + ((dotPairs c t a b i).map fun p => element t p.1 * element t p.2).sum), 0)

/-- The VARI, VFMA and VLOG members (R210 to R213). -/
def vectorArithmetic (c : Ctx) : Instr → Option LaneOp
  | .vadd t z d a b k => lanes2 c t z d a b k (byType t (fun x y => x + y) (fadd (fmtOf t) (rmOfFpm c.fpm)))
  | .vsub t z d a b k => lanes2 c t z d a b k (byType t (fun x y => x - y) (fsub (fmtOf t) (rmOfFpm c.fpm)))
  | .vmul t z d a b k => lanes2 c t z d a b k (byType t (fun x y => x * y) (fmul (fmtOf t) (rmOfFpm c.fpm)))
  | .vmin t z d a b k => lanes2 c t z d a b k (byType t (fun x y => min x y) (fminmax (fmtOf t) false))
  | .vmax t z d a b k => lanes2 c t z d a b k (byType t (fun x y => max x y) (fminmax (fmtOf t) true))
  | .vabs t z d a k =>
    lanes1 c t z d a k fun x => (if t.isInt then wrapped t.width (element t x).natAbs else x % 2 ^ (t.width - 1), 0)
  | .vneg t z d a k =>
    lanes1 c t z d a k fun x => (if t.isInt then wrapped t.width (-(element t x)) else (x + 2 ^ (t.width - 1)) % 2 ^ t.width, 0)
  | .vadds t z d a b k => lanes2 c t z d a b k fun x y => (clamped t (element t x + element t y), 0)
  | .vsubs t z d a b k => lanes2 c t z d a b k fun x y => (clamped t (element t x - element t y), 0)
  | .vmulh t z d a b k => lanes2 c t z d a b k fun x y => (wrapped t.width (element t x * element t y / 2 ^ t.width), 0)
  | .vdiv t z d a b k => lanes2 c t z d a b k fun x y => if t.isInt then (laneQuot t x y, 0) else fdiv (fmtOf t) (rmOfFpm c.fpm) x y
  | .vsqrt t z d a k => lanes1 c t z d a k (fsqrt (fmtOf t) (rmOfFpm c.fpm))
  | .vavg t z d a b k => lanes2 c t z d a b k fun x y => (wrapped t.width ((element t x + element t y + 1) / 2), 0)
  | .vfma t z d a b k => lanes3 c t z d a b k (ffma (fmtOf t) (rmOfFpm c.fpm) false false)
  | .vfms t z d a b k => lanes3 c t z d a b k (ffma (fmtOf t) (rmOfFpm c.fpm) false true)
  | .vnfma t z d a b k => lanes3 c t z d a b k (ffma (fmtOf t) (rmOfFpm c.fpm) true true)
  | .vmac t z d a b k => lanes3 c t z d a b k fun x y o => (wrapped t.width (element t o + element t x * element t y), 0)
  | .vdot2 t z d a b k => some ⟨32, z, k, d, dotFloat c t d a b⟩
  | .vdot4 t z d a b k => some ⟨32, z, k, d, dotFloat c t d a b⟩
  | .vdot4i t z d a b k => some ⟨32, z, k, d, dotInt c t d a b⟩
  | .vand t z d a b k => lanes2 c t z d a b k fun x y => (x &&& y, 0)
  | .vor t z d a b k => lanes2 c t z d a b k fun x y => (x ||| y, 0)
  | .vxor t z d a b k => lanes2 c t z d a b k fun x y => (x ^^^ y, 0)
  | .vandn t z d a b k => lanes2 c t z d a b k fun x y => (x &&& (2 ^ t.width - 1 - y), 0)
  | .vshl t z d a b k => lanes2 c t z d a b k fun x y => (x * 2 ^ (y % t.width), 0)
  | .vshr t z d a b k => lanes2 c t z d a b k fun x y => (x / 2 ^ (y % t.width), 0)
  | .vsar t z d a b k => lanes2 c t z d a b k fun x y => (wrapped t.width (asSigned t.width x / 2 ^ (y % t.width)), 0)
  | .vrol t z d a b k => lanes2 c t z d a b k fun x y => (x * 2 ^ (y % t.width) % 2 ^ t.width + x / 2 ^ (t.width - y % t.width), 0)
  | .vnot t z d a k => lanes1 c t z d a k fun x => (2 ^ t.width - 1 - x, 0)
  | _ => none

/-- A permute: each lane's value, no flag (R215). -/
def moved (t : ElemType) (z : Bool) (k : KReg) (d : Reg) (f : Nat → Nat) : Option LaneOp := some ⟨t.width, z, k, d, fun i => (f i, 0)⟩

/-- The predicated members of VPRM (R215). -/
def vectorPermute (c : Ctx) : Instr → Option LaneOp
  | .vbcast t z d a k => moved t z k d fun _ => (c.rd a).toNat
  | .vperm t z d a b k => moved t z k d fun i => lane t.width (c.rv a) (lane t.width (c.rv b) i % t.lanes)
  | .vzipl t z d a b k => moved t z k d fun i => lane t.width (c.rv (if i % 2 = 0 then a else b)) (i / 2)
  | .vziph t z d a b k => moved t z k d fun i => lane t.width (c.rv (if i % 2 = 0 then a else b)) (t.lanes / 2 + i / 2)
  | .vuzpe t z d a b k =>
    moved t z k d fun i => if 2 * i < t.lanes then lane t.width (c.rv a) (2 * i) else lane t.width (c.rv b) (2 * i - t.lanes)
  | .vuzpo t z d a b k =>
    moved t z k d fun i => if 2 * i < t.lanes then lane t.width (c.rv a) (2 * i + 1) else lane t.width (c.rv b) (2 * i + 1 - t.lanes)
  | .viota t z d k => moved t z k d fun i => ((List.range i).filter fun j => (c.rk k).getLsbD j).length
  | .vsldn t z d a b k =>
    moved t z k d fun i => if i + (c.rd b).toNat < t.lanes then lane t.width (c.rv a) (i + (c.rd b).toNat) else 0
  | _ => none

/-- `fl` is the OR of the flags of the lanes below `n` whose predicate bit is set (R208). -/
def FlagsOf (mask : Word) (n : Nat) (f : Nat → Flags) (fl : Flags) : Prop :=
  ∀ b, fl.getLsbD b = true ↔ ∃ i, i < n ∧ mask.getLsbD i = true ∧ (f i).getLsbD b = true

/-- `i` writes `o`'s active lanes, keeps or zeroes the others, ORs the flags of active lanes into FPF and goes on. -/
def WritesLanes (i : Instr) (s : State) (o : LaneOp) : Prop :=
  ∃ (v : VReg) (fl : Flags),
    Becomes i s (goesOn { s.cur.wv o.d v with fpf := s.cur.fpf ||| fl } 4) ∧
    (∀ j, j < 512 / o.w → lane o.w v j =
      if (s.cur.rk o.k).getLsbD j then (o.f j).1 % 2 ^ o.w else if o.z then 0 else lane o.w (s.cur.rv o.d) j) ∧
    FlagsOf (s.cur.rk o.k) (512 / o.w) (fun j => (o.f j).2) fl

/-- A lane comparison's condition, type, destination, sources and predicate (R214). -/
def compareOf : Instr → Option (VCond × ElemType × KReg × Reg × Reg × KReg)
  | .vcmpEq t d a b k => some (.eq, t, d, a, b, k)
  | .vcmpNe t d a b k => some (.ne, t, d, a, b, k)
  | .vcmpLt t d a b k => some (.lt, t, d, a, b, k)
  | .vcmpLe t d a b k => some (.le, t, d, a, b, k)
  | .vcmpGt t d a b k => some (.gt, t, d, a, b, k)
  | .vcmpGe t d a b k => some (.ge, t, d, a, b, k)
  | .vcmpUn t d a b k => some (.un, t, d, a, b, k)
  | _ => none
/-- Whether a comparison holds on two lanes, and its flags (R214): EQ, NE and UN are quiet. -/
def compares (c : VCond) (t : ElemType) (x y : Nat) : Bool × Flags :=
  if t.isInt then
    let i := element t x
    let j := element t y
    (match c with
      | .eq => decide (i = j) | .ne => decide (i ≠ j) | .lt => decide (i < j) | .le => decide (i ≤ j)
      | .gt => decide (j < i) | .ge => decide (j ≤ i) | .un => false, 0)
  else
    match c with
    | .eq => fcompare (fmtOf t) true (fun o => o == .eq) x y
    | .ne => fcompare (fmtOf t) true (fun o => o != .eq) x y
    | .lt => fcompare (fmtOf t) false (fun o => o == .lt) x y
    | .le => fcompare (fmtOf t) false (fun o => o != .gt) x y
    | .gt => fcompare (fmtOf t) false (fun o => o == .gt) x y
    | .ge => fcompare (fmtOf t) false (fun o => o != .lt) x y
    | .un => funord (fmtOf t) x y

/-- One converted lane (R55, R217): rounding mode, saturation, source and destination type. -/
def converted (src dst : ElemType) (r : Rm) (sat : Bool) (x : Nat) : Nat × Flags :=
  match src.isInt, dst.isInt with
  | false, false => fcvt (fmtOf src) (fmtOf dst) r sat x
  | false, true => fToInt r dst.isSigned dst.width (fdec (fmtOf src) x)
  | true, false => fOfInt (fmtOf dst) r sat (element src x)
  | true, true => (if sat = true ∧ dst.width ≤ src.width then clamped dst (element src x) else wrapped dst.width (element src x), 0)

/-- The generator after `n` steps (R57). -/
def stepped : Nat → Word → Word
  | 0, g => g
  | n + 1, g => rngStep (stepped n g)
/-- The rounding of pair `j` of VCVT: a draw of its own for each pair under SR (R56). -/
def pairMode (r : VRnd) (g : Word) (j : Nat) : Rm :=
  match r with
  | .sr => .sto (rngDraw (stepped (j + 1) g))
  | .rtz => .rtz
  | _ => .rne

/-- The active lanes' numbers, in order. -/
def activeNumbers (mask : Word) (n : Nat) : List Nat := (List.range n).filter fun i => mask.getLsbD i
/-- The active lanes' values, in order. -/
def activeValues (c : Ctx) (t : ElemType) (a : Reg) (k : KReg) : List Nat :=
  (activeNumbers (c.rk k) t.lanes).map (lane t.width (c.rv a))

/-- The format a floating reduction is held in (R63). -/
def sumFmt (t : ElemType) : Fmt := if t = .f64 then fmtF64 else fmtF32
/-- An addition of two partial sums that gathers flags. -/
def sumOf (f : Fmt) (r : Rm) (a b : Nat × Flags) : Nat × Flags := ((fadd f r a.1 b.1).1, a.2 ||| b.2 ||| (fadd f r a.1 b.1).2)
/-- The lane-order sum (R63). -/
def orderedSum (f : Fmt) (r : Rm) : List (Nat × Flags) → Nat × Flags
  | [] => (0, 0)
  | x :: xs => xs.foldl (sumOf f r) x
/-- The pairwise tree over 2^n partial sums from number `i` (R63). -/
def treeSum (f : Fmt) (r : Rm) (g : Nat → Nat × Flags) : Nat → Nat → Nat × Flags
  | 0, i => g i
  | n + 1, i => sumOf f r (treeSum f r g n i) (treeSum f r g n (i + 2 ^ n))

/-! ### Predicates (R225) -/

/-- The predicate a KOP member writes, or the general register. -/
def predicateResult (c : Ctx) : Instr → Option (KReg × Word)
  | .kand d a b => some (d, c.rk a &&& c.rk b)
  | .kor d a b => some (d, c.rk a ||| c.rk b)
  | .kxor d a b => some (d, c.rk a ^^^ c.rk b)
  | .kandn d a b => some (d, c.rk a &&& ~~~(c.rk b))
  | .knot d a => some (d, ~~~(c.rk a))
  | .kfromg d a => some (d, c.rd a)
  | _ => none

/-! ### Messages, transfers and counters (R195 to R202, R87 to R90) -/

/-- The `n` payload words of SEND and SENDG: consecutive registers (R195). -/
def registers (c : Ctx) (p : Reg) (n : Nat) : List Word := (List.range n).map fun i => c.rd (p + BitVec.ofNat 4 i)
/-- The tile address of a package and tile (R187). -/
def addressOf (pkg tile : Nat) : BitVec 27 := BitVec.ofNat 27 (pkg % 2 ^ 15 * 2 ^ 12 + tile % 2 ^ 12)
/-- A context with a buffered message. -/
def buffers (c : Ctx) (cls : BitVec 8) (ds : List (BitVec 27)) (ws : List Word) : Ctx :=
  { c with sends := c.sends ++ [{ kind := 0, cls := cls, dests := ds, words := ws }] }

/-- A tile-space range of `n` bytes of a tile of the running tile's partition, its own or another, aligned to `al`; the tile, and the
range's place in memory. -/
def TileAt (s : State) (a : Addr) (n al : Nat) : Prop :=
  inTileSpace a = true ∧ s.pkgOn s.tile (tsPkg a) = s.pkg ∧ s.inPartition s.tile s.pkg (s.tileOn s.tile s.pkg (tsTile a)) = true ∧ tsZero a = true ∧
    tsOff a + n ≤ s.scratch (s.tileOn s.tile s.pkg (tsTile a)) ∧ a.toNat % al = 0
def tileKey (s : State) (a : Addr) : Nat := poolBase (s.tileOn s.tile s.pkg (tsTile a)) + tsOff a

/-- The requests and unbuffered messages a tile has yet to inject: kind, destination, body, and the accesses each covers. -/
def toInject (x : Tile) : List (BitVec 4 × BitVec 15 × BitVec 12 × Body × List Nat) :=
  x.mu.queue.map fun q => (q.msg.hdr.kind, q.msg.hdr.dpkg, q.msg.hdr.dtile, q.msg.body, q.after)
/-- The running tile has `xs` more to inject, in order; memory and FULL bits are as before. -/
def Injects (s t : State) (xs : List (BitVec 4 × BitVec 15 × BitVec 12 × Body × List Nat)) : Prop :=
  toInject t.me = toInject s.me ++ xs ∧ t.mem = s.mem

/-- The length of a GET or PUT is legal (R200). -/
def lengthOk (w : Word) : Prop := 16 ≤ w.toNat ∧ w.toNat ≤ 256 ∧ w.toNat % 16 = 0

/-- A counter after the test of R89, and the action its firing queues. -/
def fired (k : Counter) (cid : Nat) (ftag : BitVec 12) : Counter × List Action :=
  if k.armed = true ∧ k.value = k.target then
    (if k.action.getLsbD 4 then { k with value := k.value - k.target } else { k with armed := false },
     if k.action.toNat % 16 = 0 then [] else [{ word := k.action, cid := cid, value := k.value, ftag := ftag }])
  else (k, [])
/-- Counter `cid` of the running tile has become what the test of R89 makes of `k`, no other counter has changed, and nothing outside the
tile. -/
def CounterBecomes (s t : State) (cid : Nat) (k : Counter) : Prop :=
  t.me.cnt.get cid = (fired k cid s.cur.ftag).1 ∧ t.me.cnt.actions = s.me.cnt.actions ++ (fired k cid s.cur.ftag).2 ∧
    (∀ j, j ≠ cid → t.me.cnt.get j = s.me.cnt.get j) ∧ SameOutside s t s.tile

/-! ### Typed blocks (R223, R224) -/

/-- The types of a typed block access. -/
def blockType (t : ElemType) : Prop := t = .f32 ∨ t = .f16 ∨ t = .bf16
/-- Element `j` of a register group. -/
def groupElement (c : Ctx) (t : ElemType) (d : Reg) (j : Nat) : Nat :=
  lane t.width (c.rv (d + BitVec.ofNat 4 (j / t.lanes))) (j % t.lanes)
/-- The rounding of element `j` of a VSTQ: FPM's mode, or a draw of its own. -/
def storeMode (c : Ctx) (sr : Bool) (j : Nat) : Rm := if sr then .sto (rngDraw (stepped (j + 1) c.srng)) else rmOfFpm c.fpm
/-- Block `m` of `len` elements of a register group, quantised (R58, R59). -/
def storedBlock (c : Ctx) (t : ElemType) (sr q4o : Bool) (d : Reg) (len m : Nat) : Nat × List Nat × Flags :=
  quantBlock q4o ((List.range len).map fun i => (fdec (fmtOf t) (groupElement c t d (m * len + i)), storeMode c sr (m * len + i)))

/-! ### Transactions and locks (R257 to R272) -/

/-- A request about a name that the executing context sends for the transaction in `slot`: its body (R253, R259). -/
def lockBody (s : State) (name ts handle : Word) (op : LockOp) (tag : Nat) : Body :=
  .lock { tag := tag, asid := s.me.regs.asid, name := name, ts := ts, handle := handle, op := op }
/-- The same with the class and priority of the message that the grant is to make (R67, R269). -/
def lockBodyFor (s : State) (name ts handle : Word) (op : LockOp) (tag : Nat) (cls : BitVec 8) (prio : BitVec 2) : Body :=
  .lock { tag := tag, asid := s.me.regs.asid, name := name, ts := ts, handle := handle, op := op, cls := cls, prio := prio }
/-- The executing context waits for the answers to lock requests. -/
def AwaitsLocks (s t : State) (form : LockForm) (tags : List Nat) (d : Reg) (status : Nat) : Prop :=
  t.cur = { s.cur with run := .wait (.locks form tags d status) }
/-- The context goes on with a status in gD (R268). -/
def saying (c : Ctx) (d : Reg) (code : Nat) : Ctx := goesOn (c.wr d (BitVec.ofNat 64 code)) 4
/-- No lease is in the way of the walk that translates the address of a lease operand (R121). -/
def WalkFree (s : State) (a : Addr) : Prop := s.readConflicts s.tile (s.walkKeys s.tile [(a, 1)]) = []
/-- Destination of a lock request: the Newel instance of a die (R253). -/
def toNewel (s : State) (pkg die : Nat) (b : Body) : BitVec 4 × BitVec 15 × BitVec 12 × Body × List Nat :=
  (5, BitVec.ofNat 15 pkg, BitVec.ofNat 12 (Config.newelNode die), b, s.me.outTags s.ctx)

/-! ### Flits at their node (R68, R74, R89, R107, R289, R300) -/

/-- The oldest flit at the router of node `n` that is for it and meets `p` is `f`; the node serves it as `g`: it is not golden, no seal
holds or absorbs it, and no snapshot of its group runs or is told of by its colour. -/
def Arrives (s : State) (n : Nat) (p : Flit → Bool) (f g : Flit) : Prop :=
  (∃ pl t, s.oldestAt n p = some (pl, t) ∧ t.flit = f) ∧ restoreFlit f = g ∧ f.age ≠ 4095 ∧ s.heldBySeal n g = false ∧
    (∀ e, s.flitPart n g = some e → e.2.sealed_ = false) ∧ ∀ e, s.flitGroup n g = some e → s.snapping e = false ∧
      (g.hdr.spkg.toNat = s.pkg ∨ g.hdr.colour = (s.nodeSnap e n).colour ∨ s.spansOthers e = false)
/-- It makes its message whole: the other flits of the message have come (R65). -/
def Whole (s : State) (n : Nat) (g : Flit) : Prop := (gather (s.partsAt n) g).2.2 = true
/-- A memory request of a kind, a ring operation or not. -/
def requestOf (k : BitVec 4) (ring : Bool) (f : Flit) : Bool :=
  match f.body with
  | .request _ (.ring ..) => ring && f.hdr.kind == k
  | .request _ _ => !ring && f.hdr.kind == k
  | _ => false
/-- A lock request whose operation meets `p`; a flit to a lock client that meets `p`. -/
def lockOf (p : LockOp → Bool) (f : Flit) : Bool :=
  match f.body with
  | .lock r => f.hdr.kind == 5 && p r.op
  | _ => false
def lockReplyOf (p : LockRep → Bool) (f : Flit) : Bool :=
  match f.body with
  | .lockReply r => f.hdr.kind == 10 && p r
  | _ => false
def opAcquires : LockOp → Bool
  | .acquire .. | .matrix _ => true
  | _ => false
def opConverts : LockOp → Bool
  | .convert _ => true
  | _ => false
def opLeases : LockOp → Bool
  | .lease _ => true
  | _ => false
def isAnswer : LockRep → Bool
  | .answer .. => true
  | _ => false
def isWound : LockRep → Bool
  | .wound .. => true
  | _ => false
def isRecall : LockRep → Bool
  | .recall .. => true
  | _ => false
def isIncrement (f : Flit) : Bool :=
  f.hdr.kind == 4 && match f.body with
    | .incr .. => true
    | _ => false
def isTrig (f : Flit) : Bool :=
  match f.body with
  | .trig => true
  | _ => false

/-- A reply to the sender of `f`: its kind and body; it goes back to where `f` came from. -/
def Answers (m : Msg) (f : Flit) (kind : BitVec 4) (b : Body) : Prop :=
  m.hdr.kind = kind ∧ m.hdr.dpkg = f.hdr.spkg ∧ m.hdr.dtile = f.hdr.stile ∧ m.body = b
/-- Tile `n` sends one reply to `f`, and of memory's FULL bits none changes. -/
def Replies (s u : State) (n : Nat) (f : Flit) (kind : BitVec 4) (b : Body) : Prop :=
  ∃ m, Answers m f kind b ∧ (u.getTile n).vn1 = (s.getTile n).vn1 ++ [m]
/-- A tile's memory unit takes requests: it is a tile of some partition, not frozen, with its reserved slot free, and `f` comes from another
tile of the package. -/
def AtUnit (s : State) (n : Nat) (f : Flit) : Prop :=
  n < Config.tiles ∧ (s.partOf n).isSome = true ∧ (s.getTile n).frozen = false ∧
    (s.getTile n).land.reserved = none ∧ f.hdr.stile.toNat ≠ n ∧ f.hdr.spkg.toNat = s.pkg
/-- And nothing waits there. -/
def Serves (s : State) (n : Nat) (f : Flit) : Prop := AtUnit s n f ∧ (s.getTile n).mu.waiters = []
/-- A range of `k` lies in the pool of tile `n`, with no uncorrectable location. -/
def InPool (s : State) (n k len : Nat) : Prop := poolTile k = some n ∧ k + len ≤ poolBase n + 2 ^ 21 ∧ Sound s k len
/-- A range of `k` lies in one page of HBM whose group, if it is a job's, runs no snapshot, with no uncorrectable location. -/
def InHbm (s : State) (k len : Nat) : Prop :=
  poolTile k = none ∧ (∀ e, s.groupOfPage k = some e → s.snapping e = false) ∧ Sound s k len ∧ k % 2 ^ 16 + len ≤ 2 ^ 16
/-- And it may be written: its page can be saved whole for a snapshot that still needs it (R310). -/
def InHbmToWrite (s : State) (k len : Nat) : Prop := InHbm s k len ∧ Sound s (k / 2 ^ 16 * 2 ^ 16) (2 ^ 16)
/-- No lease of another die is in the way of `f`'s access to some keys at die `d` (R121). -/
def NoLease (s : State) (d : Nat) (f : Flit) (keys : List Nat) (write : Bool) : Prop :=
  (s.getDie d).newel.conflicts f.hdr.spkg.toNat (dieOfTile f.hdr.stile.toNat) keys write = []
/-- Memory after byte ranges are written in order. -/
def afterWrites (m : Nat → Byte) : List (Nat × List Byte) → Nat → Byte
  | [] => m
  | p :: ps => afterWrites (fun a => if p.1 ≤ a ∧ a < p.1 + p.2.length then p.2.getD (a - p.1) 0 else m a) ps
/-- The little-endian value of `n` bytes of a memory (R9). -/
def valueOf (m : Nat → Byte) (k : Nat) : Nat → Nat
  | 0 => 0
  | n + 1 => (m k).toNat + 256 * valueOf m (k + 1) n
/-- Memory after lanes are added to it in lane order, each to what those before it left (R221, R222). -/
def afterLanes (t : ElemType) (m : Nat → Byte) : List (Nat × Word) → Nat → Byte
  | [] => m
  | l :: ls =>
    let n := t.width / 8
    let x := laneSum t (valueOf m l.1 n) l.2.toNat
    afterLanes t (fun a => if l.1 ≤ a ∧ a < l.1 + n then BitVec.ofNat 8 (x / 256 ^ (a - l.1)) else m a) ls
/-- Memory is `m` after the event, and FULL as before. -/
def Holds (s u : State) (m : Nat → Byte) : Prop := (∀ a, u.byteAt a = m a) ∧ u.empty = s.empty
/-- Neither memory nor FULL changes. -/
def Still (s u : State) : Prop := u.mem = s.mem ∧ u.empty = s.empty
/-- What a full/empty form that goes on answers from key `k`: the reply's kind and its body (R190, R205). -/
def feSays (s : State) (op : FeOp) (k : Nat) : BitVec 4 × RepVal :=
  match op with
  | .lddW | .lddWc | .lddT | .lddTc => (8, .val (BitVec.ofNat 64 (valueAt s k 8)) 0)
  | .fetest => (8, .val (truth (s.full (granule k) = true)) 0)
  | .stdF | .stdWf | .feset | .feclr | .waitf => (9, .done)
/-- Die `d`'s memory node answers `f`. -/
def NodeReplies (s u : State) (d : Nat) (f : Flit) (kind : BitVec 4) (b : Body) : Prop :=
  ∃ m, Answers m f kind b ∧ (u.getDie d).memory.out = (s.getDie d).memory.out ++ [m]
/-- A counter update that came with a transfer: made at once, with what `then_` says of the tile's replies, or held behind others while the action
queue is full, with its reply (R90). -/
def CountedOnce (s u : State) (n cid : Nat) (ftag : BitVec 12) (made : Prop) (held : Option Msg → Prop) : Prop :=
  let x := (s.getTile n).cnt
  let y := (u.getTile n).cnt
  let k := x.get cid
  let r := fired { k with value := k.value + 1 } cid ftag
  (x.held = [] → x.actions.length < Config.actionRoom → y.get cid = r.1 ∧ y.actions = x.actions ++ r.2 ∧
    (∀ j, j ≠ cid → y.get j = x.get j) ∧ made) ∧
  (x.held ≠ [] ∨ Config.actionRoom ≤ x.actions.length → ∃ m, held m ∧
    y = { x with held := x.held ++ [{ cid := cid, amount := 1, ftag := ftag, reply := m, seq := none }] } ∧
    (u.getTile n).vn1 = (s.getTile n).vn1)

/-! ### The waiters of a granule (R112, R113) -/

/-- The waiters that go on once their granule is full, oldest first: up to the first that clears FULL. -/
def goOn : List Waiter → List Waiter
  | [] => []
  | v :: vs => match v.op with
    | .fe .lddWc _ _ => [v]
    | _ => v :: goOn vs
/-- Whether a waiter clears FULL. -/
def clears (v : Waiter) : Bool :=
  match v.op with
  | .fe .lddWc _ _ => true
  | _ => false
/-- A waiter of another tile's for granule `g` to be full. -/
def ForFull (s : State) (n g : Nat) (v : Waiter) : Prop :=
  (v.hdr.stile.toNat ≠ n ∧ v.hdr.spkg.toNat = s.pkg) ∧
    ∃ o a w, v.op = .fe o a w ∧ (o = .lddW ∨ o = .lddWc ∨ o = .waitf) ∧ granule a = g ∧ InPool s n a 8
/-- Granule `g` of tile `n` has been set full: the waiters that go on have left the list and are answered in order with the data as it now is,
after `first`; the others wait as before, and FULL is clear if one of the answered cleared it. -/
def Wakes (s u : State) (n g : Nat) (first : List Msg) : Prop :=
  let ws := (s.getTile n).mu.waiters
  (u.getTile n).mu.waiters = ws.drop (goOn ws).length ∧ FullIs s u [g] ((goOn ws).all fun v => !clears v) ∧
    ∃ ms, (u.getTile n).vn1 = (s.getTile n).vn1 ++ first ++ ms ∧ ms.length = (goOn ws).length ∧
      ∀ (i : Nat) (m : Msg) (v : Waiter) (o : FeOp) (a : Nat) (w : Word), ms[i]? = some m → (goOn ws)[i]? = some v → v.op = .fe o a w →
        m.hdr.kind = (feSays u o a).1 ∧ m.hdr.dpkg = v.hdr.spkg ∧ m.hdr.dtile = v.hdr.stile ∧ m.body = .reply v.tag (feSays u o a).2
/-- Die `d`'s Newel instance sends one more message. -/
def NewelSends (s u : State) (d : Nat) (m : Msg) : Prop := (u.getDie d).newel.out = (s.getDie d).newel.out ++ [m]
/-- A lock answer of die `d` to the request `r` of `f`: status and mode (R261, R268). -/
def LockAnswer (m : Msg) (f : Flit) (r : LockReq) (status : Nat) (mode : BitVec 3) : Prop :=
  Answers m f 10 (.lockReply (.answer r.tag r.name r.handle status mode))


/-! ### Events of a tile (R74 to R81, R86, R90, R103, R117, R198, R265) -/

/-- A tile acts for its job: its partition is not sealed and it is not frozen (R99, R289). -/
def Acts (s : State) (t : Nat) : Prop := s.sealedTile t = false ∧ (s.getTile t).frozen = false
/-- The event `i` changes context `c` of tile `t` to `k`, and nothing else. -/
def Turns (i : Instr) (s : State) (t c : Nat) (k : Ctx) : Prop := exec i s = .next (s.setCtx t c k)
/-- A tile has an ordinary slot for one more message of a priority, and nothing spilled or waiting to be placed. -/
def SlotFor (s : State) (t p : Nat) : Prop :=
  let x := s.getTile t
  (x.land.slots.filter fun e => e.prio == p).length < x.regs.depth p ∧ x.land.spill = [] ∧ x.land.again = []
/-- The message at the head of a queue (R72): the first of its priority in arrival order that no context runs. -/
def HeadOf (x : Tile) (p : Nat) (e : Entry) : Prop := x.land.slots.find? (fun e => e.prio == p && e.ctx.isNone) = some e
/-- A message that may be dispatched in a cycle: all its flits are there, its cycle has come, and nothing holds it. -/
def MayRun (e : Entry) (now : Nat) : Prop :=
  e.present.length = e.hdr.nflit.toNat + 1 ∧ e.ready ≤ now ∧ e.unread = false ∧ e.hold = false
/-- The registers of R81 and R98 of a context that starts with message `e`, whose header its job reads as `h`, under a class-table word. -/
def Starts (k : Ctx) (s : State) (t : Nat) (j : Job) (e : Entry) (h : Header) (entry : Word) : Prop :=
  let w := fun i => e.words.getD i 0
  let seed := fun g2 => j.srseed ^^^ g2 ^^^ (s.tileId t <<< 36) ^^^ at_ 28 h.cls
  k.run = .ready ∧ k.sys = entry.getLsbD 4 ∧ k.v = .replicate 16 0 ∧ k.k = .replicate 8 0 ∧ k.loop0 = ⟨false, 0, 0, 0⟩ ∧
    k.loop1 = ⟨false, 0, 0, 0⟩ ∧ k.ut = ⟨0, 0, false, 0, 0, 0⟩ ∧ k.txh = 0 ∧ k.fpm = 0 ∧ k.fpf = 0 ∧ k.key = e.key ∧ k.sends = [] ∧
    k.committed = false ∧ k.born = s.cycle ∧ k.avail = s.cycle + 1 ∧ k.hlimit = (s.getTile t).regs.hlimit.toNat ∧
    (h.kind ≠ 6 → k.pc = BitVec.ofNat 56 (entry.toNat / 256) ∧ k.rd 1 = h.h0 ∧ (∀ i : Fin 6, k.rd (BitVec.ofNat 4 (2 + i.val)) = w i.val) ∧
      (∀ i : Fin 8, k.rd (BitVec.ofNat 4 (8 + i.val)) = 0) ∧ k.srng = if seed (w 0) = 0 then 1 else seed (w 0)) ∧
    (h.kind = 6 → k.pc = BitVec.ofNat 56 ((w 0).toNat / 2 * 2) ∧ (∀ i : Fin 15, k.rd (BitVec.ofNat 4 (1 + i.val)) = w (1 + i.val)) ∧
      k.srng = if seed (w 2) = 0 then 1 else seed (w 2))
/-- The report of an advisory AGE trap or of a refused XLATE enters the outbound queue, behind the accesses `after`: its class and its
words. -/
def ReportsTo (s u : State) (t : Nat) (j : Job) (ws : List Word) (after : List Nat) : Prop :=
  ∃ q, (u.getTile t).outq = (s.getTile t).outq ++ [q] ∧ q.after = after ∧ q.msg.hdr.cls = 0xFE ∧ q.msg.hdr.kind = 0 ∧
    q.msg.hdr.dtile = BitVec.ofNat 12 (s.realTile t j.trapt) ∧
    q.msg.body = .words ((at_ 56 (s.getTile t).lost ||| ws.headD 0) :: ws.drop 1)
/-- A tile's reports pass at once: none waits, and the outbound queue has room. -/
def ReportRoom (s : State) (t : Nat) : Prop := (s.getTile t).reports = [] ∧ (s.getTile t).outq.length < Config.outboundRoom

/-! ### Engine commands (R227 to R245) -/

/-- The address names `n` bytes of tile `t`'s own scratchpad, aligned to `al`; its place in memory. -/
def OwnOf (s : State) (t : Nat) (a : Addr) (n al : Nat) : Prop :=
  inTileSpace a = true ∧ s.pkgOn t (tsPkg a) = s.pkg ∧ s.inPartition t s.pkg (s.tileOn t s.pkg (tsTile a)) = true ∧
    s.tileOn t s.pkg (tsTile a) = t ∧ tsZero a = true ∧ tsOff a + n ≤ s.scratch t ∧ a.toNat % al = 0
def keyOf (t : Nat) (a : Addr) : Nat := poolBase t + tsOff a
/-- The command at the front of tile `t`'s chain is `k`, of opcode `op`, and may run: a tile that acts, with a job; the command passed its
post checks, waits for nothing, and has the leave its cost asks for. -/
def FrontRuns (s : State) (t op : Nat) (k : Cmd) : Prop :=
  Acts s t ∧ (s.jobOf t).isSome = true ∧ (∃ ks, (s.getTile t).matrix.cmds = k :: ks) ∧ recOp k.record = op ∧ k.bad = false ∧ k.dead = false ∧
    k.xlate = false ∧ k.result = none ∧ (k.leave = .granted ∨ k.leave = .notAsked ∧ matrixCost k.record ≤ 0x10000) ∧
    s.matrixCheck t k = .ok ∧ ∀ p ∈ s.matrixReads t k.record, Sound s p.1 p.2
/-- The front command of the chain now has a result; memory, FULL bits and everything outside the tile are as they were. -/
def Ran (s u : State) (t : Nat) (k : Cmd) (res : RunResult) : Prop :=
  (u.getTile t).matrix.cmds.head? = some { k with result := some res } ∧ SameOutside s u t
/-- The MMA events and their opcodes (R230). -/
def mmaOf (t op : Nat) (i : Instr) : Prop :=
  op = 1 ∧ i = .mmaBf16 t ∨ op = 2 ∧ i = .mmaF16 t ∨ op = 3 ∧ i = .mmaE4m3 t ∨ op = 4 ∧ i = .mmaE5m2 t ∨ op = 5 ∧ i = .mmaE4e5 t ∨
    op = 6 ∧ i = .mmaMxf4 t ∨ op = 7 ∧ i = .mmaQ4o t ∨ op = 8 ∧ i = .mmaF32 t ∨ op = 9 ∧ i = .mmaF64 t ∨ op = 10 ∧ i = .mmaSpBf16 t ∨
    op = 11 ∧ i = .mmaSpE4m3 t
/-- Bits [hi:lo] of word `w` of a record. -/
def bits (r : List Word) (w hi lo : Nat) : Nat := (r.getD w 0).toNat / 2 ^ lo % 2 ^ (hi - lo + 1)
/-- Element formats of A and B and the group size of an MMA opcode (R60, R230). -/
def mmaFormats (op : Nat) : Fmt × Fmt × Nat :=
  match op with
  | 1 => (fmtBf16, fmtBf16, 1) | 2 => (fmtF16, fmtF16, 1) | 3 => (fmtE4m3, fmtE4m3, 2) | 4 => (fmtE5m2, fmtE5m2, 2)
  | 5 => (fmtE4m3, fmtE5m2, 2) | 8 => (fmtF32, fmtF32, 1) | 9 => (fmtF64, fmtF64, 1) | 10 => (fmtBf16, fmtBf16, 2)
  | _ => (fmtE4m3, fmtE4m3, 2)
/-- Element `e` of line `i` of an operand in a plain format (R231): k-major lines lie across the pitch. -/
def plainElement (s : State) (f : Fmt) (key : Nat) (kmaj : Bool) (pitch i e : Nat) : FV :=
  let n := f.width / 8
  fdec f (valueAt s (key + if kmaj then e * pitch + i * n else i * pitch + e * n) n)
/-- Element `e` of line `i` of a block-scaled operand (R233, R47 to R50): blocks of `len`, a scale byte each. -/
def blockElement (s : State) (q4o : Bool) (len key scale pitch kk i e : Nat) : FV :=
  let nb := (kk + len - 1) / len
  let codes := nibbles (s.read (key + i * pitch) (kk / 2))
  let b := e / len
  (decodeBlock q4o (s.byteAt (scale + i * nb + b)).toNat ((codes.drop (b * len)).take len)).1.getD (e % len) (.num false 0 0)
/-- Element `e` of row `i` of A (`w` 1) or column `i` of B (`w` 3) of an MMA command of tile `t`. -/
def mmaElement (s : State) (t : Nat) (r : List Word) (w i e : Nat) : FV :=
  let op := bits r 0 7 0
  let key := s.operandKey t (r.getD w 0)
  let pitch := bits r (w + 1) 31 0
  if op = 6 ∨ op = 7 then
    blockElement s (op == 7) ((blockLen (bits r 1 59 56)).getD 128) key (s.operandKey t (r.getD (if w = 1 then 5 else 6) 0)) pitch
      (bits r 0 63 48) i e
  else plainElement s (if w = 1 then (mmaFormats op).1 else (mmaFormats op).2.1) key (bits r (w + 1) 63 63 == 1) pitch i e
/-- The products of cell (i, j), in groups (R60, R232, R234). -/
def mmaGroups (s : State) (t : Nat) (r : List Word) (i j : Nat) : List (List (FV × FV)) :=
  let op := bits r 0 7 0
  let kk := bits r 0 63 48
  let a := mmaElement s t r 1 i
  let b := mmaElement s t r 3 j
  if op = 10 ∨ op = 11 then
    (List.range (kk / 4)).map fun g =>
      let y := (s.byteAt (s.operandKey t (r.getD 5 0) + i * (kk / 8) + g / 2)).toNat
      let n := if g % 2 = 0 then y % 16 else y / 16
      [(a (2 * g), b (4 * g + n % 4)), (a (2 * g + 1), b (4 * g + n / 4))]
  else
    let len := if op = 6 ∨ op = 7 then 8 else (mmaFormats op).2.2
    (List.range (kk / len)).map fun g => (List.range len).map fun e => (a (len * g + e), b (len * g + e))
/-- The cells a command writes back, row by row: `v i j` is the new value of cell (i, j) (R227). -/
def CellsAre (s : State) (t : Nat) (r : List Word) (res : RunResult) (v : Nat → Nat → Nat) : Prop :=
  let w := if recF64 r then 8 else 4
  res.code = 0 ∧ res.cells.length = bits r 0 39 32 ∧
    ∀ i, i < bits r 0 39 32 → res.cells[i]? =
      some (poolBase t + s.scratch t + bits r 0 23 16 * 4096 + i * 32 * w,
        (List.range (bits r 0 47 40)).flatMap fun j => leBytes w (v i j))
/-- The value cell (i, j) of accumulator tile `acc` holds. -/
def cellIs (s : State) (t : Nat) (r : List Word) (acc i j : Nat) : Nat :=
  let w := if recF64 r then 8 else 4
  valueAt s (poolBase t + s.scratch t + acc * 4096 + (i * 32 + j) * w) w
def accFmt (r : List Word) : Fmt := if recF64 r then fmtF64 else fmtF32

/-- The copy events and their opcodes (R241). -/
def copyOf (t n op : Nat) (i : Instr) : Prop :=
  op = 1 ∧ i = .copy1d t n ∨ op = 2 ∧ i = .copy2d t n ∨ op = 3 ∧ i = .fill t n ∨ op = 4 ∧ i = .gatherrows t n ∨ op = 5 ∧ i = .scatterrows t n
/-- Copy command `n` of tile `t` is `k`, of opcode `op`, and may go on. -/
def CopyRuns (s : State) (t n op : Nat) (k : Cmd) : Prop :=
  Acts s t ∧ (s.jobOf t).isSome = true ∧ (s.getTile t).copy.cmds.find? (·.seq == n) = some k ∧ recOp k.record = op ∧ k.bad = false ∧
    k.dead = false ∧ k.xlate = false ∧ k.result = none ∧ k.tags = [] ∧
    (k.leave = .granted ∨ k.leave = .notAsked ∧ copyCost k.record ≤ 0x10000)
/-- The source and destination address of row `i` (R242): GATHERROWS and SCATTERROWS take a signed row number from their list. -/
def listed (s : State) (t : Nat) (r : List Word) (i : Nat) : Int :=
  (BitVec.ofNat 32 (valueAt s (s.operandKey t (r.getD 5 0) + 4 * i) 4)).toInt
def rowFrom (s : State) (t : Nat) (r : List Word) (i : Nat) : Addr :=
  BitVec.ofInt 56 ((adr (r.getD 1 0)).toInt + (if recOp r = 4 then listed s t r i else i) * bits r 4 31 0)
def rowTo (s : State) (t : Nat) (r : List Word) (i : Nat) : Addr :=
  BitVec.ofInt 56 ((adr (r.getD 2 0)).toInt + (if recOp r = 5 then listed s t r i else i) * bits r 4 63 32)
/-- The bytes a row writes (R242, R243): a FILL pattern; the source bytes; or each element converted with the command's rounding and SAT. -/
def copied (r : List Word) (src : List Byte) : List Byte :=
  let count := bits r 3 31 0
  let pattern := (r.getD 5 0).toNat
  let sf := fmtOfCode (bits r 1 63 60)
  let df := fmtOfCode (bits r 2 63 60)
  let w := df.width / 8
  let v := sf.width / 8
  if copyKind r = .convert then
    (List.range count).flatMap fun e =>
      leBytes w (fcvt sf df (if bits r 0 17 16 = 1 then .rtz else .rne) (bits r 0 10 10 == 1) (leNat ((src.drop (e * v)).take v))).1
  else if recOp r = 3 then
    if dstHalf r = 1 then List.replicate (count / 2) (BitVec.ofNat 8 (pattern % 16 * 17))
    else (List.replicate count (leBytes (dstHalf r / 2) pattern)).flatten
  else src
/-- FULL is set of the granules that meet `p`; of the others it is as in `s`. -/
def FullBecause (s u : State) (p : Nat → Prop) : Prop := ∀ g, (p g → u.full g = true) ∧ (¬ p g → u.full g = s.full g)

/-! ### Fabric, links and platform (R341 to R357) -/

/-- The event `i` changes port `p` to `q`, and nothing else. -/
def PortTurns (i : Instr) (s : State) (p : Nat) (q : Port) : Prop := exec i s = .next (s.modPort p fun _ => q)
/-- A tile with nothing to inject or report. -/
def Quiet (x : Tile) : Prop := x.vn1 = [] ∧ x.outFl = [] ∧ x.outq = [] ∧ x.mu.queue = [] ∧ x.reports = []
/-- Nothing waits to be injected anywhere, and no frame to be sent. -/
def NothingToInject (s : State) : Prop :=
  (∀ e ∈ s.tiles, Quiet e.2) ∧ (∀ d, (s.getDie d).newel.out = [] ∧ (s.getDie d).memory.out = [] ∧ (s.getDie d).memory.outFl = []) ∧
    s.vest.out = [] ∧ s.vest.outFl = [] ∧ (∀ p, (s.getPort p).rx = [] ∧ (s.getPort p).tx = []) ∧ s.fabric.fwd = [] ∧ s.fabric.forwards = []
/-- A flit on its way through router `r` to another router of the package, that passes its check; `ds` are the outputs that shorten its way
(R342). -/
def Passing (s : State) (r : Nat) (f : Flit) (ds : List Nat) : Prop :=
  Flit.fails f = false ∧ f.hdr.dpkg.toNat = s.pkg ∧ ∃ t, s.fabric.nodeRouter f.hdr.dtile.toNat = some t ∧ t ≠ r ∧ productive r t = ds
/-- The place of a flit at the router next to `r` by an output. -/
def sentOn (r dir : Nat) (f : Flit) : Transit := { x := routerX (hop r dir), y := routerY (hop r dir), flit := f }

/-! ### Work queues (R320 to R331) -/

/-- The packet `b` at the head of queue `n`, which is `q`. -/
def headPkt (n : Nat) (q : Queue) (b : List Byte) : Pkt := { n := n, idx := q.headIdx, owner := q.owner, bytes := b }
/-- No byte of HBM is uncorrectable: the Vestibule's own writes meet no such data (R285). -/
def HbmSound (s : State) : Prop := Sound s 0 Config.hbmBytes
/-- The packet `b` stands at the start of queue `n`, which is `q`: whole, in order, passing the checks of BADPKT and PERM (R323 to R325, R360),
with nothing at work before it. -/
def Starting (s : State) (n : Nat) (q : Queue) (b : List Byte) (c : VCmd) : Prop :=
  s.queue n = some q ∧ s.headOf n = .packet b ∧ pktCmd b = c ∧ pktOk b = true ∧ s.pktBad (headPkt n q b) = false ∧ pktPerm q.owner b = true ∧
    q.pend = [] ∧ q.former = [] ∧ HbmSound s
/-- COMPL of the packet whose first unit is at `addr` of a queue of `owner` holds DONE, the status and VALUE (R323, R326), where its word does
not lie in the words of the control block that the Vestibule writes. -/
def Answered (s u : State) (owner ctl addr status value : Nat) : Prop :=
  ∀ k, s.queueKey owner (addr + 56) = some k → k + 8 ≤ ctl + 16 ∨ ctl + 32 ≤ k → Memory.wf s.mem = true →
    u.read64 k = BitVec.ofNat 64 (value % 2 ^ 32 * 2 ^ 32 + 0x8000 + status)
/-- The packet `b` of queue `n` has started and completed with a status and VALUE: HEAD stands past it. -/
def Completed (s u : State) (n : Nat) (q : Queue) (b : List Byte) (status value : Nat) : Prop :=
  (∃ y, u.queue n = some y ∧ y.pend = [] ∧ y.former = [] ∧ y.head = q.head + BitVec.ofNat 32 (b.length / 64) ∧
    y.start = q.start + BitVec.ofNat 32 (b.length / 64) ∧ y.base = q.base ∧ y.owner = q.owner) ∧
    Answered s u q.owner q.ctl (q.unitAddr q.start) status value
/-- The packet `b` of queue `n` has started and is at work, with a mark. -/
def AtWork (u : State) (n : Nat) (q : Queue) (b : List Byte) (mark : Nat) : Prop :=
  ∃ y, u.queue n = some y ∧ y.head = q.head ∧ y.start = q.start + BitVec.ofNat 32 (b.length / 64) ∧ y.former = [] ∧
    y.pend = [{ idx := q.headIdx, owner := q.owner, addr := q.unitAddr q.start, units := b.length / 64, bytes := b, done := false, mark := mark }]
/-- The packet `k` of a command is the one at work on queue `n`, and the matching store takes the token of its end (R334). -/
def Working (s : State) (n : Nat) (q : Queue) (k : Packet) (c : VCmd) : Prop :=
  s.queue n = some q ∧ q.pend = [k] ∧ q.former = [] ∧ k.done = false ∧ k.owner = q.owner ∧ pktCmd k.bytes = c ∧ pktOk k.bytes = true ∧
    pktPerm k.owner k.bytes = true ∧ s.hasToken = true ∧ HbmSound s
/-- It has completed with a status and VALUE. -/
def Finished (s u : State) (n : Nat) (q : Queue) (k : Packet) (status value : Nat) : Prop :=
  (∃ y, u.queue n = some y ∧ y.pend = [] ∧ y.former = [] ∧ y.head = q.head + BitVec.ofNat 32 k.units ∧ y.start = q.start) ∧
    Answered s u q.owner q.ctl k.addr status value
/-- A message the Vestibule sends to a tile of a package: its class, frame tag and payload (R327, R330). -/
def VestMessage (s : State) (m : Msg) (cls : BitVec 8) (tag : Nat) (d : Nat × Nat) (ws : List Word) : Prop :=
  m.hdr.kind = 0 ∧ m.hdr.cls = cls ∧ m.hdr.ftag = BitVec.ofNat 12 tag ∧ m.hdr.dpkg = BitVec.ofNat 15 d.1 ∧
    m.hdr.dtile = BitVec.ofNat 12 d.2 ∧ m.hdr.spkg = BitVec.ofNat 15 s.pkg ∧ m.hdr.stile = 0xFE0 ∧
    ∃ pad, m.body = .words (ws ++ pad) ∧ ∀ w ∈ pad, w = 0

end Sys2Proof.Claims

open Sys2Proof Sys2Proof.Machine Sys2Proof.Claims

/-! ### Integer instructions -/

/-- R166, R167, R168, R142: each INT member from ADD to PFMT, and each compressed arithmetic instruction, writes its result to gD and nothing else
but the PC; PTAG, BFX, BFXS and BFI do so with legal operands, and raise ILLOPERAND with others. -/
def Obligations.IntegerResults : Prop :=
  ((∀ (i : Instr) (s : State) (d : Reg) (w : Word), intResult s.cur.rd i = some (d, w) → Becomes i s (goesOn (s.cur.wr d w) 4)) ∧
   (∀ (i : Instr) (s : State) (d : Reg) (w : Word), compressedResult s.cur.rd i = some (d, w) → Becomes i s (goesOn (s.cur.wr d w) 2))) ∧
  (∀ (s : State) (d a b c : Reg),
     (∀ tag : Byte, s.cur.rd b = BitVec.ofNat 64 tag.toNat →
       Becomes (.ptag d a b) s (goesOn (s.cur.wr d (tag ++ (s.cur.rd a).extractLsb' 0 56)) 4)) ∧
     (256 ≤ (s.cur.rd b).toNat → Traps (.ptag d a b) s trapIllOperand) ∧
     (∀ pos len : Nat, controlOk pos len → s.cur.rd c = control pos len →
       Becomes (.bfx d a c) s (goesOn (s.cur.wr d (BitVec.ofNat 64 (field (s.cur.rd a) pos len))) 4) ∧
       Becomes (.bfxs d a c) s (goesOn (s.cur.wr d (BitVec.ofInt 64 (fieldS (s.cur.rd a) pos len))) 4) ∧
       ∃ w : Word, (∀ i, i < 64 → w.getLsbD i = fieldPut (s.cur.rd a) (s.cur.rd b) pos len i) ∧
         Becomes (.bfi d a b c) s (goesOn (s.cur.wr d w) 4)) ∧
     ((∀ pos len : Nat, controlOk pos len → s.cur.rd c ≠ control pos len) →
       Traps (.bfx d a c) s trapIllOperand ∧ Traps (.bfxs d a c) s trapIllOperand ∧ Traps (.bfi d a b c) s trapIllOperand))

/-- R169, R155: each immediate or address instruction writes its result to gD; MOVK replaces one 16-bit lane. -/
def Obligations.ImmediateResults : Prop :=
  (∀ (i : Instr) (s : State) (d : Reg) (w : Word), immResult s.cur.rd s.cur.pc i = some (d, w) →
    Becomes i s (goesOn (s.cur.wr d w) 4)) ∧
  ∀ (s : State) (d : Reg) (i : BitVec 16) (p : BitVec 2), ∃ w : Word,
    (∀ j, j < 64 → w.getLsbD j = if j / 16 = p.toNat then i.getLsbD (j % 16) else (s.cur.rd d).getLsbD j) ∧
    Becomes (.movk d i p) s (goesOn (s.cur.wr d w) 4)


/-! ### Branches, jumps and loops -/

/-- R170, R171, R142: a branch is taken or falls through as its condition says; an integer one changes only the PC and the loop registers, a
floating one also ORs its comparison's flags into FPF whether or not it is taken. BL, JR, C.RET and JLR: an odd target raises ALIGN with no
effect; else the link is written after the target is read, and control goes to bits [55:0] of the target. -/
def Obligations.BranchesAndJumps : Prop :=
  ((∀ (i : Instr) (s : State) (taken : Bool) (pc : Addr) (len : Nat), branchOf s.cur.rd s.cur.pc i = some (taken, pc, len) →
      Becomes i s (if taken then jumps s.cur pc else goesOn s.cur len)) ∧
   (∀ (i : Instr) (s : State) (c : FCond) (p : Prec) (x y : Reg) (off : BitVec 12), fbranchOf i = some (c, p, x, y, off) →
      let r := fcondHolds c p (s.cur.rd x) (s.cur.rd y)
      let k := { s.cur with fpf := s.cur.fpf ||| r.2 }
      Becomes i s (if r.1 then jumps k (relative s.cur.pc off) else goesOn k 4))) ∧
  (∀ (s : State) (d a : Reg) (off : BitVec 24),
     let link : Word := BitVec.ofNat 64 (s.cur.pc + 4).toNat
     Becomes (.bl off) s (jumps (s.cur.wr 15 link) (relative s.cur.pc off)) ∧
     ((s.cur.rd a).toNat % 2 = 0 → Becomes (.jr a) s (jumps s.cur ((s.cur.rd a).setWidth 56)) ∧
       Becomes (.jlr d a) s (jumps (s.cur.wr d link) ((s.cur.rd a).setWidth 56))) ∧
     ((s.cur.rd 15).toNat % 2 = 0 → Becomes .cRet s (jumps s.cur ((s.cur.rd 15).setWidth 56))) ∧
     ((s.cur.rd a).toNat % 2 = 1 → Traps (.jr a) s (trapAlign ((s.cur.rd a).setWidth 56)) ∧
       Traps (.jlr d a) s (trapAlign ((s.cur.rd a).setWidth 56))) ∧
     ((s.cur.rd 15).toNat % 2 = 1 → Traps .cRet s (trapAlign ((s.cur.rd 15).setWidth 56))))

/-- R173 to R176: LOOP writes its level's loop registers and enters the body, skips it for a count of 0, and raises ILLOPERAND for a count of
2^32 or more. The end-of-body tests of an instruction whose next sequential PC is `pc`: none during a user trap; a level that ends its body
there is tested, the one entered last first, and the other only if the first did not branch back. Where execution goes to `pc`, an active
level whose body [LB, LE) does not hold `pc` is abandoned, with its COUNT, LB and LE kept; no other register changes. -/
def Obligations.Loops : Prop :=
  (∀ (s : State) (c : Reg) (len : BitVec 16),
     let m := s.cur.rd c
     let lb := s.cur.pc + 4
     let le := s.cur.pc + 4 + BitVec.ofNat 56 (2 * len.toNat)
     let l : Loop := { act := decide (m ≠ 0), count := m.extractLsb' 0 32, lb := lb, le := le }
     (2 ^ 32 ≤ m.toNat → Traps (.loop0 c len) s trapIllOperand ∧ Traps (.loop1 c len) s trapIllOperand) ∧
     (m.toNat < 2 ^ 32 → m ≠ 0 →
       Becomes (.loop0 c len) s (goesOnAt { s.cur with loop0 := l, newer1 := false } lb) ∧
       Becomes (.loop1 c len) s (goesOnAt { s.cur with loop1 := l, newer1 := true } lb)) ∧
     (m = 0 →
       Becomes (.loop0 c len) s (goesOnAt { s.cur with loop0 := l } le) ∧ Becomes (.loop1 c len) s (goesOnAt { s.cur with loop1 := l } le))) ∧
  ((∀ (c : Ctx) (pc : Addr),
      (c.ut.act = true → c.seqTo pc = { c with pc := pc }) ∧
      (c.ut.act = false →
        (¬ endsAt c.loop0 pc → ¬ endsAt c.loop1 pc → c.seqTo pc = c.goto pc) ∧
        (endsAt c.loop0 pc → 2 ≤ c.loop0.count.toNat → (c.newer1 = false ∨ ¬ endsAt c.loop1 pc) →
          c.seqTo pc = { c with loop0 := tested c.loop0 }.goto c.loop0.lb) ∧
        (endsAt c.loop1 pc → 2 ≤ c.loop1.count.toNat → (c.newer1 = true ∨ ¬ endsAt c.loop0 pc) →
          c.seqTo pc = { c with loop1 := tested c.loop1 }.goto c.loop1.lb) ∧
        (endsAt c.loop0 pc → c.loop0.count.toNat ≤ 1 → ¬ endsAt c.loop1 pc →
          c.seqTo pc = { c with loop0 := tested c.loop0 }.goto pc) ∧
        (endsAt c.loop1 pc → c.loop1.count.toNat ≤ 1 → ¬ endsAt c.loop0 pc →
          c.seqTo pc = { c with loop1 := tested c.loop1 }.goto pc) ∧
        (endsAt c.loop0 pc → endsAt c.loop1 pc → c.newer1 = true → c.loop1.count.toNat ≤ 1 →
          c.seqTo pc = { c with loop0 := tested c.loop0, loop1 := tested c.loop1 }.goto
            (if c.loop0.count.toNat ≤ 1 then pc else c.loop0.lb)) ∧
        (endsAt c.loop0 pc → endsAt c.loop1 pc → c.newer1 = false → c.loop0.count.toNat ≤ 1 →
          c.seqTo pc = { c with loop0 := tested c.loop0, loop1 := tested c.loop1 }.goto
            (if c.loop1.count.toNat ≤ 1 then pc else c.loop1.lb)))) ∧
   (∀ (c : Ctx) (pc : Addr),
      (c.goto pc).pc = pc ∧ SameRegs c (c.goto pc) ∧
      (c.ut.act = true → (c.goto pc).loop0 = c.loop0 ∧ (c.goto pc).loop1 = c.loop1) ∧
      (c.ut.act = false →
        (c.goto pc).loop0 = { c.loop0 with act := c.loop0.act && decide (c.loop0.lb.toNat ≤ pc.toNat ∧ pc.toNat < c.loop0.le.toNat) } ∧
        (c.goto pc).loop1 = { c.loop1 with act := c.loop1.act && decide (c.loop1.lb.toNat ≤ pc.toNat ∧ pc.toNat < c.loop1.le.toNat) })))

/-! ### State registers -/

/-- R136: g0 reads zero and k0 all ones, and writes to them are discarded; any other register reads what was last written, and a write
changes no other register. -/
def Obligations.RegisterFiles : Prop :=
  ∀ (c : Ctx) (d r : Reg) (k j : KReg) (w : Word) (x : VReg),
    c.rd 0 = 0 ∧ c.rk 0 = BitVec.allOnes 64 ∧
    (c.wr d w).rd r = (if r = d ∧ d ≠ 0 then w else c.rd r) ∧ (c.wk k w).rk j = (if j = k ∧ k ≠ 0 then w else c.rk j) ∧
    (c.wv d x).rv r = (if r = d then x else c.rv r) ∧ c.wr 0 w = c ∧ c.wk 0 w = c ∧
    { c.wr d w with g := c.g } = c ∧ { c.wk k w with k := c.k } = c ∧ { c.wv d x with v := c.v } = c

/-- R181, R137, R138, R172, R282, R116, R23, R78, R249, R299, R286, R355: MFS writes the state register to gD and nothing else; the layout of
each of the registers as MFS reads it, with counts within the widths of their fields, and TILEID on a tile whose partition is not renamed. MTS of
a legal value writes the register, and the context goes on at the next PC, its loop registers as after any instruction but for a bound the MTS
writes, which counts from the next instruction on; no other register, context, memory or tile changes. A read-only register, a reserved bit or an
illegal QDEPTH raises ILLOPERAND. A system register at job privilege raises PRIVILEGED first. It rests on choices of the model too: log entry 52.
-/
def Obligations.StateRegisters : Prop :=
  ((∀ (s : State) (d : Reg) (e : StateReg),
      ((StateReg.privileged e = true → s.cur.sys = true) → Becomes (.mfs d e) s (goesOn (s.cur.wr d (s.stateReg e)) 4)) ∧
      (StateReg.privileged e = true → s.cur.sys = false → Traps (.mfs d e) s trapPrivileged)) ∧
   (∀ s : State,
      s.stateReg .pc = at_ 0 s.cur.pc ∧
      s.stateReg .lc0 = at_ 32 (BitVec.ofBool s.cur.loop0.act) ||| at_ 0 s.cur.loop0.count ∧
      s.stateReg .lc1 = at_ 32 (BitVec.ofBool s.cur.loop1.act) ||| at_ 0 s.cur.loop1.count ∧
      s.stateReg .lb0 = at_ 0 s.cur.loop0.lb ∧ s.stateReg .le0 = at_ 0 s.cur.loop0.le ∧
      s.stateReg .lb1 = at_ 0 s.cur.loop1.lb ∧ s.stateReg .le1 = at_ 0 s.cur.loop1.le ∧
      s.stateReg .utvec = at_ 0 s.cur.ut.vec ∧ s.stateReg .utpc = at_ 0 s.cur.ut.pc ∧ s.stateReg .utaddr = at_ 0 s.cur.ut.addr ∧
      s.stateReg .txh = s.cur.txh ∧ s.stateReg .srng = s.cur.srng ∧
      s.stateReg .utcause = at_ 16 (BitVec.ofBool s.cur.ut.act) ||| at_ 8 s.cur.ut.ucode ||| at_ 0 s.cur.ut.cause ∧
      s.stateReg .fpf = at_ 0 s.cur.fpf ∧ s.stateReg .fpm = at_ 0 s.cur.fpm ∧
      s.stateReg .partw = at_ 16 s.me.regs.pid ||| at_ 0 s.me.regs.accq ∧
      s.stateReg .xbase = at_ 49 s.me.regs.xpkg ||| at_ 10 s.me.regs.xroot ∧
      s.stateReg .asid = at_ 0 s.me.regs.asid ∧
      s.stateReg .jobid = s.me.regs.jobid ∧ s.stateReg .qdepth = at_ 0 s.me.regs.qdepth ∧ s.stateReg .agelim = at_ 0 s.me.regs.agelim ∧
      s.stateReg .promo = at_ 0 s.me.regs.promo ∧ s.stateReg .hlimit = at_ 0 s.me.regs.hlimit ∧ s.stateReg .ctxres = at_ 0 s.me.regs.ctxres ∧
      s.stateReg .errinj = at_ 8 s.me.regs.errCnt ||| at_ 0 (BitVec.ofBool s.me.regs.errEn) ∧
      s.stateReg .sysctl = at_ 32 s.me.regs.cec ||| at_ 16 s.me.regs.gold ||| at_ 4 s.me.regs.scrdiv ||| at_ 0 (BitVec.ofBool s.me.regs.scrub)) ∧
   (∀ s : State,
      let x := s.me
      let bit := fun (b : Bool) => if b then 1 else 0
      let n := fun p => (x.land.slots.filter fun e => e.prio == p).length
      let r := fun p => (x.land.spill.filter fun e => e.prio == p && !e.golden).length
      let full := fun p => decide (x.land.rings.getD p 0 ≠ 0 ∧ x.land.rings.getD p 0 ≤ r p)
      let golden := x.land.reserved.isSome || x.land.spill.any (·.golden)
      let waits := fun (k : Cmd) => match k.leave with
        | .queued _ => true
        | _ => false
      (s.ctx < 8 → (s.stateReg .ctxid).toNat = s.ctx) ∧
      ((∀ e, s.partOf s.tile = some e → e.2.rename = [] ∧ e.2.pkgNames = []) → s.pkg < 2 ^ 15 → s.tile < 2 ^ 12 →
        (s.stateReg .tileid).toNat = s.pkg * 2 ^ 12 + s.tile) ∧
      (∀ core, s.fabric.coreOf s.tile = some core → core < 304 → s.tile < Config.tiles →
        let d := dieOfTile s.tile
        (s.stateReg .tilephys).toNat = x.regs.migcnt.toNat * 2 ^ 24 + d * 2 ^ 20 + core * 2 ^ 11 + (19 * (d / 2) + core / 16) * 2 ^ 5 +
          (16 * (d % 2) + core % 16)) ∧
      ((∀ p, p < 4 → n p < 64) →
        (s.stateReg .qstat).toNat = bit golden * 2 ^ 28 + (x.ctxs.toList.filter fun k => k.idleAt s.cycle).length * 2 ^ 24 +
          n 3 * 2 ^ 18 + n 2 * 2 ^ 12 + n 1 * 2 ^ 6 + n 0) ∧
      ((∀ p, p < 4 → r p < 2 ^ 12) →
        (s.stateReg .spillst).toNat = bit (full 3) * 2 ^ 51 + bit (full 2) * 2 ^ 50 + bit (full 1) * 2 ^ 49 + bit (full 0) * 2 ^ 48 +
          r 3 * 2 ^ 36 + r 2 * 2 ^ 24 + r 1 * 2 ^ 12 + r 0) ∧
      (x.uncop.length ≤ 512 →
        (s.stateReg .snapst).toNat = x.sid.toNat * 2 ^ 32 + x.uncop.length * 2 ^ 12 + bit x.snap.logOn * 4 + bit (x.uncop != []) * 2 +
          x.snap.colour.toNat) ∧
      (x.matrix.cmds.length ≤ 64 → x.copy.cmds.length ≤ 48 →
        (s.stateReg .engst).toNat = x.copy.errs.toNat * 2 ^ 56 + x.matrix.errs.toNat * 2 ^ 48 + bit (x.copy.cmds.any waits) * 2 ^ 41 +
          bit ((x.matrix.cmds.take 1).any waits) * 2 ^ 40 + x.copy.cmds.length * 2 ^ 32 + x.matrix.cmds.length * 2 ^ 24))) ∧
  ((∀ (s : State) (e : StateReg) (a : Reg), s.cur.run = .ready → (StateReg.privileged e = true → s.cur.sys = true) →
      mtsLegal s e (s.cur.rd a) →
      ∃ t, exec (.mts e a) s = .next t ∧ readsBack e (s.cur.rd a) s t ∧
        t.cur = { ((s.cur.writeReg e (s.cur.rd a)).seq 4).writeBound e (s.cur.rd a) with run := .ready } ∧
        (∀ c, c % 8 ≠ s.ctx % 8 → t.getCtx s.tile c = s.getCtx s.tile c) ∧
        (∀ r : StateReg, r ≠ e → r ≠ .pc → r ≠ .lc0 → r ≠ .lc1 → t.stateReg r = s.stateReg r) ∧
        t.cur.g = s.cur.g ∧ t.cur.v = s.cur.v ∧ t.cur.k = s.cur.k ∧ { t.me with ctxs := s.me.ctxs, regs := s.me.regs } = s.me ∧
        SameOutside s t s.tile) ∧
   (∀ (s : State) (e : StateReg) (a : Reg),
      (StateReg.privileged e = true → s.cur.sys = false → Traps (.mts e a) s trapPrivileged) ∧
      ((StateReg.privileged e = true → s.cur.sys = true) → ¬ mtsLegal s e (s.cur.rd a) → Traps (.mts e a) s trapIllOperand)))

/-! ### Handler control -/

/-- R177, R178, R128, R194: NOP and C.NOP change nothing but the PC; YIELD and C.YIELD also move the context behind every other in the rotation.
A fence of scope 0, and any fence of a context with nothing outstanding, change nothing but the PC; a fence of a wider scope waits while an
access is outstanding (an acquiring one too, which R194 allows); FENCE.ENG waits for the context's own posts.
It rests on choices of the model too: log entry 4. -/
def Obligations.HintsAndFences : Prop :=
  (∀ s : State,
     Becomes .nop s (goesOn s.cur 4) ∧ Becomes .cNop s (goesOn s.cur 2) ∧
     let yields := fun (i : Instr) (len : Nat) => ∃ t, exec i s = .next t ∧ t.cur = goesOn s.cur len ∧
       t.me.rot = s.me.rot.filter (· != s.ctx) ++ [s.ctx] ∧ { t.me with ctxs := s.me.ctxs, rot := s.me.rot } = s.me ∧
       (∀ c, c % 8 ≠ s.ctx % 8 → t.getCtx s.tile c = s.getCtx s.tile c) ∧ SameOutside s t s.tile
     yields .yield 4 ∧ yields .cYield 2) ∧
  (∀ (s : State) (sc : Scope),
     (sc = .context ∨ s.me.outTags s.ctx = [] →
       Becomes (.fence sc) s (goesOn s.cur 4) ∧ Becomes (.fenceAcq sc) s (goesOn s.cur 4) ∧ Becomes (.fenceRel sc) s (goesOn s.cur 4)) ∧
     (sc ≠ .context → s.me.outTags s.ctx ≠ [] →
       Becomes (.fence sc) s { s.cur with run := .wait (.cond .drained) } ∧
       Becomes (.fenceAcq sc) s { s.cur with run := .wait (.cond .drained) } ∧
       Becomes (.fenceRel sc) s { s.cur with run := .wait (.cond .drained) }) ∧
     ((∀ p ∈ s.cur.posts, s.me.postDone p = true) → Becomes .fenceEng s (goesOn { s.cur with posts := [] } 4)) ∧
     ((∃ p ∈ s.cur.posts, s.me.postDone p = false) → Becomes .fenceEng s { s.cur with run := .wait (.cond .ownPosts) }))

/-- R83, R84, R177, R198: DONE and C.DONE end the handler, consume its message and put its buffered sends into the outbound queue in program
order; ABORT ends it, consumes its message and discards its buffered sends. COMMIT and C.COMMIT put the buffered sends into the outbound
queue, and the handler goes on with an empty buffer; one that buffered nothing changes only the PC (log entry 13). Nothing else of the tile
changes but the slot of a consumed message, MSEQ and the figures of its frame tag, which count the messages sent. -/
def Obligations.HandlerEnds : Prop :=
  ((∀ (i : Instr) (s : State), (i = .done ∨ i = .cDone) → Plain s → HasRoom s (sendsOf s) →
      ∃ t, exec i s = .next t ∧ Ended s t ∧ EndFrame s t ∧ (t.getTile s.tile).outq = queued s (sendsOf s) ∧
        (t.getTile s.tile).mseq = s.me.mseq + BitVec.ofNat 16 (sendsOf s).length) ∧
   (∀ s : State, Plain s → ∃ t, exec .abort s = .next t ∧ Ended s t ∧ EndFrame s t ∧ (t.getTile s.tile).outq = s.me.outq ∧
      (t.getTile s.tile).mseq = s.me.mseq ∧ (t.getTile s.tile).figs = s.me.figs)) ∧
  (∀ (i : Instr) (s : State) (len : Nat), (i = .commit ∧ len = 4 ∨ i = .cCommit ∧ len = 2) → HasRoom s (sendsOf s) →
     ∃ t, exec i s = .next t ∧ t.cur = goesOn { s.cur with sends := [], committed := s.cur.committed || s.cur.sends != [] } len ∧
       (t.getTile s.tile).outq = queued s (sendsOf s) ∧ (t.getTile s.tile).land = s.me.land ∧ SameOutside s t s.tile ∧
       (∀ c, c % 8 ≠ s.ctx % 8 → t.getCtx s.tile c = s.getCtx s.tile c) ∧
       { t.me with ctxs := s.me.ctxs, outq := s.me.outq, mseq := s.me.mseq, figs := s.me.figs } = s.me ∧
       t.me.mseq = s.me.mseq + BitVec.ofNat 16 (sendsOf s).length ∧
       (s.cur.sends = [] → t.me.outq = s.me.outq ∧ t.me.mseq = s.me.mseq ∧
         ∀ g, (mget t.me.figs g).getD (0, 0) = (mget s.me.figs g).getD (0, 0)))

/-- R83, R74, R75: REQUEUE after a COMMIT raises ILLOPERAND; otherwise it discards the buffered sends and frees the slot of the message, which is
the last of the tile's local arrivals and keeps the context occupied. These are placed behind the fabric's: where no other waits, the arrival
event puts the message, with its header and words and a new ACCEPT, at the tail of its queue, and the context is idle. Where its priority has
no room it stays, and the context with it.
It rests on a choice of the model too: log entry 4 (the arrival event is later in the same core cycle). -/
def Obligations.RequeueReturnsTheMessage : Prop :=
  ∀ s : State,
    (s.cur.committed = true → Traps .requeue s trapIllOperand) ∧
    ∀ e : Entry, s.cur.committed = false → s.me.entry s.cur.key = some e → s.me.land.spill = [] →
      let left := s.me.land.slots.filter (·.key != s.cur.key)
      let a : Arrival := { entry := { e with ctx := none }, ctx := some s.ctx }
      ∃ t, exec .requeue s = .next t ∧ t.cur.run = .wait .rearrive ∧ t.cur.sends = [] ∧
        (t.getTile s.tile).land = { s.me.land with slots := left, again := s.me.land.again ++ [a] } ∧
        (∀ c, c % 8 ≠ s.ctx % 8 → t.getCtx s.tile c = s.getCtx s.tile c) ∧
        { t.getTile s.tile with ctxs := s.me.ctxs, land := s.me.land } = s.me ∧ SameOutside s t s.tile ∧
        (s.me.land.again = [] → s.me.land.logged = [] → Acts s s.tile →
          let room := (left.filter fun x => x.prio == e.prio).length < s.me.regs.depth e.prio
          (room → ∃ u x, exec (.localArrivalRetry s.tile) t = .next u ∧ (u.getCtx s.tile s.ctx).run = .idle ∧
            (u.getTile s.tile).land.slots = left ++ [x] ∧ (u.getTile s.tile).land.again = [] ∧ x.hdr = e.hdr ∧ x.words = e.words ∧
            x.accept = s.cycle ∧ x.ready = s.cycle + 1 ∧ x.ctx = none ∧ (u.getTile s.tile).figs = s.me.figs ∧ u.mem = s.mem) ∧
          (¬ room → s.me.land.ring e.prio = 0 → e.age ≠ 4095 →
            ∃ u, exec (.localArrivalRetry s.tile) t = .next u ∧ (u.getCtx s.tile s.ctx).run = .wait .rearrive ∧
              (u.getTile s.tile).land.slots = left ∧ (u.getTile s.tile).land.again = [a] ∧ u.mem = s.mem))

/-- R179, R176: TRAP saves the PC that the end-of-body tests give, USER with its code, and 0, and goes to UTVEC; TRET makes the user trap
inactive and goes to UTPC; where a TRAP cannot be taken, or no user trap is active at a TRET, ILLOPERAND.
It rests on choices of the model too: log entry 33. -/
def Obligations.UserTraps : Prop :=
  ∀ (s : State) (e : BitVec 8),
    (s.cur.ut.act = false → s.cur.ut.vec ≠ 0 →
      Becomes (.trap e) s { s.cur.seq 4 with
        run := .ready, pc := s.cur.ut.vec
        ut := { vec := s.cur.ut.vec, pc := (s.cur.seq 4).pc, act := true, ucode := e, cause := 0x10, addr := 0 } }) ∧
    (s.cur.ut.act = true ∨ s.cur.ut.vec = 0 → Traps (.trap e) s trapIllOperand) ∧
    (s.cur.ut.act = true → Becomes .tret s (jumps { s.cur with ut := { s.cur.ut with act := false }, pc := s.cur.ut.pc } s.cur.ut.pc)) ∧
    (s.cur.ut.act = false → Traps .tret s trapIllOperand)

/-- R199, R96, R97: MIGRATE with a legal class and destination, no active loop and no user trap ends the handler and queues, behind its
buffered sends, a kind-6 message with the next PC and g1 to g15. Before it, in this order, a class job code may not name or a reserved bit of the
destination raises ILLOPERAND; an active loop or user trap MIGRATE; a destination outside the partition PARTITION; and a buffer of 16 sends
SENDOVF. -/
def Obligations.MigrateSendsTheContext : Prop :=
  ∀ (s : State) (cls : BitVec 8) (a : Reg) (pkg tile : Nat),
    let m : Send := { kind := 6, cls := cls, dests := [(tileAddr pkg tile).extractLsb' 0 27],
                      words := BitVec.ofNat 64 (s.cur.pc + 4).toNat :: s.cur.g.toList.drop 1 }
    let ms := s.sendMsgs s.tile s.cur.ftag s.me.mseq (s.cur.sends ++ [m])
    ((s.cur.rd a).toNat < 2 ^ 27 → s.classOk s.tile cls = true →
      (s.cur.loop0.act = false → s.cur.loop1.act = false → s.cur.ut.act = false → s.destOf s.tile (s.cur.rd a) = .ok (pkg, tile) →
        s.cur.sends.length < 16 → Plain s → HasRoom s ms →
        (∃ q, ms.getLast? = some q ∧ q.hdr.kind = 6 ∧ q.hdr.nflit = 1 ∧ q.hdr.cls = cls ∧ q.hdr.dpkg = BitVec.ofNat 15 pkg ∧
          q.hdr.dtile = BitVec.ofNat 12 tile ∧ q.body = .words m.words) ∧
        ∃ t, exec (.migrate cls a) s = .next t ∧ Ended s t ∧ EndFrame s t ∧ (t.getTile s.tile).outq = queued s ms) ∧
      (s.cur.loop0.act = false → s.cur.loop1.act = false → s.cur.ut.act = false →
        let raw := (s.cur.rd a).toNat / 2 ^ 12 % 2 ^ 15
        let p := s.pkgOn s.tile raw
        let t := s.tileOn s.tile p ((s.cur.rd a).toNat % 2 ^ 12)
        (p ≠ 0x7FFF → s.inPartition s.tile p t = false → ∃ x, Traps (.migrate cls a) s (trapPartition x) ∧
          (raw ≠ 0x7FFE → (s.cur.rd a).toNat % 2 ^ 12 ≠ 0xFFF → x = (s.cur.rd a).setWidth 56)) ∧
        (p ≠ 0x7FFF → s.inPartition s.tile p t = true → 16 ≤ s.cur.sends.length → Traps (.migrate cls a) s trapSendOvf)) ∧
      (s.cur.loop0.act = true ∨ s.cur.loop1.act = true ∨ s.cur.ut.act = true → Traps (.migrate cls a) s trapMigrate)) ∧
    (2 ^ 27 ≤ (s.cur.rd a).toNat ∨ s.classOk s.tile cls = false → Traps (.migrate cls a) s trapIllOperand)


/-! ### Memory -/

/-- R9, R356: after a write each byte of the range reads as written and every other byte as before. -/
def Obligations.ReadAfterWrite : Prop :=
  ∀ (s : State) (k : Nat) (bs : List Byte), Memory.wf s.mem = true →
    ∀ a, (s.write k bs).byteAt a = if k ≤ a ∧ a < k + bs.length then bs.getD (a - k) 0 else s.byteAt a

/-- R189, R142: a load from the tile's own scratchpad, with no earlier access of the context to those granules outstanding (R188), writes the
bytes, extended, to gD and changes nothing else. -/
def Obligations.OwnLoads : Prop :=
  ∀ (i : Instr) (s : State) (d : Reg) (a : Addr) (n : Nat) (sg : Bool) (len : Nat), loadOf s.cur.rd i = some (d, a, n, sg, len) →
    OwnAt s a n n → Sound s (ownKey s a) n → Free s (ownKey s a) n →
    Becomes i s (goesOn (s.cur.wr d (extended n sg (valueAt s (ownKey s a) n))) len)

/-- R189, R142, R124: a store to the tile's own scratchpad, with no read of the context outstanding, writes the low bytes of gD there at once,
whatever writes the context has outstanding elsewhere; FULL and every other byte are unchanged. -/
def Obligations.OwnStores : Prop :=
  ∀ (i : Instr) (s : State) (w : Word) (a : Addr) (n len : Nat), storeOf s.cur.rd i = some (w, a, n, len) →
    Memory.wf s.mem = true → OwnAt s a n n → Sound s (ownKey s a) n → Clear s (ownKey s a) n → NoReads s → Saves s s.tile (ownKey s a) →
    ∃ t, exec i s = .next t ∧ t.cur = goesOn s.cur len ∧ Stored s t (ownKey s a) n w.toNat ∧ t.empty = s.empty ∧ SameBesideMemory s t

/-- R190, R180: a full/empty form on the tile's own scratchpad whose condition on FULL holds goes on at once: it reads or stores 8 bytes and
leaves FULL as its form says.
It rests on choices of the model too: log entries 5 and 56. -/
def Obligations.OwnFullEmptyForms : Prop :=
  ∀ (i : Instr) (s : State) (op : FeOp) (a : Addr) (w : Word) (d : Option Reg), feOf s.cur.rd i = some (op, a, w, d) →
    Memory.wf s.mem = true → OwnAt s a 8 8 → Sound s (ownKey s a) 8 → NoWaiters s → feFirst s op (ownKey s a) →
    (feWrites op = true → Saves s s.tile (ownKey s a)) →
    let g := granule (ownKey s a)
    feGoes op (s.full g) = true →
    ∃ t, exec i s = .next t ∧
      t.cur = goesOn (match d with
        | some r => s.cur.wr r (if op = .fetest then truth (s.full g = true) else BitVec.ofNat 64 (valueAt s (ownKey s a) 8))
        | none => s.cur) 4 ∧
      FullIs s t [g] (feLeaves op (s.full g)) ∧
      (if feStores op then Stored s t (ownKey s a) 8 w.toNat else ∀ b, t.byteAt b = s.byteAt b) ∧ SameBesideMemory s t

/-- R190, R191, R112, R180: LDD.T and LDD.TC on an empty granule of the tile's own scratchpad enter the user trap with cause EMPTY and the
address, UTPC at the load, and raise ILLOPERAND where no user trap can be taken; LDD.W, LDD.WC and WAITF on an empty granule, and STD.WF on a
full one, wait at its memory unit behind those that wait there, and nothing is read or written: a load's reply is for gD, the others' for no
register. R113: a form that leaves its granule full serves those of other tiles that wait for that, oldest first, each with what memory then
holds, up to one that clears FULL; a form that clears it lets the oldest waiting STD.WF store and leave it full, and the others wait on. -/
def Obligations.FullEmptyOfEmptyOrFullGranules : Prop :=
  (∀ (s : State) (d a : Reg) (disp : BitVec 12) (i : Instr), (i = .lddT d a disp ∨ i = .lddTc d a disp) →
     let x := ea (s.cur.rd a) 8 disp
     OwnAt s x 8 8 → Free s (ownKey s x) 8 → (i = .lddTc d a disp → NoReads s) → s.full (granule (ownKey s x)) = false →
     (s.cur.ut.act = false → s.cur.ut.vec ≠ 0 →
       Becomes i s { s.cur with
         run := .ready, pc := s.cur.ut.vec
         ut := { vec := s.cur.ut.vec, pc := s.cur.pc, act := true, ucode := 0, cause := 0x11, addr := x } }) ∧
     (s.cur.ut.act = true ∨ s.cur.ut.vec = 0 → Traps i s trapIllOperand)) ∧
  (∀ (i : Instr) (s : State) (op : FeOp) (a : Addr) (w : Word) (d : Option Reg), feOf s.cur.rd i = some (op, a, w, d) →
     (op = .lddW ∨ op = .lddWc ∨ op = .waitf ∨ op = .stdWf) → OwnAt s a 8 8 → feGoes op (s.full (granule (ownKey s a))) = false →
     feFirst s op (ownKey s a) →
     ∃ t, exec i s = .next t ∧ t.cur = { s.cur with run := .wait (.replies [s.me.mu.nextTag] [] none (feFin d) a 4) } ∧
       t.me.mu.waiters = s.me.mu.waiters ++ [{ op := .fe op (ownKey s a) w, hdr := s.ownHeader, tag := s.me.mu.nextTag }] ∧
       t.mem = s.mem ∧ t.empty = s.empty) ∧
  (∀ (i : Instr) (s : State) (op : FeOp) (a : Addr) (w : Word) (d : Option Reg), feOf s.cur.rd i = some (op, a, w, d) → OwnAt s a 8 8 →
     let k := ownKey s a
     let g := granule k
     s.tile < Config.tiles → Memory.wf s.mem = true → Sound s k 8 → feFirst s op k → Copied s s.tile → s.me.land.reserved = none →
     ((op = .stdF ∨ op = .feset) → (∀ v ∈ s.me.mu.waiters, ForFull s s.tile g v) →
       ∃ t, exec i s = .next t ∧ t.cur = goesOn s.cur 4 ∧ Wakes s t s.tile g [] ∧
         if op = .stdF then Stored s t k 8 w.toNat else t.mem = s.mem) ∧
     ∀ v vs x, (op = .feclr ∨ op = .lddWc ∨ op = .lddTc) → feGoes op (s.full g) = true → s.me.mu.waiters = v :: vs →
       v.hdr.stile.toNat ≠ s.tile → v.hdr.spkg.toNat = s.pkg → v.op = .fe .stdWf k x → (∀ z ∈ vs, ∃ b y, z.op = .fe .stdWf b y ∧ granule b = g) →
       ∃ t m, exec i s = .next t ∧ t.cur = goesOn (match d with
           | some r => s.cur.wr r (BitVec.ofNat 64 (valueAt s k 8))
           | none => s.cur) 4 ∧ t.me.mu.waiters = vs ∧ t.me.vn1 = s.me.vn1 ++ [m] ∧ m.hdr.dpkg = v.hdr.spkg ∧ m.hdr.dtile = v.hdr.stile ∧
         m.body = .reply v.tag .done ∧ Stored s t k 8 x.toNat ∧ FullIs s t [g] true)

/-- R192, R193: an atomic on the tile's own scratchpad leaves its result in memory, and the old value in gD with the flags of FADD in FPF
unless D is g0.
It rests on choices of the model too: log entries 5 and 56. -/
def Obligations.OwnAtomics : Prop :=
  ∀ (i : Instr) (s : State) (op : AmoOp) (o : Order) (z : AmoSize) (d : Reg) (a : Addr) (b c : Word),
    amoOf s.cur.rd i = some (op, o, z, d, a, b, c) →
    Memory.wf s.mem = true → OwnAt s a z.bytes z.bytes → Sound s (ownKey s a) z.bytes → (o.releases = true → s.me.outTags s.ctx = []) →
    Clear s (ownKey s a) z.bytes → NoReads s → Saves s s.tile (ownKey s a) →
    let w := 8 * z.bytes
    let x := valueAt s (ownKey s a) z.bytes
    let r := amoLeaves op w x (b.toNat % 2 ^ w) (c.toNat % 2 ^ w)
    ∃ t, exec i s = .next t ∧
      t.cur = goesOn (if d = 0 then s.cur else { s.cur.wr d (extended z.bytes (z == .w) x) with fpf := s.cur.fpf ||| r.2 }) 4 ∧
      Stored s t (ownKey s a) z.bytes r.1 ∧ t.empty = s.empty ∧ SameBesideMemory s t

/-- R203, R204: the RING instructions on a well-formed descriptor of the tile's own scratchpad with no waiter: RRESV returns RESV and advances it
where the slots are free, waits at the memory unit where they are not, and returns all ones for a count of 0 or above the slots; RPUBL sets FULL
of its tickets' slots; RHEAD counts the full slots from HEAD, 64 at most; RCONS clears FULL of the slots it consumes and advances HEAD. It rests
on choices of the model too: log entries 5 and 56. -/
def Obligations.OwnRings : Prop :=
  ∀ (s : State) (d a b c : Reg),
    let k := ownKey s (adr (s.cur.rd a))
    let r := ringAt s k
    let x := s.cur.rd b
    let y := s.cur.rd c
    Memory.wf s.mem = true → OwnAt s (adr (s.cur.rd a)) 64 64 → Sound s k 64 → NoWaiters s → Clear s k 64 → Copied s s.tile →
    r.ok = true →
    (NoReads s → x ≠ 0 → x.toNat ≤ r.slots → (r.resv - r.head).toNat + x.toNat ≤ r.slots →
      ∃ t, exec (.rresv d a b) s = .next t ∧ t.cur = goesOn (s.cur.wr d r.resv) 4 ∧ Stored s t k 8 (r.resv + x).toNat ∧ t.empty = s.empty ∧
        SameBesideMemory s t) ∧
    (NoReads s → x ≠ 0 → x.toNat ≤ r.slots → r.slots < (r.resv - r.head).toNat + x.toNat →
      ∃ t, exec (.rresv d a b) s = .next t ∧
        t.cur = { s.cur with run := .wait (.replies [s.me.mu.nextTag] [] none (.ring d) (adr (s.cur.rd a)) 4) } ∧
        t.me.mu.waiters = [{ op := .ring .rresv k x 0, hdr := s.ownHeader, tag := s.me.mu.nextTag }] ∧ t.mem = s.mem ∧ t.empty = s.empty) ∧
    (NoReads s → x = 0 ∨ r.slots < x.toNat → Becomes (.rresv d a b) s (goesOn (s.cur.wr d (BitVec.allOnes 64)) 4)) ∧
    (s.me.outTags s.ctx = [] → y ≠ 0 → y.toNat ≤ r.slots →
      ∃ t, exec (.rpubl a b c) s = .next t ∧ t.cur = goesOn s.cur 4 ∧ FullIs s t (r.granules s.tile x y.toNat) true ∧ t.mem = s.mem ∧
        SameBesideMemory s t) ∧
    (s.me.outTags s.ctx = [] → y = 0 ∨ r.slots < y.toNat → Traps (.rpubl a b c) s trapIllOperand) ∧
    Becomes (.rhead d a) s (goesOn (s.cur.wr d (BitVec.ofNat 64 (s.fullRun r s.tile r.head (Nat.min 64 r.slots)))) 4) ∧
    (s.me.outTags s.ctx = [] → x.toNat ≤ s.fullRun r s.tile r.head r.slots →
      ∃ t, exec (.rcons a b) s = .next t ∧ t.cur = goesOn s.cur 4 ∧ FullIs s t (r.granules s.tile r.head x.toNat) false ∧
        Stored s t (k + 8) 8 (r.head + x).toNat ∧ SameBesideMemory s t) ∧
    (s.me.outTags s.ctx = [] → s.fullRun r s.tile r.head r.slots < x.toNat → Traps (.rcons a b) s trapIllOperand)

/-- R219, R220: VLD, VLDB and, once all four granules are full, VLD.W read 64 bytes of the tile's own scratchpad into vD; with one of
them empty VLD.W waits at the memory unit and reads nothing; VST stores them, and VST.F also sets the four FULL bits.
It rests on choices of the model too: log entries 5 and 56. -/
def Obligations.OwnVectorAccesses : Prop :=
  ∀ (s : State) (d a : Reg) (disp : BitVec 12),
    let x := ea (s.cur.rd a) 64 disp
    let k := ownKey s x
    Memory.wf s.mem = true → OwnAt s x 64 64 → Sound s k 64 → NoWaiters s → Free s k 64 →
    Becomes (.vld d a disp) s (goesOn (s.cur.wv d (vecAt s k)) 4) ∧ Becomes (.vldb d a disp) s (goesOn (s.cur.wv d (vecAt s k)) 4) ∧
    (Clear s k 64 → (∀ g ∈ granules k 64, s.full g = true) → Becomes (.vldW d a disp) s (goesOn (s.cur.wv d (vecAt s k)) 4)) ∧
    (∀ g ∈ granules k 64, s.full g = false →
      ∃ t, exec (.vldW d a disp) s = .next t ∧ t.cur = { s.cur with run := .wait (.replies [s.me.mu.nextTag] [] none (.vload d) x 4) } ∧
        t.me.mu.waiters = [{ op := .vldW k, hdr := s.ownHeader, tag := s.me.mu.nextTag }] ∧ t.mem = s.mem ∧ t.empty = s.empty) ∧
    (Clear s k 64 → NoReads s → Saves s s.tile k →
      ∃ t, exec (.vst d a disp) s = .next t ∧ t.cur = goesOn s.cur 4 ∧ Stored s t k 64 (s.cur.rv d).toNat ∧ t.empty = s.empty ∧
        SameBesideMemory s t) ∧
    (Clear s k 64 → s.me.outTags s.ctx = [] → Saves s s.tile k →
      ∃ t, exec (.vstF d a disp) s = .next t ∧ t.cur = goesOn s.cur 4 ∧ Stored s t k 64 (s.cur.rv d).toNat ∧
        FullIs s t (granules k 64) true ∧ SameBesideMemory s t)

/-- R221: with every active lane's address in the tile's own scratchpad, VGATH fills the active lanes of vD and keeps or zeroes the others;
VSCAT writes the active lanes of vD in ascending lane order, and VSCATA adds them, so that of two lanes at one address both count.
It rests on choices of the model too: log entries 5 and 56. -/
def Obligations.OwnGatherScatter : Prop :=
  ∀ (s : State) (t : ElemType) (z : Bool) (d a b : Reg) (k : KReg),
    let n := t.width / 8
    let key := fun i => ownKey s (gsAddress s t a b i)
    let writes := Copied s s.tile ∧ (∀ i ∈ gsActive s t k, Clear s (key i) n) ∧ (gsActive s t k ≠ [] → NoReads s)
    (∀ i ∈ gsActive s t k, OwnAt s (gsAddress s t a b i) n n ∧ Sound s (key i) n ∧ Free s (key i) n) → s.me.roomFor s.ctx 0 = true →
    (∃ v : VReg, Becomes (.vgath t z d a b k) s (goesOn (s.cur.wv d v) 4) ∧
      ∀ i, i < t.lanes → lane t.width v i =
        if (s.cur.rk k).getLsbD i then valueAt s (key i) n else if z then 0 else lane t.width (s.cur.rv d) i) ∧
    (writes → ∃ u, exec (.vscat t d a b k) s = .next u ∧ u.cur = goesOn s.cur 4 ∧
      u.mem = (gsActive s t k).foldl (fun m i => memWrite m (key i) (leBytes n (lane t.width (s.cur.rv d) i))) s.mem ∧ u.empty = s.empty ∧
      SameBesideMemory s u) ∧
    (writes → ∃ u, exec (.vscata t d a b k) s = .next u ∧ u.cur = goesOn s.cur 4 ∧
      u.mem = (gsActive s t k).foldl (fun m i =>
        memWrite m (key i) (leBytes n (laneSum t (leNat (memRead m (key i) n)) (lane t.width (s.cur.rv d) i)))) s.mem ∧ u.empty = s.empty ∧
      SameBesideMemory s u)

/-- R109, R30, R107, R114 to R117, R121, R112, R285: the checks of a single access, in their order: a misaligned address raises ALIGN; in tile
space, a tile outside the partition raises PARTITION, and set bits [27:21] or a range beyond the scratchpad ACCESS. With bit 55 zero the page's
leaf, cached or found by the walk over five levels, translates: without one XLATE is raised; a write without W, an access that needs scratchpad
to HBM, a page the Vestibule keeps, and a range beyond the window's scratchpad raise ACCESS; the context waits while a lease is in the way of
the walk. A load that meets an uncorrectable location consumes it: MCHECK.
It rests on choices of the model too: log entries 10, 11, 25 and 66. -/
def Obligations.AccessChecks : Prop :=
  (∀ (i : Instr) (s : State) (a : Addr) (n al : Nat), accessOf s.cur.rd i = some (a, n, al) →
     (a.toNat % al ≠ 0 → Traps i s (trapAlign a)) ∧
     (a.toNat % al = 0 → inTileSpace a = true →
       let pkg := s.pkgOn s.tile (tsPkg a)
       let tile := s.tileOn s.tile pkg (tsTile a)
       (s.inPartition s.tile pkg tile = false → Traps i s (trapPartition a)) ∧
       (s.inPartition s.tile pkg tile = true → (tsZero a = false ∨ s.scratchOf s.tile pkg tile < tsOff a + n) →
         Traps i s (trapAccess a))) ∧
     ∀ x, accessRequest s.cur i = some x → a.toNat % al = 0 → inTileSpace a = false →
       let keys := s.tableKeys s.tile a.toNat
       (s.readConflicts s.tile keys ≠ [] → ∃ t, exec i s = .next t ∧ t.cur = { s.cur with run := .wait (.cond (.leases keys)) } ∧ t.mem = s.mem) ∧
       (s.readConflicts s.tile keys = [] → s.leafOf s.tile a.toNat = none → Traps i s (trapXlate a)) ∧
       (∀ l, Leads s a l → ¬ leafAllows s l a n x.write x.scratch → Traps i s (trapAccess a))) ∧
  (∀ (s : State) (t va : Nat) (l : Leaf),
     s.walk t va = some l ↔ Walks s va (s.getTile t).regs.xpkg.toNat ((s.getTile t).regs.xroot.toNat * 2 ^ 10) tableLevels l) ∧
  (∀ (s : State) (t va : Nat), tlbFind (s.getTile t).tlb (s.getTile t).regs.asid va = none →
     tlbFind (s.getDie (dieOfTile t)).dtu (s.getTile t).regs.asid va = none → s.leafOf t va = s.walk t va) ∧
  (∀ (i : Instr) (s : State) (d : Reg) (a : Addr) (n : Nat) (sg : Bool) (len b : Nat), loadOf s.cur.rd i = some (d, a, n, sg, len) →
     OwnAt s a n n → Free s (ownKey s a) n → s.badIn (ownKey s a) n = some b → exec i s = .next (s.trapBad b a))

/-- R188, R189, R190, R192, R193, R204, R205, R219, R220, R33, R107, R108, R115, R124, R125: what a single access does before it is performed,
in tile space, in HBM or through a window. It covers everything the context has outstanding if it is a release or an atomic that is injected,
what reads if it otherwise writes, and else nothing. On the tile's own scratchpad, but for a release with something to cover, it waits
for the reads it covers, then for earlier accesses to its granules (a plain load or a test of an empty granule not for a GET that lands
there), and is made there at once, as is a load or store whose page's leaf sends it there. Every other waits for earlier accesses to its granules,
a GET that lands there among them, and for room, and then sends one request to its home: of its kind and operation, behind what it covers.
The context waits for the reply, or goes on.
It rests on choices of the model too: log entries 5, 6 and 56. -/
def Obligations.FarRequests : Prop :=
  ∀ (i : Instr) (s : State) (a : Addr) (n al pkg node k : Nat) (x : Access),
    accessOf s.cur.rd i = some (a, n, al) → accessRequest s.cur i = some x → a.toNat % al = 0 → Reaches s a n x.write x.scratch pkg node k →
    let own := pkg = s.pkg ∧ node = s.tile
    let op := x.op k
    let covers := if x.rel ∨ (amoOf s.cur.rd i).isSome ∧ ¬ own then s.me.outTags s.ctx else if writesSome op then s.me.readTags s.ctx else []
    let here := own ∧ (covers = [] ∨ x.rel = false)
    let grs := opGranules op
    let busy := if takesNothing s op then s.me.granuleBusy s.ctx grs else s.me.endsBusy s.ctx grs
    let tag := s.me.mu.nextTag
    let waits := fun (c : Machine.Cond) => ∃ t, exec i s = .next t ∧ t.cur = { s.cur with run := .wait (.cond c) } ∧ Injects s t []
    (here → covers ≠ [] → waits .reads) ∧
    (here → covers = [] → busy = true → waits (if takesNothing s op then .granules grs else .ends grs)) ∧
    (¬ here → s.me.endsBusy s.ctx grs = true → waits (.ends grs)) ∧
    (¬ here → s.me.endsBusy s.ctx grs = false →
      (s.me.roomFor s.ctx 1 = false → waits (.requests 1)) ∧
      (s.me.roomFor s.ctx 1 = true →
        ∃ t, exec i s = .next t ∧
          Injects s t [(x.kind, BitVec.ofNat 15 pkg, BitVec.ofNat 12 node, .request tag op, covers)] ∧ t.empty = s.empty ∧
          t.cur = if x.waits then { s.cur with run := .wait (.replies [tag] [] none x.fin a x.len) } else goesOn s.cur x.len)) ∧
    (here → covers = [] → busy = false → s.tile < Config.tiles → Sound s k n →
      (∀ (d : Reg) (sg : Bool) (len : Nat), loadOf s.cur.rd i = some (d, a, n, sg, len) →
        ∃ t, exec i s = .next t ∧ t.cur = goesOn (s.cur.wr d (extended n sg (valueAt s k n))) len ∧ t.mem = s.mem ∧ t.empty = s.empty) ∧
      (∀ (w : Word) (len : Nat), storeOf s.cur.rd i = some (w, a, n, len) → Memory.wf s.mem = true → Copied s s.tile →
        ∃ t, exec i s = .next t ∧ t.cur = goesOn s.cur len ∧ Stored s t k n w.toNat ∧ t.empty = s.empty))

/-! ### Floating, vector and predicate results -/

/-- R51, R182 to R185: each FOP member writes its result, f32 ones with bits [63:32] zero, to gD and ORs its flags into FPF. R54, R56: a value is
rounded to the grid by its distance from it, as the mode says; and results worked by hand: arithmetic (R40 to R45), comparisons, extremes and
classes (R46), conversions between the formats and integers and integral values (R55), among them signed zeros, NaNs and values out of range. It
rests on choices of the model too: log entries 15, 26 and 64. -/
def Obligations.FloatingResults : Prop :=
  (∀ (i : Instr) (s : State) (d : Reg) (x : Nat) (fl : Flags), floatResult s.cur i = some (d, x, fl) →
    Becomes i s (goesOn { s.cur.wr d (BitVec.ofNat 64 x) with fpf := s.cur.fpf ||| fl } 4)) ∧ RoundsToGrid ∧ ArithmeticWorked ∧ ComparesWorked ∧ ConvertsWorked

/-- R207, R208, R210 to R213: each VARI, VFMA and VLOG member writes the active lanes of vD, keeps or zeroes the others, and ORs the flags of
active lanes into FPF; and the sum of a group rounded once (R60, R61), as worked in the notes.
It rests on choices of the model too: log entries 64 and 65. -/
def Obligations.VectorArithmetic : Prop :=
  (∀ (i : Instr) (s : State) (o : LaneOp), vectorArithmetic s.cur i = some o → WritesLanes i s o) ∧ GroupWorked

/-- R207, R208, R215: the permutes. VSEL takes each lane from vA or vB by predicate, VEXT writes an extended lane to gD, VINS replaces one lane,
and VCMPRS fills the low lanes with the active ones. -/
def Obligations.VectorPermutes : Prop :=
  (∀ (i : Instr) (s : State) (o : LaneOp), vectorPermute s.cur i = some o → WritesLanes i s o) ∧
  ∀ (s : State) (t : ElemType) (z : Bool) (d a b : Reg) (k : KReg),
    let n := (s.cur.rd b).toNat % t.lanes
    let act := activeNumbers (s.cur.rk k) t.lanes
    (∃ v, Becomes (.vsel t d a b k) s (goesOn (s.cur.wv d v) 4) ∧
      ∀ j, j < t.lanes → lane t.width v j = lane t.width (s.cur.rv (if (s.cur.rk k).getLsbD j then a else b)) j) ∧
    Becomes (.vext t d a b) s (goesOn (s.cur.wr d (BitVec.ofInt 64 (element t (lane t.width (s.cur.rv a) n)))) 4) ∧
    (∃ v, Becomes (.vins t d a b) s (goesOn (s.cur.wv d v) 4) ∧
      ∀ j, j < t.lanes → lane t.width v j = if j = n then (s.cur.rd a).toNat % 2 ^ t.width else lane t.width (s.cur.rv d) j) ∧
    (∃ v, Becomes (.vcmprs t z d a k) s (goesOn (s.cur.wv d v) 4) ∧
      ∀ j, j < t.lanes → lane t.width v j =
        if j < act.length then lane t.width (s.cur.rv a) (act.getD j 0) else if z then 0 else lane t.width (s.cur.rv d) j)

/-- R136, R208, R214, R225: VCMP sets the bits of kD for the active lanes whose comparison holds, clears the others, and ORs the flags of active
lanes into FPF; each KOP member writes kD, with a write to k0 discarded, or gD, and changes no flag. -/
def Obligations.PredicatesAndCompares : Prop :=
  (∀ (i : Instr) (s : State) (c : VCond) (t : ElemType) (d : KReg) (a b : Reg) (k : KReg), compareOf i = some (c, t, d, a, b, k) →
     let r := fun j => compares c t (lane t.width (s.cur.rv a) j) (lane t.width (s.cur.rv b) j)
     ∃ (w : Word) (fl : Flags),
       Becomes i s (goesOn { s.cur.wk d w with fpf := s.cur.fpf ||| fl } 4) ∧
       (∀ j, j < 64 → w.getLsbD j = (decide (j < t.lanes) && (s.cur.rk k).getLsbD j && (r j).1)) ∧
       FlagsOf (s.cur.rk k) t.lanes (fun j => (r j).2) fl) ∧
  ((∀ (i : Instr) (s : State) (d : KReg) (w : Word), predicateResult s.cur i = some (d, w) → Becomes i s (goesOn (s.cur.wk d w) 4)) ∧
   ∀ (s : State) (d : Reg) (a : KReg),
     Becomes (.ktog d a) s (goesOn (s.cur.wr d (s.cur.rk a)) 4) ∧
     Becomes (.kpopc d a) s (goesOn (s.cur.wr d (s.cur.rk a).cpop) 4) ∧
     Becomes (.kfirst d a) s (goesOn (s.cur.wr d (s.cur.rk a).ctz) 4))

/-- R216, R217, R56, R57: VCVT converts its pairs of lanes in the halves HI selects, each with a rounding of its own; destination lanes
outside the pairs are kept; SRNG moves one step for each pair under SR. R54: the conversions of its table, and those worked in the notes.
It rests on choices of the model too: log entries 15, 26, 55, 62 and 64. -/
def Obligations.VectorConversions : Prop :=
  ConversionsWorked ∧ ∀ (s : State) (hi sat : Bool) (r : VRnd) (t src : ElemType) (z : Bool) (k : KReg) (d a : Reg),
    let n := Nat.min src.lanes t.lanes
    let lo := if hi = true ∧ src.width < t.width then n else 0
    let at0 := if hi = true ∧ t.width < src.width then n else 0
    let x := fun j => converted src t (pairMode r s.cur.srng (j - at0)) sat (lane src.width (s.cur.rv a) (lo + (j - at0)))
    ∃ (v : VReg) (fl : Flags),
      Becomes (.vcvt hi sat r t src z k d a) s (goesOn { s.cur.wv d v with
        fpf := s.cur.fpf ||| fl, srng := if r = .sr then stepped n s.cur.srng else s.cur.srng } 4) ∧
      (∀ j, j < t.lanes → lane t.width v j =
        if at0 ≤ j ∧ j < at0 + n then
          (if (s.cur.rk k).getLsbD j then (x j).1 % 2 ^ t.width else if z then 0 else lane t.width (s.cur.rv d) j)
        else lane t.width (s.cur.rv d) j) ∧
      ∀ b, fl.getLsbD b = true ↔ ∃ j, at0 ≤ j ∧ j < at0 + n ∧ (s.cur.rk k).getLsbD j = true ∧ (x j).2.getLsbD b = true

/-- R63, R218: the reductions of the active lanes into gD: integer sums modulo 2^64, floating sums in lane order or as the pairwise tree
with +0 for inactive lanes, least and greatest integers with the type's ends for none, floating extremes by R46, and bitwise folds.
It rests on choices of the model too: log entry 32. -/
def Obligations.VectorReductions : Prop :=
  ∀ (s : State) (t : ElemType) (d a : Reg) (k : KReg),
    let xs := activeValues s.cur t a k
    let is := xs.map (element t)
    let enter := fun x => fcvt (fmtOf t) (sumFmt t) .rne false x
    let all := fun j => if (s.cur.rk k).getLsbD j then enter (lane t.width (s.cur.rv a) j) else (0, 0)
    let gives := fun (i : Instr) (x : Nat × Flags) =>
      Becomes i s (goesOn { s.cur.wr d (BitVec.ofNat 64 x.1) with fpf := s.cur.fpf ||| x.2 } 4)
    let extreme := fun (mx : Bool) (l : List Nat) => l.tail.foldl
      (fun (m : Nat × Flags) y => ((fminmax (fmtOf t) mx m.1 y).1, m.2 ||| (fminmax (fmtOf t) mx m.1 y).2)) (l.headD 0, 0)
    let widen := fun (x : Nat × Flags) => (if t = .f32 ∨ t = .f64 then x.1 else fmovi (fmtOf t) fmtF32 x.1, x.2)
    (t.isInt = true →
      Becomes (.vrsum t d a k) s (goesOn (s.cur.wr d (BitVec.ofInt 64 is.sum)) 4) ∧
      Becomes (.vrsumt t d a k) s (goesOn (s.cur.wr d (BitVec.ofInt 64 is.sum)) 4) ∧
      Becomes (.vrmin t d a k) s (goesOn (s.cur.wr d (BitVec.ofInt 64 (is.foldl min (greatest t)))) 4) ∧
      Becomes (.vrmax t d a k) s (goesOn (s.cur.wr d (BitVec.ofInt 64 (is.foldl max (least t)))) 4)) ∧
    (t.isInt = false →
      gives (.vrsum t d a k) (orderedSum (sumFmt t) (rmOfFpm s.cur.fpm) (xs.map enter)) ∧
      gives (.vrsumt t d a k) (treeSum (sumFmt t) (rmOfFpm s.cur.fpm) all (Nat.log2 t.lanes) 0) ∧
      (xs = [] → gives (.vrmin t d a k) (finf (sumFmt t) false, 0) ∧ gives (.vrmax t d a k) (finf (sumFmt t) true, 0)) ∧
      (xs ≠ [] → gives (.vrmin t d a k) (widen (extreme false xs)) ∧ gives (.vrmax t d a k) (widen (extreme true xs)))) ∧
    ∃ x y z : Word,
      gives (.vrand t d a k) (x.toNat, 0) ∧ gives (.vror t d a k) (y.toNat, 0) ∧ gives (.vrxor t d a k) (z.toNat, 0) ∧
      ∀ b, b < 64 →
        x.getLsbD b = (decide (b < t.width) && xs.all fun v => v.testBit b) ∧ y.getLsbD b = xs.any (fun v => v.testBit b) ∧
        z.getLsbD b = xs.foldl (fun p v => p ^^ v.testBit b) false


/-! ### Typed blocks, messages, transfers, counters -/

/-- R223, R224 with the running tile's own scratchpad: VLDT decodes 64 elements into the active lanes of its group; VSTQ stores the group as
FP8 bytes, or as MXF4 or Q4O blocks with their scale bytes. R47 to R50, R58, R59: the blocks of the notes decode as worked there, and two
blocks are stored as worked by hand.
It rests on choices of the model too: log entries 15, 26, 31, 55 and 56. -/
def Obligations.TypedBlocks : Prop :=
  BlocksWorked ∧ ∀ (s : State) (t : ElemType) (z sr : Bool) (d a b : Reg) (k : KReg) (len : Nat),
    let p := s.cur.rd a
    let fmt := p.toNat / 2 ^ 60
    let x := adr p
    let sc := adr (s.cur.rd b)
    let el := groupElement s.cur t d
    blockType t → fatLen p = some len → 5 ≤ fmt → fmt ≤ 8 → s.me.roomFor s.ctx 0 = true →
    (let r := vldtReads fmt len x sc
     let e := blockElems fmt len x (s.read (ownKey s r.1.1) r.1.2.1) (r.2.map fun y => s.byteAt (ownKey s y))
     let v := fun j => blockElem t (e.1.getD j fvCanon)
     x.toNat % 32 = 0 → OwnAt s r.1.1 r.1.2.1 r.1.2.2 → Sound s (ownKey s r.1.1) r.1.2.1 →
     Free s (ownKey s r.1.1) r.1.2.1 → (∀ y ∈ r.2, OwnAt s y 1 1 ∧ Sound s (ownKey s y) 1 ∧ Free s (ownKey s y) 1) →
     ∃ (c : Ctx) (fl : Flags), Becomes (.vldt t z d a b k) s (goesOn c 4) ∧ { c with v := s.cur.v, fpf := s.cur.fpf } = s.cur ∧
       (∀ j, j < 64 → groupElement c t d j = if (s.cur.rk k).getLsbD j then (v j).1 % 2 ^ t.width else if z then 0 else el j) ∧
       (∀ r : Reg, 64 / t.lanes ≤ (r - d).toNat → c.rv r = s.cur.rv r) ∧
       FlagsOf (s.cur.rk k) 64 (fun j => (v j).2) fl ∧ c.fpf = s.cur.fpf ||| fl ||| (if e.2 then flagQM else 0)) ∧
    (fmt ≤ 6 → OwnAt s x (4 * t.lanes) 64 → Sound s (ownKey s x) (4 * t.lanes) → Clear s (ownKey s x) (4 * t.lanes) → NoReads s → Copied s s.tile →
     let r := fun j => fcvt (fmtOf t) (fmtOfCode fmt) (storeMode s.cur sr j) true (el j)
     ∃ (u : State) (fl : Flags), exec (.vstq t sr d a b) s = .next u ∧
       u.cur = goesOn { s.cur with fpf := s.cur.fpf ||| fl, srng := if sr then stepped (4 * t.lanes) s.cur.srng else s.cur.srng } 4 ∧
       u.mem = memWrite s.mem (ownKey s x) ((List.range (4 * t.lanes)).map fun j => BitVec.ofNat 8 (r j).1) ∧
       (∀ f, fl.getLsbD f = true ↔ ∃ j, j < 4 * t.lanes ∧ (r j).2.getLsbD f = true) ∧ u.empty = s.empty ∧ SameBesideMemory s u) ∧
    (7 ≤ fmt → x.toNat % 32 = 0 → x.toNat % (len / 2) = 0 → 4 * t.lanes % len = 0 → OwnAt s x (2 * t.lanes) 1 →
     Sound s (ownKey s x) (2 * t.lanes) → Clear s (ownKey s x) (2 * t.lanes) → NoReads s → Copied s s.tile →
     (∀ m, m < 4 * t.lanes / len → OwnAt s (sc + BitVec.ofNat 56 m) 1 1 ∧ Sound s (ownKey s (sc + BitVec.ofNat 56 m)) 1 ∧
       Clear s (ownKey s (sc + BitVec.ofNat 56 m)) 1) →
     let q := storedBlock s.cur t sr (fmt == 8) d len
     let ms := List.range (4 * t.lanes / len)
     ∃ (u : State) (fl : Flags), exec (.vstq t sr d a b) s = .next u ∧
       u.cur = goesOn { s.cur with fpf := s.cur.fpf ||| fl, srng := if sr then stepped (4 * t.lanes) s.cur.srng else s.cur.srng } 4 ∧
       u.mem = ms.foldl (fun mem m => memWrite mem (ownKey s (sc + BitVec.ofNat 56 m)) [BitVec.ofNat 8 (q m).1])
         (memWrite s.mem (ownKey s x) (ms.flatMap fun m => packNibbles (q m).2.1)) ∧
       (∀ f, fl.getLsbD f = true ↔ ∃ m ∈ ms, (q m).2.2.getLsbD f = true) ∧ u.empty = s.empty ∧ SameBesideMemory s u)

/-- R195 to R197, R187, R84, R202: SEND, SENDX and SENDG buffer their messages; an illegal class, a reserved bit, an illegal length or an
address that is not local raises ILLOPERAND, a destination outside the partition its own trap (of a multicast the first such entry's), and a full
buffer SENDOVF; a source that a GET of the context is still to fill is waited for. MSGLD, MSGHD, MSGID and MSGLEN read the triggering message where it
lies, as the handler's job numbers tiles; a word beyond the payload reads 0. -/
def Obligations.SendsAndMessageReads : Prop :=
  (∀ (s : State) (cls : BitVec 8) (a b c p : Reg) (n : BitVec 4) (pkg tile : Nat),
     let w := s.cur.rd a
     let x := adr (s.cur.rd b)
     let len := (s.cur.rd c).toNat
     (w.toNat < 2 ^ 27 → s.classOk s.tile cls = true → s.destOf s.tile w = .ok (pkg, tile) →
       (s.cur.sends.length < 16 →
         Becomes (.send cls a p n) s (goesOn (buffers s.cur cls [addressOf pkg tile] (registers s.cur p n.toNat)) 4) ∧
         (8 ≤ len → len ≤ 256 → len % 8 = 0 → s.isLocal s.tile (s.cur.rd b) = true → OwnAt s x len 8 → Sound s (ownKey s x) len →
           (Clear s (ownKey s x) len → Becomes (.sendx cls a b c) s
             (goesOn (buffers s.cur cls [addressOf pkg tile] (wordsOf (len / 8) (s.read (ownKey s x) len))) 4)) ∧
           (¬ Clear s (ownKey s x) len →
             Becomes (.sendx cls a b c) s { s.cur with run := .wait (.cond (.ends (granules (ownKey s x) len))) }))) ∧
       (16 ≤ s.cur.sends.length → Traps (.send cls a p n) s trapSendOvf ∧
         (8 ≤ len → len ≤ 256 → len % 8 = 0 → s.isLocal s.tile (s.cur.rd b) = true → OwnAt s x len 8 →
           Traps (.sendx cls a b c) s trapSendOvf)) ∧
       (len < 8 ∨ 256 < len ∨ len % 8 ≠ 0 ∨ s.isLocal s.tile (s.cur.rd b) = false → Traps (.sendx cls a b c) s trapIllOperand)) ∧
     (2 ^ 27 ≤ w.toNat ∨ s.classOk s.tile cls = false → Traps (.send cls a p n) s trapIllOperand ∧ Traps (.sendx cls a b c) s trapIllOperand) ∧
     (∀ e, w.toNat < 2 ^ 27 → s.classOk s.tile cls = true → s.destOf s.tile w = .error e →
       Traps (.send cls a p n) s e ∧ Traps (.sendx cls a b c) s e) ∧
     (let y := adr w
      let ws := wordsOf 8 (s.read (ownKey s y) 64)
      let valid := ws.filter fun v => v.getLsbD 63
      let dest := fun (v : Word) => s.destOf s.tile (BitVec.ofNat 64 (v.toNat % 2 ^ 27))
      (s.classOk s.tile cls = false ∨ s.isLocal s.tile w = false → Traps (.sendg cls a p n) s trapIllOperand) ∧
      (s.classOk s.tile cls = true → s.isLocal s.tile w = true → OwnAt s y 64 64 → Sound s (ownKey s y) 64 → Clear s (ownKey s y) 64 →
       (valid = [] ∨ (∃ v ∈ ws, v.extractLsb' 27 36 ≠ 0) → Traps (.sendg cls a p n) s trapIllOperand) ∧
       (valid ≠ [] → (∀ v ∈ ws, v.extractLsb' 27 36 = 0) →
         (∀ ds : List (Nat × Nat), valid.map dest = ds.map .ok →
           (s.cur.sends.length < 16 →
             Becomes (.sendg cls a p n) s (goesOn (buffers s.cur cls (ds.map fun e => addressOf e.1 e.2) (registers s.cur p n.toNat)) 4)) ∧
           (16 ≤ s.cur.sends.length → Traps (.sendg cls a p n) s trapSendOvf)) ∧
         ∀ us v vs e, valid = us ++ v :: vs → (∀ u ∈ us, ∃ d, dest u = .ok d) → dest v = .error e → Traps (.sendg cls a p n) s e)))) ∧
  (∀ (s : State) (d : Reg) (w : BitVec 5) (e : Entry), s.me.entry s.cur.key = some e →
     let h := s.jobHeader s.tile e.hdr
     Becomes (.msgld d w) s (goesOn (s.cur.wr d (e.words.getD w.toNat 0)) 4) ∧
     Becomes (.msghd d 0) s (goesOn (s.cur.wr d (at_ 56 h.origKind ||| at_ 52 h.kind ||| at_ 40 h.ftag ||| at_ 38 h.nflit |||
       at_ 37 h.colour ||| at_ 35 h.prio ||| at_ 27 h.cls ||| at_ 15 h.dtile ||| at_ 0 h.dpkg)) 4) ∧
     Becomes (.msghd d 1) s (goesOn (s.cur.wr d (at_ 43 e.age ||| at_ 27 h.mseq ||| at_ 15 h.stile ||| at_ 0 h.spkg)) 4) ∧
     Becomes (.msgid d) s (goesOn (s.cur.wr d (at_ 28 h.spkg ||| at_ 16 h.stile ||| at_ 0 h.mseq)) 4) ∧
     Becomes (.msglen d) s (goesOn (s.cur.wr d (BitVec.ofNat 64 (64 * (h.nflit.toNat + 1)))) 4))

/-- R200, R109, R33, R112, R114 to R117, R188: with a legal length, counter and local end, room, and no earlier access to the granules
outstanding, GET and GET.N clear FULL of the destination and send one read request, and PUT, PUT.F, PUT.N and PUT.FN send the local bytes; the
remote end lies in tile space, in HBM or in a window; a range across a page boundary makes two requests, of which a counted PUT's first waits for
the second. Each request covers what the context has outstanding, and the instruction goes on; while an earlier request reaches a granule of
either end, at either end of its own, it waits for it. An illegal length, counter or local end raises ILLOPERAND; a remote end ALIGN, PARTITION,
ACCESS or XLATE; PUT.F to HBM raises ACCESS, and a counted PUT to a place of another partition PARTITION and to HBM ILLOPERAND. It rests on
choices of the model too: log entries 5, 6, 10, 56 and 66 (a range past 2^55 goes on at virtual address 0). -/
def Obligations.Transfers : Prop :=
  ∀ (s : State) (a b c d : Reg),
    let far := adr (s.cur.rd a)
    let loc := s.cur.rd b
    let n := (s.cur.rd c).toNat
    let cnt := s.cur.rd d
    let l := ownKey s (adr loc)
    let tag := s.me.mu.nextTag
    let all := s.me.outTags s.ctx
    let bytes := s.read l n
    let room := 2 ^ 16 - far.toNat % 2 ^ 16
    let next := BitVec.ofNat 56 ((far.toNat + room) % 2 ^ 55)
    let req := fun (kind : BitVec 4) (pkg node i : Nat) (op : MemOp) (after : List Nat) =>
      (kind, BitVec.ofNat 15 pkg, BitVec.ofNat 12 node, Body.request (tag + i) op, after)
    let sends := fun (i : Instr) rs => ∃ t, exec i s = .next t ∧ t.cur = goesOn s.cur 4 ∧ Injects s t rs ∧ t.empty = s.empty
    let asks := fun (i : Instr) rs (gs : List GetEnd) => ∃ t, exec i s = .next t ∧ t.cur = goesOn s.cur 4 ∧ Injects s t rs ∧
      FullIs s t (granules l n) false ∧
      t.me.mu.out.map (fun o => (o.tag, o.ctx, o.get)) =
        s.me.mu.out.map (fun o => (o.tag, o.ctx, o.get)) ++ gs.mapIdx fun i g => (tag + i, s.ctx, some g)
    let gets := [Instr.get a b c, .getN d a b c]
    let counted := [Instr.putN d a b c, .putFn d a b c]
    let puts := [Instr.put a b c, .putF a b c] ++ counted
    let fullOf := fun (i : Instr) => decide (i = .putF a b c ∨ i = .putFn d a b c)
    (¬ lengthOk (s.cur.rd c) ∨ s.isLocal s.tile loc = false → ∀ i ∈ gets ++ puts, Traps i s trapIllOperand) ∧
    (255 < cnt.toNat → ∀ i ∈ [Instr.getN d a b c, .putN d a b c, .putFn d a b c], Traps i s trapIllOperand) ∧
    (lengthOk (s.cur.rd c) → s.isLocal s.tile loc = true → cnt.toNat ≤ 255 →
      (far.toNat % 16 ≠ 0 → ∀ i ∈ gets ++ puts, Traps i s (trapAlign far)) ∧
      (far.toNat % 16 = 0 → inTileSpace far = true →
        let pkg := s.pkgOn s.tile (tsPkg far)
        let tile := s.tileOn s.tile pkg (tsTile far)
        (s.inPartition s.tile pkg tile = false → ∀ i ∈ gets ++ puts, Traps i s (trapPartition far)) ∧
        (s.inPartition s.tile pkg tile = true → tsZero far = false ∨ s.scratchOf s.tile pkg tile < tsOff far + n →
          ∀ i ∈ gets ++ puts, Traps i s (trapAccess far))) ∧
      (far.toNat % 16 = 0 → inTileSpace far = false → n ≤ room → s.readConflicts s.tile (s.tableKeys s.tile far.toNat) = [] →
        (s.leafOf s.tile far.toNat = none → ∀ i ∈ gets ++ puts, Traps i s (trapXlate far)) ∧
        ∀ lf, s.leafOf s.tile far.toNat = some lf → (¬ leafAllows s lf far n false false → ∀ i ∈ gets, Traps i s (trapAccess far)) ∧
          (¬ leafAllows s lf far n true false → ∀ i ∈ puts, Traps i s (trapAccess far))) ∧
      (far.toNat % 16 = 0 → OwnAt s (adr loc) n 16 →
        (∀ pkg node k, inTileSpace far = true ∨ n ≤ room → s.me.roomFor s.ctx 1 = true → s.me.endsBusy s.ctx (granules k n) = false →
          (Reaches s far n false false pkg node k → s.me.endsBusy s.ctx (granules l n) = false → NoWaiters s → Copied s s.tile →
            let r := req 1 pkg node 0 (.read [⟨k, n, 0⟩]) all
            asks (.get a b c) [r] [{ dst := l, grs := granules l n, cnt := none, mate := none }] ∧
            asks (.getN d a b c) [r] [{ dst := l, grs := granules l n, cnt := some cnt.toNat, mate := none }]) ∧
          (Reaches s far n false false pkg node k → s.me.endsBusy s.ctx (granules l n) = true →
            ∀ i ∈ gets, Becomes i s { s.cur with run := .wait (.cond (.ends (granules l n ++ granules k n))) }) ∧
          (Reaches s far n true false pkg node k → ¬ Clear s l n →
            ∀ i ∈ [Instr.put a b c, .putF a b c], (i = .putF a b c → node < Config.tiles) →
              Becomes i s { s.cur with run := .wait (.cond (.ends (granules l n ++ granules k n))) }) ∧
          (Reaches s far n true false pkg node k → Clear s l n → Sound s l n →
            sends (.put a b c) [req 2 pkg node 0 (.write [(k, bytes)] false none) all] ∧
            (node < Config.tiles → sends (.putF a b c) [req 2 pkg node 0 (.write [(k, bytes)] true none) all]) ∧
            (inTileSpace far = true ∨ node < Config.tiles ∧ s.inPartition s.tile pkg node = true → ∀ i ∈ counted, node < Config.tiles →
              sends i [req 2 pkg node 0 (.write [(k, bytes)] (fullOf i) (some cnt)) all]))) ∧
        (∀ pkg node k, inTileSpace far = false → n ≤ room → Reaches s far n true false pkg node k →
          let others := if node < Config.tiles then s.inPartition s.tile pkg node = false
            else pkg = s.pkg ∧ ∃ g ∈ s.vest.pages, g.num = k / 2 ^ 16 ∧ ∀ e, s.partOf s.tile = some e → e.1 ≠ g.pid
          (Config.tiles ≤ node → Traps (.putF a b c) s (trapAccess far)) ∧
          (others → ∀ i ∈ counted, Traps i s (trapPartition far)) ∧
          (¬ others → Config.tiles ≤ node → ∀ i ∈ counted, Traps i s trapIllOperand)) ∧
        ∀ p1 n1 k1 p2 n2 k2, inTileSpace far = false → room < n → s.me.roomFor s.ctx 2 = true →
          s.me.endsBusy s.ctx (granules k1 room ++ granules k2 (n - room)) = false →
          (Reaches s far room false false p1 n1 k1 → Reaches s next (n - room) false false p2 n2 k2 →
            s.me.endsBusy s.ctx (granules l n) = false → NoWaiters s → Copied s s.tile →
            let rs := [req 1 p1 n1 0 (.read [⟨k1, room, 0⟩]) all, req 1 p2 n2 1 (.read [⟨k2, n - room, room⟩]) all]
            let ends := fun cn => [({ dst := l, grs := granules l room, cnt := cn, mate := some (tag + 1) } : GetEnd),
              { dst := l, grs := granules (l + room) (n - room), cnt := cn, mate := some tag }]
            asks (.get a b c) rs (ends none) ∧ asks (.getN d a b c) rs (ends (some cnt.toNat))) ∧
          (Reaches s far room true false p1 n1 k1 → Reaches s next (n - room) true false p2 n2 k2 → Clear s l n → Sound s l n →
            let part1 := fun (full : Bool) (cn : Option Word) => MemOp.write [(k1, bytes.take room)] full cn
            let part2 := fun (full : Bool) => MemOp.write [(k2, (bytes.drop room).take (n - room))] full none
            sends (.put a b c) [req 2 p1 n1 0 (part1 false none) all, req 2 p2 n2 1 (part2 false) all] ∧
            (n1 < Config.tiles → n2 < Config.tiles →
              sends (.putF a b c) [req 2 p1 n1 0 (part1 true none) all, req 2 p2 n2 1 (part2 true) all] ∧
              (s.inPartition s.tile p1 n1 = true → s.inPartition s.tile p2 n2 = true → ∀ i ∈ counted,
                sends i [req 2 p2 n2 0 (part2 (fullOf i)) all, req 2 p1 n1 1 (part1 (fullOf i) (some cnt)) (tag :: all)])))))

/-- R87 to R90, R201, R205: the counter instructions. CARM arms and tests, CADD adds, tests and returns the sum, CRD reads, CDIS disarms, CINC
sends a kind-4 message; a counter above 255 raises ILLOPERAND; CARM that would fire and CADD wait while the action queue is full. A CADD into g0
with accesses outstanding completes and adds behind them; one that returns the sum waits for them.
It rests on choices of the model too: log entries 56 (the held addition, and that the context's next instruction on the counter waits for it)
and 70. -/
def Obligations.Counters : Prop :=
  ∀ (s : State) (d a b c : Reg) (pkg tile : Nat),
    let cid := (s.cur.rd a).toNat
    let k := s.me.cnt.get cid
    let x := s.cur.rd b
    let y := s.cur.rd c
    let armed : Counter := { k with target := x, action := y, armed := true }
    let room := s.me.cnt.actions.length < Config.actionRoom
    let held : HeldAdd := { cid := cid, amount := x, ftag := s.cur.ftag, ctx := s.ctx, after := s.me.outTags s.ctx }
    (cid ≤ 255 → s.me.cnt.addHeld s.ctx cid = true →
      (∀ i ∈ [Instr.cadd d a b, .crd d a, .cdis a], Becomes i s { s.cur with run := .wait (.cond (.added cid)) }) ∧
      (s.actionOk y x = true → y.toNat % 16 ≠ 4 → Becomes (.carm a b c) s { s.cur with run := .wait (.cond (.added cid)) })) ∧
    (cid ≤ 255 → s.me.cnt.addHeld s.ctx cid = false →
      (s.actionOk y x = true → (y.toNat % 16 = 4 → s.destOf s.tile (BitVec.ofNat 64 (y.toNat / 2 ^ 37)) = .ok (pkg, tile)) →
        ((k.value = x → room) → ∃ t, exec (.carm a b c) s = .next t ∧ t.cur = goesOn s.cur 4 ∧ CounterBecomes s t cid armed) ∧
        (k.value = x → ¬ room → Becomes (.carm a b c) s { s.cur with run := .wait (.cond .actions) })) ∧
      (room → s.me.outTags s.ctx = [] → ∃ t, exec (.cadd d a b) s = .next t ∧ t.cur = goesOn (s.cur.wr d (k.value + x)) 4 ∧
        CounterBecomes s t cid { k with value := k.value + x }) ∧
      (¬ room → Becomes (.cadd d a b) s { s.cur with run := .wait (.cond .actions) }) ∧
      (room → s.me.outTags s.ctx ≠ [] → d ≠ 0 → Becomes (.cadd d a b) s { s.cur with run := .wait (.cond .drained) }) ∧
      (room → s.me.outTags s.ctx ≠ [] → d = 0 → ∃ t, exec (.cadd d a b) s = .next t ∧ t.cur = goesOn s.cur 4 ∧
        t.me.cnt = { s.me.cnt with adds := s.me.cnt.adds ++ [held] } ∧ SameOutside s t s.tile) ∧
      Becomes (.crd d a) s (goesOn (s.cur.wr d k.value) 4) ∧
      ∃ t, exec (.cdis a) s = .next t ∧ t.cur = goesOn s.cur 4 ∧ CounterBecomes s t cid { k with armed := false }) ∧
    (cid ≤ 255 → s.actionOk y x = false → Traps (.carm a b c) s trapIllOperand) ∧
    (255 < cid → ∀ i ∈ [Instr.carm a b c, .cadd d a b, .crd d a, .cdis a], Traps i s trapIllOperand) ∧
    ((s.cur.rd a).toNat < 2 ^ 27 → x.toNat ≤ 255 → s.destOf s.tile (s.cur.rd a) = .ok (pkg, tile) →
      ∃ t, exec (.cinc a b c) s = .next t ∧ t.cur = goesOn s.cur 4 ∧
        Injects s t [(4, BitVec.ofNat 15 pkg, BitVec.ofNat 12 tile, .incr x y, s.me.outTags s.ctx)] ∧ t.empty = s.empty) ∧
    (2 ^ 27 ≤ (s.cur.rd a).toNat ∨ 255 < x.toNat → Traps (.cinc a b c) s trapIllOperand)

/-! ### Engines, locks, system instructions -/

/-- R246 to R248, R129: MPOST and CPOST of a legal record in the tile's own scratchpad, with nothing outstanding and room, enter it with the
next number, which gD takes; MSEQ and CSEQ read the completed number; MWAIT and CWAIT go on once it is reached and wait before; MSTAT and
CSTAT read the status word; a number not posted raises ILLOPERAND.
It rests on choices of the model too: log entry 30. -/
def Obligations.EnginePosts : Prop :=
  ∀ (s : State) (d a : Reg) (m : Bool),
    let e := s.me.engine m
    let w := s.cur.rd a
    let r := wordsOf 8 (s.read (ownKey s (adr w)) 64)
    let post := if m then Instr.mpost d a else .cpost d a
    let wait := if m then Instr.mwait a else .cwait a
    let stat := if m then Instr.mstat d a else .cstat d a
    (s.cur.held = none → s.isLocal s.tile w = true → OwnAt s (adr w) 64 64 → Sound s (ownKey s (adr w)) 64 → Clear s (ownKey s (adr w)) 64 →
      ((recFieldsOk m r && notifyZeros r) = true → s.notifyDest s.tile r = .ok () → s.me.outTags s.ctx = [] → e.hasRoom m = true →
        ∃ t k, exec post s = .next t ∧ t.cur = goesOn { s.cur.wr d (BitVec.ofNat 64 (e.last + 1)) with posts := s.cur.posts ++ [(m, e.last + 1)] } 4 ∧
          t.me.engine m = { e with last := e.last + 1, cmds := e.cmds ++ [k] } ∧ t.me.engine (!m) = s.me.engine (!m) ∧
          k.seq = e.last + 1 ∧ k.record = r ∧ k.ftag = s.cur.ftag ∧ k.bad = false ∧ k.result = none ∧ SameOutside s t s.tile) ∧
      ((recFieldsOk m r && notifyZeros r) = false → Traps post s trapIllOperand)) ∧
    Becomes (if m then .mseq d else .cseq d) s (goesOn (s.cur.wr d (BitVec.ofNat 64 e.done)) 4) ∧
    (w.toNat ≤ e.last → w.toNat ≤ e.done → Becomes wait s (goesOn s.cur 4)) ∧
    (w.toNat ≤ e.last → e.done < w.toNat → Becomes wait s { s.cur with run := .wait (.cond (.engine m w.toNat)) }) ∧
    (e.last < w.toNat → Traps wait s trapIllOperand ∧ Traps stat s trapIllOperand) ∧
    (w ≠ 0 → w.toNat ≤ e.last →
      Becomes stat s (goesOn (s.cur.wr d (match e.status.find? (fun p => p.1 == w.toNat) with
        | some p => p.2
        | none => if w.toNat ≤ e.done ∨ w.toNat ∈ e.beyond then 0xFE00 else 0xFF00)) 4))

/-- R257, R259, R270: TXBEG takes the lowest free slot and its handle, with the operand or a fresh timestamp as its age key, or 0 where no
slot is free; TXCOMMIT makes an active transaction with nothing requested COMMITTING; TXEND of one that holds nothing frees its slot with the
next generation, and of another sends the end to every home; without a transaction both say NOTX.
It rests on choices of the model too: log entries 3, 14 and 35. -/
def Obligations.Transactions : Prop :=
  ∀ (s : State) (d a : Reg) (slot : Nat) (x : Tx),
    let ts := s.cur.rd a
    let now := if s.sysTime % 2 ^ 64 = 0 then 1 else s.sysTime % 2 ^ 64
    let fresh := BitVec.ofNat 64 (Nat.max now (s.me.locks.lastTs.toNat + 1))
    let homes := s.txHomes s.tile slot
    let gone : Nat := if x.state = .wounded ∨ x.state = .revoked then 4 else 0
    (s.me.locks.freeSlot = some slot →
      let gen := ((mget s.me.locks.txs slot).map (·.gen)).getD 0
      ∃ t, exec (.txbeg d a) s = .next t ∧ t.cur = goesOn (s.cur.wr d (s.handleOf s.tile slot gen)) 4 ∧
        mget t.me.locks.txs slot = some { gen := gen, begun := true, ts := if ts = 0 then fresh else ts, state := .active, since := 0 } ∧
        t.me.locks.lastTs = (if ts = 0 then fresh else s.me.locks.lastTs) ∧ t.me.locks.held = s.me.locks.held ∧ SameOutside s t s.tile) ∧
    (s.me.locks.freeSlot = none → Becomes (.txbeg d a) s (goesOn (s.cur.wr d 0) 4)) ∧
    (s.myTx = .none → Becomes (.txcommit d) s (saying s.cur d 5) ∧ Becomes (.txend d) s (saying s.cur d 5)) ∧
    (s.myTx = .foreign → Traps (.txcommit d) s trapIllOperand ∧ Traps (.txend d) s trapIllOperand) ∧
    (s.myTx = .tx slot x →
      (x.state = .wounded ∨ x.state = .revoked → Becomes (.txcommit d) s (saying s.cur d 4)) ∧
      (x.state = .committing → Becomes (.txcommit d) s (saying s.cur d 0)) ∧
      (x.state = .active → s.me.locks.requests (s.handleOf s.tile slot x.gen) ≠ [] → Becomes (.txcommit d) s (saying s.cur d 1)) ∧
      (x.state = .active → s.me.locks.requests (s.handleOf s.tile slot x.gen) = [] →
        ∃ t, exec (.txcommit d) s = .next t ∧ t.cur = saying s.cur d 0 ∧
          mget t.me.locks.txs slot = some { x with state := .committing } ∧ SameOutside s t s.tile) ∧
      (homes = [] → s.me.locks.requests (s.handleOf s.tile slot x.gen) = [] → s.roomForHomes 0 = true →
        ∃ t, exec (.txend d) s = .next t ∧ t.cur = saying s.cur d gone ∧
          mget t.me.locks.txs slot = some { x with gen := x.gen + 1, begun := false } ∧ SameOutside s t s.tile) ∧
      (homes ≠ [] → s.me.locks.requests (s.handleOf s.tile slot x.gen) = [] → s.roomForHomes homes.length = true →
        ∃ t, exec (.txend d) s = .next t ∧ AwaitsLocks s t .txend ((List.range homes.length).map (s.me.mu.nextTag + ·)) d gone ∧
          mget t.me.locks.txs slot = some { x with gen := x.gen + 1, begun := false } ∧
          (∀ h ∈ t.me.locks.held, h.slot ≠ slot) ∧
          Injects s t (homes.mapIdx fun i h =>
            toNewel s (h / 4) (h % 4) (lockBody s 0 x.ts (s.handleOf s.tile slot x.gen) .endTx (s.me.mu.nextTag + i)))))

/-- R257, R258, R260, R262, R267 to R270, R273, R71: the lock instructions. An acquire that passes its checks keeps a record of what it wants and
asks the name's home: LKACQ and LKTRY wait for the answer, LKACQM, whose class must be legal, goes on with PENDING. A name held or requested is
HELD; then come the hierarchy and a full table; a name that the client is still giving up is waited for. An LKCVT weakens at once, or escalates
and waits; one of a mode that neither covers raises ILLOPERAND; one of a requested name is HELD. LKREL forgets the name and asks the home; a
conversion of it still pending is given up and its context resumes with NOTHELD. COMMITTING refuses acquires and escalations alone; WOUNDED and
REVOKED refuse acquires and conversions, REVOKED releases too. Illegal names and modes, and a transaction of another tile, raise ILLOPERAND. It
rests on choices of the model too: log entry 35. -/
def Obligations.Locks : Prop :=
  ∀ (s : State) (d a b c : Reg) (slot : Nat) (x : Tx) (h : HeldLock),
    let name := s.cur.rd a
    let m := (s.cur.rd b).extractLsb' 0 3
    let cls := (s.cur.rd c).extractLsb' 0 8
    let l := s.me.locks
    let tag := s.me.mu.nextTag
    let body := lockBody s name x.ts (s.handleOf s.tile slot x.gen)
    let home := s.lockHome s.tile name
    let prio := ((s.jobOf s.tile).map fun j => j.prioOf cls).getD 0
    let clsOk := (s.cur.rd c).toNat ≤ 255 ∧ s.classOk s.tile cls = true
    let acquires := fun (i : Instr) => i = .lkacq d a b ∨ i = .lktry d a b ∨ i = .lkacqm d a b c ∧ clsOk
    let status := fun (i : Instr) (code : Nat) => Becomes i s (saying s.cur d code)
    let asks := fun (i : Instr) (form : LockForm) (b : Body) (p : State → Prop) => ∃ t, exec i s = .next t ∧ AwaitsLocks s t form [tag] d 0 ∧
      Injects s t [toNewel s (home / 4) (home % 4) b] ∧ p t
    let waits := fun (i : Instr) (k : Machine.Cond) => Becomes i s { s.cur with run := .wait (.cond k) }
    let mx := (s.getDie (dieOfTile s.tile)).newel.matrix s.me.regs.asid
    let weak := covers mx h.mode m
    (¬ clsOk → Traps (.lkacqm d a b c) s trapIllOperand) ∧
    (lockOperandsOk name (s.cur.rd b) = false → (∀ i, acquires i → Traps i s trapIllOperand) ∧ Traps (.lkcvt d a b) s trapIllOperand) ∧
    (lockNameOk name = false → Traps (.lkrel d a) s trapIllOperand) ∧
    (lockOperandsOk name (s.cur.rd b) = true → s.myTx = .none → (∀ i, acquires i → status i 5) ∧ status (.lkcvt d a b) 5) ∧
    (lockOperandsOk name (s.cur.rd b) = true → s.myTx = .foreign →
      (∀ i, acquires i → Traps i s trapIllOperand) ∧ Traps (.lkcvt d a b) s trapIllOperand) ∧
    (lockOperandsOk name (s.cur.rd b) = true → s.myTx = .tx slot x →
      (x.state = .wounded ∨ x.state = .revoked → (∀ i, acquires i → status i 4) ∧ status (.lkcvt d a b) 4) ∧
      (x.state = .committing → ∀ i, acquires i → status i 9) ∧
      (x.state = .active →
        (l.record slot name = some h → ∀ i, acquires i → status i 7) ∧
        (l.record slot name = none → l.undoing name = true → ∀ i, acquires i → waits i (.undone name)) ∧
        (l.record slot name = none → l.undoing name = false → l.hierOk slot name m = false → ∀ i, acquires i → status i 2) ∧
        (l.record slot name = none → l.undoing name = false → l.hierOk slot name m = true →
          (Config.heldRecords ≤ l.held.length → ∀ i, acquires i → status i 3) ∧
          (l.held.length < Config.heldRecords → s.me.roomFor s.ctx 1 = false → ∀ i, acquires i → waits i (.requests 1)) ∧
          (l.held.length < Config.heldRecords → s.me.roomFor s.ctx 1 = true →
            let wants := fun (t : State) => t.me.locks.held = l.held ++ [{ slot := slot, name := name, mode := 0, want := m }]
            asks (.lkacq d a b) .acquire (body (.acquire false m) tag) wants ∧ asks (.lktry d a b) .try_ (body (.acquire true m) tag) wants ∧
            (clsOk → ∃ t, exec (.lkacqm d a b c) s = .next t ∧ t.cur = saying s.cur d 8 ∧ wants t ∧
              Injects s t [toNewel s (home / 4) (home % 4)
                (lockBodyFor s name x.ts (s.handleOf s.tile slot x.gen) (.acquire false m) tag cls prio)])))) ∧
      (x.state = .active ∨ x.state = .committing →
        (l.record slot name = none → status (.lkcvt d a b) 6) ∧
        (l.record slot name = some h →
          (h.want ≠ 0 → status (.lkcvt d a b) 7) ∧
          (h.want = 0 → h.mode = m ∨ weak = false ∧ covers mx m h.mode = false → Traps (.lkcvt d a b) s trapIllOperand) ∧
          (h.want = 0 → h.mode ≠ m → weak = true ∨ covers mx m h.mode = true →
            (x.state = .committing → weak = false → status (.lkcvt d a b) 9) ∧
            (x.state = .active ∨ weak = true →
              (l.hierOk slot name m = false → status (.lkcvt d a b) 2) ∧
              (l.hierOk slot name m = true → l.undoing name = true → waits (.lkcvt d a b) (.undone name)) ∧
              (l.hierOk slot name m = true → l.undoing name = false → s.me.roomFor s.ctx 1 = true →
                asks (.lkcvt d a b) (if weak then .weaken else .convert) (body (.convert m) tag) fun t =>
                  t.me.locks.record slot name = some { h with mode := if weak then m else h.mode, want := m })))))) ∧
    (lockNameOk name = true → (s.myTx = .none → status (.lkrel d a) 5) ∧ (s.myTx = .foreign → Traps (.lkrel d a) s trapIllOperand)) ∧
    (lockNameOk name = true → s.myTx = .tx slot x →
      (x.state = .revoked → status (.lkrel d a) 4) ∧
      (x.state ≠ .revoked →
        (l.record slot name = none → status (.lkrel d a) 6) ∧
        (l.record slot name = some h →
          (h.mode = 0 → status (.lkrel d a) 6) ∧
          (h.mode ≠ 0 → l.hasChild slot name = true → status (.lkrel d a) 2) ∧
          (h.mode ≠ 0 → l.hasChild slot name = false → s.me.roomFor s.ctx 1 = true →
            let gone := fun (t : State) => ∀ y ∈ t.me.locks.held, ¬ (y.slot = slot ∧ y.name = name)
            ((∀ p ∈ l.pend, p.slot = slot → p.name = name → p.converts = false) → asks (.lkrel d a) .release (body .release tag) gone) ∧
            ∀ p k e, l.pend = [p] → p.slot = slot → p.name = name → p.form = .convert → p.undo = false → s.me.lockWaiter p.tag = some k → k ≠ s.ctx →
              s.ctx < 8 → (s.getCtx s.tile k).run = .wait (.locks .convert [p.tag] e 0) → asks (.lkrel d a) .release (body .release tag) fun t => gone t ∧
                t.getCtx s.tile k = saying (s.getCtx s.tile k) e 6 ∧ ∀ q ∈ t.me.locks.pend, q.tag = p.tag → p.tag ≠ tag → q.undo = true))))

/-- R266, R268, R271, R272: LKMAT of a legal matrix with no lock in use asks every home of the partition, and says BUSY otherwise; LEASE and
LEASER on this package or scratchpad say NOTREMOTE and NOTHELD, and on another package's HBM ask its home; LKQRY answers by selector.
It rests on choices of the model too: log entries 6 (a release drops whichever grant gave the lease), 14 and 35. -/
def Obligations.MatrixLeasesAndQueries : Prop :=
  ∀ (s : State) (d a b : Reg) (p : Piece) (name : Nat),
    let w := s.cur.rd a
    let m := s.cur.rd b
    let tag := s.me.mu.nextTag
    let die := (s.getDie (dieOfTile s.tile)).newel
    let lock := fun n => BitVec.ofNat 64 (3 * 2 ^ 62 + n)
    let handle := s.handleOf s.tile 0 0
    let held := s.dieLease name
    let homes := s.lockHomes s.tile
    (matrixOk w = false → Traps (.lkmat d a) s trapIllOperand) ∧
    (matrixOk w = true → s.lockBusy = true → Becomes (.lkmat d a) s (saying s.cur d 1)) ∧
    (matrixOk w = true → s.lockBusy = false → s.roomForHomes homes.length = true →
      ∃ t, exec (.lkmat d a) s = .next t ∧ AwaitsLocks s t .matrix ((List.range homes.length).map (tag + ·)) d 0 ∧
        Injects s t (homes.mapIdx fun i h => toNewel s (h / 4) (h % 4) (lockBody s 0 0 handle (.matrix w) (tag + i)))) ∧
    ((s.lockPkgs s.tile).length = 1 → homes = [0, 1, 2, 3].map (4 * (s.lockPkgs s.tile).headD 0 + ·)) ∧
    (m ≠ 3 → m ≠ 7 → Traps (.lease d a b) s trapIllOperand) ∧
    (s.resolve1 s.tile (adr w) 1 1 needRead = .ok p → WalkFree s (adr w) →
      (s.leaseName p = none → (m = 3 ∨ m = 7 → Becomes (.lease d a b) s (saying s.cur d 10)) ∧ Becomes (.leaser d a) s (saying s.cur d 6) ∧
        (m = 4 → Becomes (.lkqry d a b) s (goesOn (s.cur.wr d 0) 4))) ∧
      (s.leaseName p = some name → p.key < Config.hbmBytes →
        (m = 3 ∨ m = 7 → m.toNat ≤ held.toNat → Becomes (.lease d a b) s (saying s.cur d 0)) ∧
        (m = 3 ∨ m = 7 → held.toNat < m.toNat → s.me.roomFor s.ctx 1 = true →
          ∃ t, exec (.lease d a b) s = .next t ∧ AwaitsLocks s t (.lease name (m.extractLsb' 0 3)) [tag] d 0 ∧
            Injects s t [toNewel s p.pkg (homeDie p.key) (lockBody s (lock name) 0 handle (.lease (m.extractLsb' 0 3)) tag)]) ∧
        (held = 0 → Becomes (.leaser d a) s (saying s.cur d 6)) ∧
        (held ≠ 0 → s.me.roomFor s.ctx 1 = true →
          ∃ t, exec (.leaser d a) s = .next t ∧ AwaitsLocks s t .leaser [tag] d 0 ∧
            mget (t.getDie (dieOfTile s.tile)).newel.leases name = none ∧
            Injects s t [toNewel s p.pkg (homeDie p.key) (lockBody s (lock name) (BitVec.allOnes 64) handle .leaser tag)]) ∧
        (m = 4 → Becomes (.lkqry d a b) s (goesOn (s.cur.wr d (BitVec.ofNat 64 held.toNat)) 4)))) ∧
    (m = 0 → Becomes (.lkqry d a b) s (goesOn (s.cur.wr d (((s.queryTx w).map fun q => q.2.ts).getD 0)) 4)) ∧
    (m = 1 → s.queryTx w = none → Becomes (.lkqry d a b) s (goesOn (s.cur.wr d 0) 4)) ∧
    (∀ slot y, m = 1 → s.queryTx w = some (slot, y) →
      let l := s.me.locks
      let n := (l.held.filter fun h => h.slot == slot && h.mode != 0).length
      let r := (l.requests (s.handleOf s.tile slot y.gen)).length
      Becomes (.lkqry d a b) s (goesOn (s.cur.wr d (BitVec.ofNat 64 (txCode y.state + Nat.min n 255 * 2 ^ 8 + Nat.min r 255 * 2 ^ 16))) 4)) ∧
    (∀ slot y h, m = 2 → lockNameOk w = true → s.myTx = .tx slot y → s.me.locks.record slot w = some h →
      Becomes (.lkqry d a b) s (goesOn (s.cur.wr d (at_ 4 h.want ||| at_ 3 (BitVec.ofBool (h.want != 0)) ||| at_ 0 h.mode)) 4)) ∧
    (∀ slot y, m = 2 → lockNameOk w = true → s.myTx = .tx slot y → s.me.locks.record slot w = none →
      Becomes (.lkqry d a b) s (goesOn (s.cur.wr d 0) 4)) ∧
    (m = 2 → lockNameOk w = true → s.myTx = .none → Becomes (.lkqry d a b) s (goesOn (s.cur.wr d 0) 4)) ∧
    (m = 3 → Becomes (.lkqry d a b) s (goesOn (s.cur.wr d (die.matrix s.me.regs.asid)) 4)) ∧
    (4 < m.toNat → Traps (.lkqry d a b) s trapIllOperand)

/-- R298, R300, R331: SNAP of a job with the capability and no running or migrating group returns the new identifier and cuts the running tile:
its colour flips, its log opens and every block is uncopied; it returns 0 while a snapshot runs; SNAPQ waits for the Vestibule's answer;
RESUMEQ, TIME and CYCLE read; TRIG sends its trigger to the Vestibule of the partition's lowest package, and nothing with FTAG 0. Each
answers a next state; a job without the capability cannot snapshot.
It rests on choices of the model too: log entries 3 and 42. -/
def Obligations.SnapshotAndTimeInstructions : Prop :=
  ∀ (s : State) (d a : Reg) (j : Job) (g : Group),
    (s.jobOf s.tile = some j → j.snapCap = false → Traps (.snap d) s trapIllOperand) ∧
    (s.jobOf s.tile = some j → j.snapCap = true → s.snapping j.group = true → Becomes (.snap d) s (goesOn (s.cur.wr d 0) 4)) ∧
    (s.jobOf s.tile = some j → j.snapCap = true → s.snapping j.group = false → s.migrating j.group = false → s.group j.group = some g →
      s.tile < Config.tiles →
      ∃ t h, exec (.snap d) s = .next t ∧ t.cur = goesOn (s.cur.wr d (BitVec.ofNat 64 (g.lastId + 1))) 4 ∧
        t.group j.group = some h ∧ h.lastId = g.lastId + 1 ∧ h.colour = ~~~g.colour ∧ t.snapping j.group = true ∧
        t.me.snap.colour = ~~~s.me.snap.colour ∧ t.me.snap.cut = true ∧ t.me.snap.logOn = true ∧ t.me.uncop = List.range 512 ∧
        t.me.sid = BitVec.ofNat 32 (g.lastId + 1) ∧ t.mem = s.mem) ∧
    ((s.cur.rd a).toNat < 2 ^ 32 → Becomes (.snapq d a) s { s.cur with run := .wait (.snapq d (s.cur.rd a).toNat) }) ∧
    (2 ^ 32 ≤ (s.cur.rd a).toNat → Traps (.snapq d a) s trapIllOperand) ∧
    (s.jobOf s.tile = some j → s.group j.group = some g →
      Becomes (.resumeq d) s (goesOn (s.cur.wr d (BitVec.ofNat 64 (g.rcount % 2 ^ 32 * 2 ^ 32 + g.rsid % 2 ^ 32))) 4)) ∧
    Becomes (.time d) s (goesOn (s.cur.wr d (BitVec.ofNat 64 (s.time0 + s.cycle * 5 / 18))) 4) ∧
    Becomes (.cycle d) s (goesOn (s.cur.wr d (BitVec.ofNat 64 s.cycle)) 4) ∧
    (s.cur.ftag = 0 → Becomes .trig s (goesOn s.cur 4)) ∧
    (s.cur.ftag ≠ 0 → ∃ t least, exec .trig s = .next t ∧ t.cur = goesOn s.cur 4 ∧
      Injects s t [(4, BitVec.ofNat 15 least, BitVec.ofNat 12 Config.vestibuleNode, .trig, s.me.outTags s.ctx)] ∧
      (least = s.pkg ∨ least ∈ s.lockPkgs s.tile) ∧ least ≤ s.pkg ∧ ∀ q ∈ s.lockPkgs s.tile, least ≤ q)

/-- R119, R286, R287: XINV and INJECT at job privilege raise PRIVILEGED. XINV removes every cached translation of the ASID it names, or those
that cover the address, and waits for the accesses made through them and the copy commands with rows translated by them; INJECT with injection
enabled marks a granule of the tile's own scratchpad, the line of an address in HBM or the granules of one in a window, or arms a CRC failure,
and counts; what lies on another package is marked there. It rests on choices of the model too: log entry 36. -/
def Obligations.SystemInstructions : Prop :=
  ∀ (s : State) (a b : Reg) (p : Piece),
    let w := s.cur.rd b
    let asid := w.extractLsb' 0 16
    let all := w.getLsbD 16
    let va := (s.cur.rd a).toNat % 2 ^ 55
    let hit := fun (e : Tlb) => e.asid = asid ∧ (all = true ∨ (e.base ≤ va ∧ va < e.base + e.size))
    let x := s.cur.rd a
    let counts := fun (t : State) => t.me.regs.errCnt = if s.me.regs.errCnt = 255 then 255 else s.me.regs.errCnt + 1
    let marks := fun (k n : Nat) => ∃ t, exec (.inject a b) s = .next t ∧ t.cur = goesOn s.cur 4 ∧ counts t ∧
      (∀ m, m ∈ t.bad ↔ m ∈ s.bad ∨ m = (k, n)) ∧ t.mem = s.mem
    (s.cur.sys = false → Traps (.xinv a b) s trapPrivileged ∧ Traps (.inject a b) s trapPrivileged) ∧
    (s.cur.sys = true → 2 ^ 17 ≤ w.toNat → Traps (.xinv a b) s trapIllOperand) ∧
    (s.cur.sys = true → w.toNat < 2 ^ 17 →
      ∃ t, exec (.xinv a b) s = .next t ∧ t.cur = { s.cur with run := .wait (.xinv (s.staleAccesses asid all va) (s.staleCopies asid all va)) } ∧ t.mem = s.mem ∧
        (∀ u, ∀ e ∈ (t.getTile u).tlb, ¬ hit e) ∧ (∀ u, ∀ e ∈ (t.getDie u).dtu, ¬ hit e) ∧
        (∀ u, ∀ e ∈ (s.getTile u).tlb, ¬ hit e → e ∈ (t.getTile u).tlb)) ∧
    (s.cur.sys = true → s.me.regs.errEn = false ∨ 2 < w.toNat → Traps (.inject a b) s trapIllOperand) ∧
    (s.cur.sys = true → s.me.regs.errEn = true →
      (w = 0 → s.tile < Config.tiles → s.isLocal s.tile x = true → OwnAt s (adr x) 16 16 → marks (ownKey s (adr x)) 16) ∧
      (w = 1 → s.resolve1 s.tile (adr x) 64 64 needRead = .ok p → s.readConflicts s.tile (s.walkKeys s.tile [(adr x, 64)]) = [] →
        (p.pkg = s.pkg → Config.tiles ≤ p.node → marks (p.key / 64 * 64) 64) ∧
        (p.pkg = s.pkg → p.node < Config.tiles → ∃ t, exec (.inject a b) s = .next t ∧ t.cur = goesOn s.cur 4 ∧ counts t ∧ t.mem = s.mem ∧
          ∀ m, m ∈ t.bad ↔ m ∈ s.bad ∨ ∃ g ∈ granules p.key p.len, m = (16 * g, 16)) ∧
        (p.pkg ≠ s.pkg → ∃ t, exec (.inject a b) s = .next t ∧ t.cur = goesOn s.cur 4 ∧ counts t ∧ t.mem = s.mem ∧ t.bad = s.bad)) ∧
      (w = 2 → ∃ t, exec (.inject a b) s = .next t ∧ t.cur = goesOn s.cur 4 ∧ counts t ∧ t.me.regs.armed = true ∧ t.bad = s.bad ∧
        t.mem = s.mem))

/-! ### Traps, reset, steps, encodings -/

/-- R276 to R279, R83, R80, R140, R156, R117: a handler-level trap other than XLATE, of a handler that reports at job privilege and is not the
trap handler itself, ends the handler with its sends discarded. Before a COMMIT the message returns to the head of its queue with TRAPS one
higher, and is discarded at the fourth; after one it is consumed. The report, in the layout of R278, enters the outbound queue. An illegal
pattern raises ILLEGAL and an unfetchable halfword FETCH. The report covers what the context has outstanding.
It rests on choices of the model too: log entries 18 and 28. -/
def Obligations.HandlerTraps : Prop :=
  ∀ (s : State) (tr : Trap) (pc : Addr) (insn : Nat) (e : Entry) (j : Job),
    let c := s.cur
    let t := s.takeTrap s.tile s.ctx tr pc insn
    let last := c.committed = true ∨ 4 ≤ e.traps + 1
    let n := if c.committed then e.traps else e.traps + 1
    let others := s.me.land.slots.filter (·.key != c.key)
    let h := s.jobHeader s.tile e.hdr
    (c.run = .ready → c.late = [] → c.sys = false → c.cls ≠ 0xFE → tr.code ≠ 0x05 → s.me.entry c.key = some e → s.jobOf s.tile = some j →
      s.me.reports = [] → s.me.outq.length < Config.outboundRoom → s.me.land.spill = [] →
      t.cur.run = .idle ∧ t.cur.sends = [] ∧ t.mem = s.mem ∧ t.empty = s.empty ∧
      (last → t.me.land.slots = others) ∧
      (¬ last → t.me.land.slots = { e with ctx := none, traps := e.traps + 1 } :: others) ∧
      ∃ q, t.me.outq = s.me.outq ++ [q] ∧ q.after = s.me.outTags s.ctx ∧ q.msg.hdr.cls = 0xFE ∧ q.msg.hdr.kind = 0 ∧
        q.msg.hdr.dtile = BitVec.ofNat 12 (s.realTile s.tile j.trapt) ∧
        q.msg.body = .words [
          at_ 56 s.me.lost ||| BitVec.ofNat 64 (n % 16 * 2 ^ 24 + s.ctx % 8 * 2 ^ 16 + (if c.committed = false ∧ 4 ≤ e.traps + 1 then 2 ^ 11 else 0) +
            (if c.committed then 2 ^ 8 else 0)) ||| at_ 0 tr.code,
          at_ 0 pc, at_ 0 tr.addr, at_ 28 h.spkg ||| at_ 16 h.stile ||| at_ 0 h.mseq, s.stateReg .tileid, h.h0, BitVec.ofNat 64 insn,
          BitVec.ofNat 64 s.cycle]) ∧
    exec (.illegalInstruction insn) s = .next (s.takeTrap s.tile s.ctx { code := 0x01, addr := 0 } c.pc insn) ∧
    exec (.fetchFault pc false) s = .next (s.takeTrap s.tile s.ctx { code := 0x09, addr := pc } c.pc 0) ∧
    exec (.fetchFault pc true) s = .next (s.takeTrap s.tile s.ctx { code := 0x05, addr := pc } c.pc 0) ∧
    (tr.code = 0x05 → c.run = .ready → c.late = [] → c.committed = false → s.me.entry c.key = some e →
      t.cur.run = .idle ∧ t.me.land.slots = { e with ctx := none, hold := true } :: others ∧
      ∃ x, t.vest.xlates = s.vest.xlates ++ [x] ∧ x.tile = s.tile ∧ x.va = tr.addr ∧ x.key = some c.key)

/-- R356, R337, R320, R345, R21, R78, R57, R355: device reset with firmware whose key has the fused digest, whose signature holds under it
and whose security version is at least the fused minimum leaves memory zero but for BASE and NUNITS in queue 0's control block, FULL set, no
uncorrectable mark, every context idle, SRNG 1, FPM, FPF and TXH 0, SYSCTL with SCRDIV 4 and SCRUB 1, no partition, no snapshot group, queue 0
and READY; each port is up with the lanes and the peer its training finds; absent tiles are reported; the package number and the retirement
list stay. Any other firmware stops at step 1 with BOOTFAIL.
It rests on choices of the model too: log entries 1, 2, 7, 9, 20 and 41. -/
def Obligations.DeviceReset : Prop :=
  ∀ (s : State) (image key signature : List Byte) (links : List (Nat × Nat × Nat × Nat)) (u c k g p peer x y : Nat),
    let good := sha512 key = (List.range 64).map Config.fusedKeyByte ∧
      pssVerify (Config.keyModulus key) (Config.keyExponent key) image signature = true ∧ Config.fusedMinimum ≤ Config.securityVersion image
    (good → ∃ t, exec (.deviceReset ⟨image, key, signature, links⟩) s = .next t ∧
      t.byteAt k = (if k = Config.queue0Ctl + 33 then 0x20 else if k = Config.queue0Ctl + 41 then 1 else 0) ∧ t.full g = true ∧ t.bad = [] ∧
      t.power = true ∧ t.pkg = s.pkg ∧ t.cycle = 0 ∧ (t.getCtx u c).run = .idle ∧ (t.getCtx u c).srng = 1 ∧ (t.getCtx u c).fpm = 0 ∧ (t.getCtx u c).fpf = 0 ∧ (t.getCtx u c).txh = 0 ∧
      (t.getTile u).regs.scrdiv = 4 ∧ (t.getTile u).regs.scrub = true ∧ (t.getTile u).regs.asid = 0 ∧ (t.getTile u).land.slots = [] ∧
      t.vest.parts = [] ∧ t.vest.groups = [] ∧ t.vest.queues.map (·.1) = [0] ∧ t.host.ready = true ∧ t.host.bootfail = false ∧
      t.host.step = 7 ∧ t.host.firmware = some image ∧ (∀ e, e ∈ t.fabric.defects ↔ e ∈ s.fabric.defects ∨ e ∈ s.fabric.retired) ∧
      ((∀ n, n < Config.tiles → t.fabric.absent n = false) → t.host.degraded = []) ∧
      ((∃ n, n < Config.tiles ∧ t.fabric.absent n = true) → t.host.degraded = (List.range 4).map fun d =>
        ((List.range Config.tilesPerDie).filter fun i => t.fabric.absent (Config.tilesPerDie * d + i)).length) ∧
      ((∀ l ∈ links, l.1 < 7) → p < 7 →
        (links.filter (·.1 == p) = [(p, peer, x, y)] → 0 < x → x ≤ 32 → 0 < y → y ≤ 32 →
          let q := t.getPort p
          q.state = .up ∧ q.peer = peer ∧ q.txl = x ∧ q.rxl = y ∧ q.failed = 64 - x - y) ∧
        ((∀ l ∈ links, l.1 ≠ p) → t.getPort p = .reset))) ∧
    (¬ good → ∃ b, exec (.deviceReset ⟨image, key, signature, links⟩) s = .next b ∧
      b.host.ready = false ∧ b.host.bootfail = true ∧ b.host.step = 1 ∧ b.vest.queues = [] ∧ b.byteAt k = s.byteAt k ∧ b.full g = s.full g)

/-- R9, R356, R320 (the model's canonical form of memory, log entry 1, and its place for queue 0, log entry 7): at reset memory reads zero
everywhere but for BASE and NUNITS in queue 0's control block, lists those bytes alone, and is in canonical form. -/
def Obligations.ResetMemory : Prop :=
  State.reset.mem = [(Config.queue0Ctl + 33, 0x20), (Config.queue0Ctl + 41, 1)] ∧ Memory.wf State.reset.mem = true ∧
    State.reset.read64 (Config.queue0Ctl + 32) = BitVec.ofNat 64 Config.queue0Ring ∧
    State.reset.read64 (Config.queue0Ctl + 40) = BitVec.ofNat 64 Config.queue0Units ∧
    ∀ k, k ≠ Config.queue0Ctl + 33 → k ≠ Config.queue0Ctl + 41 → State.reset.byteAt k = 0

/-- Every step keeps the canonical form of memory: addresses strictly rising, no zero byte listed.
It rests on choices of the model too: log entry 1. -/
def Obligations.StepKeepsMemoryCanonical : Prop :=
  ∀ s t : State, Memory.wf s.mem = true → step s = .next t → Memory.wf t.mem = true

/-- R139 to R156: decoding the encoding of a well-formed instruction gives it back with its length, whatever follows it; an instruction's
encoding is one or two halfwords. -/
def Obligations.DecodeOfEncode : Prop :=
  ∀ (i : Instr) (rest : List Byte), i.wellFormed = true → encode i ≠ [] →
    decode (encodeBytes i ++ rest) = .ok (i, 2 * (encode i).length) ∧ (encode i).length ≤ 2

/-- R139 to R148, R156: words written out from the formats, the immediate forms, the branches and the compressed forms of 09 and from the
opcodes of 11 decode to the instructions they stand for, and patterns that are no instruction do not decode. -/
def Obligations.DecodeWords : Prop :=
  ∀ rest : List Byte,
    decode (leBytes 4 0x0005C034 ++ rest) = .ok (.add 3 4 5, 4) ∧
    decode (leBytes 4 0xFF82D234 ++ rest) = .ok (.bcLt 3 4 (-8), 4) ∧
    decode (leBytes 4 0x7C00CD30 ++ rest) = .ok (.fmoviF64H 3 0x7C00, 4) ∧
    decode (leBytes 4 0xFF81CD43 ++ rest) = .ok (.fmoviF32Bf 4 0xFF81, 4) ∧
    decode (leBytes 4 0x0045C783 ++ rest) = .ok (.shri 8 3 5, 4) ∧
    decode (leBytes 2 0x52FD ++ rest) = .ok (.cAddi 2 (-3), 2) ∧ decode (leBytes 2 0xB000 ++ rest) = .ok (.cDone, 2) ∧
    decode (leBytes 2 0x0100 ++ rest) = .ok (.cMov 1 0, 2) ∧ decode (leBytes 2 0x0000 ++ rest) = .error .illegalPattern ∧
    decode (leBytes 2 0xB500 ++ rest) = .error .illegalPattern ∧ decode (leBytes 2 0xFF00 ++ rest) = .error .illegalMajor ∧
    decode (leBytes 4 0x0120C783 ++ rest) = .error .illegalPattern ∧ decode (leBytes 4 0x3C00CD34 ++ rest) = .error .illegalPattern

/-- R139, R140, R156, R178, R121, R357: one step. An event of the environment runs before all else; then, while no event of the core cycle has
run, the next context's instruction, decoded from the bytes at its PC with its translation cached, or the trap of a halfword that cannot be
fetched; a fetch that meets a lease waits for it; then the events of the cycle that are due; then the cycle ends. Without power a device reset
runs and every other event stops. (The order is log entry 4's; that the step executes what memory holds at its PC is log entry 54's.) -/
def Obligations.OneStep : Prop :=
  ∀ s : State,
    (∀ i is, s.power = true → s.agenda = i :: is → step s = exec i { s with agenda := is }) ∧
    (∀ boot is, s.power = false → s.agenda = .deviceReset boot :: is →
      step s = exec (.deviceReset boot) { s with agenda := is }) ∧
    (s.power = false → (∀ boot, s.agenda.head? ≠ some (.deviceReset boot)) → step s = .fault .noPower) ∧
    (s.power = true → s.agenda = [] →
      (∀ pos i, s.nextIssue = none → s.nextEvent = some (pos, i) → step s = exec i { s with evPos := pos + 1 }) ∧
      (s.nextIssue = none → s.nextEvent = none → step s = .next { s with cycle := s.cycle + 1, evPos := 0, issued := 0 }) ∧
      (0 < s.evPos → s.nextIssue = none) ∧
      ∀ u c k h h', s.nextIssue = some (u, c) →
        let s1 := s.turn u c
        let x := s.getCtx u c
        let w := fun n => valueAt s k n
        let keys := s1.fetchKeys u x.pc
        let held := s1.readConflicts u keys
        let runs := fun (i : Instr) (n : Nat) => ∃ s2, step s = exec i s2 ∧ s2.tile = u ∧ s2.ctx = c ∧
          s2.cur = { x with run := .ready, insn := w n } ∧ s2.mem = s.mem ∧ s2.empty = s.empty ∧ s2.vest = s.vest ∧
          ∀ v, v ≠ u → s2.getTile v = s.getTile v
        (s1.getCtx u c) = x ∧
        (x.late = [] → held = [] → s1.fetchPiece u x.pc = .ok h → h.pkg = s.pkg → h.key = k → Sound s k 2 →
          (w 2 / 0x4000 ≠ 3 → ∀ i, decode16 (BitVec.ofNat 16 (w 2)) = some i → runs i 2) ∧
          (∀ e, w 2 / 0x4000 = 3 → majorAssigned (BitVec.ofNat 6 (w 2 / 256)) = true → s1.fetchPiece u (x.pc + 2) = .error e →
            step s = exec (.fetchFault (x.pc + 2) (e.code == 0x05)) s1)) ∧
        (x.late = [] → held = [] → s1.fetchPiece u x.pc = .ok h → h.pkg = s.pkg → h.key = k →
          s1.fetchPiece u (x.pc + 2) = .ok h' → h'.pkg = s.pkg → h'.key = k + 2 → Sound s k 4 →
          (∀ i n, decode (s.read k 4) = .ok (i, n) → runs i n) ∧
          (decode (s.read k 4) = .error .illegalPattern → w 2 / 0x4000 = 3 → runs (.illegalInstruction (w 4)) 4) ∧
          (decode (s.read k 4) = .error .illegalPattern → w 2 / 0x4000 ≠ 3 → runs (.illegalInstruction (w 2)) 2) ∧
          (decode (s.read k 4) = .error .illegalMajor → runs (.illegalInstruction (w 2)) 2)) ∧
        (∀ e, x.late = [] → held = [] → s1.fetchPiece u x.pc = .error e → step s = exec (.fetchFault x.pc (e.code == 0x05)) s1) ∧
        (x.late = [] → held ≠ [] → ∃ t, step s = .next t ∧ t.getCtx u c = { x with run := .wait (.cond (.leases keys)) } ∧
          t.mem = s.mem ∧ t.empty = s.empty ∧ ∀ v, v ≠ u → t.getTile v = s.getTile v))

/-! ### Flits served -/

/-- R107, R112, R113, R190, R192, R200, R204, R219, R221, R90, R89, R331: a request that has come whole to its home is performed and answered to
its sender: at a tile reads, writes (with FULL set where asked), full/empty forms, VLD.W, atomics, added lanes and the RING operations, at a
memory node reads, writes, atomics and added lanes. The update that came with a write follows the data, and the reply the update; both are held
while the action queue is full or an update is held. A request whose granules or ring are not ready waits. Setting FULL serves the granule's
waiters oldest first, each indivisibly, until one clears it; clearing it lets the oldest STD.WF store. An increment adds to its counter; a
forwarded flit is served as its own kind (R101); the Vestibule counts a TRIG for its launch, which is refused while the matching store is full
(R334). A flit that leaves its message incomplete is only kept. It rests on choices of the model too: log entries 5, 6 and 61. -/
def Obligations.RequestsAtTheirHome : Prop :=
  (∀ (s : State) (n : Nat) (f g : Flit) (tag : Nat), Serves s n g → Whole s n g →
    (∀ ps, g.body = .request tag (.read ps) → (∀ q ∈ ps, InPool s n q.key q.len) →
      let data := Body.reply tag (.data (ps.map fun q => (q.pos, s.read q.key q.len)))
      (Arrives s n (requestOf 1 false) f g → ∃ u, exec (.getRequest n) s = .next u ∧ Replies s u n g 8 data ∧ u.mem = s.mem ∧ u.empty = s.empty) ∧
      (Arrives s n (fun x => x.hdr.kind == 11) f g →
        ∃ u, exec (.forwardedFlit n) s = .next u ∧ Replies s u n g 8 data ∧ u.mem = s.mem ∧ u.empty = s.empty)) ∧
    (∀ ps full cnt, g.body = .request tag (.write ps full cnt) → ps ≠ [] → (∀ p ∈ ps, InPool s n p.1 p.2.length) → Memory.wf s.mem = true →
      Copied s n → Arrives s n (requestOf 2 false) f g →
      ∃ u, exec (.putRequest n) s = .next u ∧ (∀ a, u.byteAt a = afterWrites s.byteAt ps a) ∧
        (if full then FullIs s u (ps.flatMap fun p => granules p.1 p.2.length) true else u.empty = s.empty) ∧
        match cnt with
        | none => Replies s u n g 9 (.reply tag .done) ∧ (u.getTile n).cnt = (s.getTile n).cnt
        | some cid => CountedOnce s u n cid.toNat g.hdr.ftag (Replies s u n g 9 (.reply tag .done))
            fun m => ∃ r, m = some r ∧ Answers r g 9 (.reply tag .done)) ∧
    (let joins := fun (i : Instr) (op : MemOp) (c : Nat) => (s.getTile g.hdr.stile.toNat).waiterOf tag = some c →
        ∃ u, exec i s = .next u ∧ (u.getTile n).mu.waiters = [{ op := op, hdr := g.hdr, tag := tag }] ∧
          (u.getTile n).vn1 = (s.getTile n).vn1 ∧ Still s u
     (∀ op k w i kd, g.body = .request tag (.fe op k w) → InPool s n k 8 → Memory.wf s.mem = true → Copied s n →
        (kd = 1 ∧ i = .getRequest n ∨ kd = 2 ∧ i = .putRequest n) → Arrives s n (requestOf kd false) f g →
        let full := s.full (granule k)
        (feGoes op full = true → ∃ u, exec i s = .next u ∧ Replies s u n g (feSays s op k).1 (.reply tag (feSays s op k).2) ∧
          FullIs s u [granule k] (feLeaves op full) ∧ if feStores op then Stored s u k 8 w.toNat else u.mem = s.mem) ∧
        (feGoes op full = false → (op = .lddT ∨ op = .lddTc → ∃ u, exec i s = .next u ∧ Replies s u n g 8 (.reply tag .empty) ∧ Still s u) ∧
          (op ≠ .lddT → op ≠ .lddTc → ∀ c, joins i (.fe op k w) c))) ∧
     (∀ k, g.body = .request tag (.vldW k) → InPool s n k 64 → Arrives s n (requestOf 1 false) f g →
        ((∀ x ∈ granules k 64, s.full x = true) →
          ∃ u, exec (.getRequest n) s = .next u ∧ Replies s u n g 8 (.reply tag (.data [(0, s.read k 64)])) ∧ Still s u) ∧
        (∀ x ∈ granules k 64, s.full x = false → ∀ c, joins (.getRequest n) (.vldW k) c)) ∧
     (∀ t ls, g.body = .request tag (.addLanes t ls) → (∀ l ∈ ls, InPool s n l.1 (t.width / 8)) → Memory.wf s.mem = true → Copied s n →
        Arrives s n (requestOf 3 false) f g →
        ∃ u, exec (.atomicRequest n) s = .next u ∧ Replies s u n g 9 (.reply tag .done) ∧ Holds s u (afterLanes t s.byteAt ls)) ∧
     (∀ op k x y, g.body = .request tag (.ring op k x y) → InPool s n k 64 → Memory.wf s.mem = true → Copied s n →
        Arrives s n (requestOf 3 true) f g →
        let r := ringDesc (wordsOf 8 (s.read k 64)) (k - poolBase n) (s.scratch n)
        let ends := fun (v : RepVal) (p : State → Prop) => ∃ u, exec (.ringRequest n) s = .next u ∧ Replies s u n g 9 (.reply tag v) ∧ p u
        let used := (r.resv - r.head).toNat
        let run := s.fullRun r n r.head
        (r.ok = false → ends .illop (Still s)) ∧
        (r.ok = true → match op with
          | .rresv =>
            (x = 0 ∨ r.slots < x.toNat → ends (.val (BitVec.allOnes 64) 0) (Still s)) ∧
            (x ≠ 0 → x.toNat ≤ r.slots → used + x.toNat ≤ r.slots →
              ends (.val r.resv 0) fun u => Stored s u k 8 (r.resv + x).toNat ∧ u.empty = s.empty) ∧
            (x ≠ 0 → x.toNat ≤ r.slots → r.slots < used + x.toNat → ∀ c, joins (.ringRequest n) (.ring .rresv k x y) c)
          | .rpubl =>
            (y ≠ 0 → y.toNat ≤ r.slots → ends .done fun u => FullIs s u (r.granules n x y.toNat) true ∧ u.mem = s.mem) ∧
            (y = 0 ∨ r.slots < y.toNat → ends .illop (Still s))
          | .rhead => ends (.val (BitVec.ofNat 64 (run (Nat.min 64 r.slots))) 0) (Still s)
          | .rcons =>
            (x.toNat ≤ run r.slots → ends .done fun u => FullIs s u (r.granules n r.head x.toNat) false ∧ Stored s u (k + 8) 8 (r.head + x).toNat) ∧
            (run r.slots < x.toNat → ends .illop (Still s))))) ∧
    (∀ op z k b c, g.body = .request tag (.amo op z k b c) → InPool s n k z.bytes → Memory.wf s.mem = true → Copied s n →
      Arrives s n (requestOf 3 false) f g →
      let w := 8 * z.bytes
      let x := valueAt s k z.bytes
      let r := amoLeaves op w x (b.toNat % 2 ^ w) (c.toNat % 2 ^ w)
      ∃ u, exec (.atomicRequest n) s = .next u ∧ Replies s u n g 8 (.reply tag (.val (BitVec.ofNat 64 x) r.2)) ∧
        Stored s u k z.bytes r.1 ∧ u.empty = s.empty) ∧
    (∀ cid amount, g.body = .incr cid amount → Arrives s n isIncrement f g → (s.getTile n).cnt.held = [] →
      (s.getTile n).cnt.actions.length < Config.actionRoom →
      let k := (s.getTile n).cnt.get cid.toNat
      let r := fired { k with value := k.value + amount } cid.toNat g.hdr.ftag
      ∃ u, exec (.counterIncrement n) s = .next u ∧ (u.getTile n).cnt.get cid.toNat = r.1 ∧
        (u.getTile n).cnt.actions = (s.getTile n).cnt.actions ++ r.2 ∧ u.mem = s.mem ∧ u.empty = s.empty)) ∧
  (∀ (s : State) (n k : Nat) (f g : Flit) (tag : Nat), AtUnit s n g → Whole s n g → InPool s n k 8 → Memory.wf s.mem = true → Copied s n →
    Arrives s n (requestOf 2 false) f g →
    (∀ w, g.body = .request tag (.fe .stdF k w) → (∀ v ∈ (s.getTile n).mu.waiters, ForFull s n (granule k) v) →
      ∃ u m, exec (.putRequest n) s = .next u ∧ Answers m g 9 (.reply tag .done) ∧ Stored s u k 8 w.toNat ∧ Wakes s u n (granule k) [m]) ∧
    (∀ w v vs x, g.body = .request tag (.fe .feclr k w) → (s.getTile n).mu.waiters = v :: vs → v.hdr.stile.toNat ≠ n → v.hdr.spkg.toNat = s.pkg →
      v.op = .fe .stdWf k x → (∀ z ∈ vs, ∃ a y, z.op = .fe .stdWf a y ∧ granule a = granule k) →
      ∃ u a b, exec (.putRequest n) s = .next u ∧ (u.getTile n).vn1 = (s.getTile n).vn1 ++ [a, b] ∧ Answers a g 9 (.reply tag .done) ∧
        b.hdr.dpkg = v.hdr.spkg ∧ b.hdr.dtile = v.hdr.stile ∧ b.body = .reply v.tag .done ∧ (u.getTile n).mu.waiters = vs ∧
        Stored s u k 8 x.toNat ∧ FullIs s u [granule k] true) ∧
    (∀ w v c d a len, g.body = .request tag (.fe .stdF k w) → (s.getTile n).mu.waiters = [v] → v.hdr.stile.toNat = n → v.hdr.spkg.toNat = s.pkg →
      (v.op = .fe .lddW k 0 ∨ v.op = .fe .lddWc k 0) → (∀ o ∈ (s.getTile n).mu.out, o.tag ≠ v.tag) → (s.getTile n).waiterOf v.tag = some c →
      (s.getCtx n c).run = .wait (.replies [v.tag] [] none (.word d) a len) →
      ∃ u m, exec (.putRequest n) s = .next u ∧ Answers m g 9 (.reply tag .done) ∧ (u.getTile n).vn1 = (s.getTile n).vn1 ++ [m] ∧
        (u.getTile n).mu.waiters = [] ∧ u.getCtx n c = goesOn ((s.getCtx n c).wr d w) len ∧ Stored s u k 8 w.toNat ∧
        FullIs s u [granule k] (!clears v))) ∧
  (∀ (s : State) (d : Nat) (f g : Flit) (tag : Nat), d < 4 → g.hdr.kind ≠ 7 → Whole s (Config.memoryNode d) g →
    let n := Config.memoryNode d
    (∀ ps, g.body = .request tag (.read ps) → Arrives s n (requestOf 1 false) f g → (∀ q ∈ ps, 0 < q.len ∧ InHbm s q.key q.len) →
      NoLease s d g (ps.map (·.key)) false →
      ∃ u, exec (.getRequest n) s = .next u ∧ NodeReplies s u d g 8 (.reply tag (.data (ps.map fun q => (q.pos, s.read q.key q.len)))) ∧ Still s u) ∧
    (Memory.wf s.mem = true →
      (∀ ps, g.body = .request tag (.write ps false none) → Arrives s n (requestOf 2 false) f g → (∀ p ∈ ps, InHbmToWrite s p.1 p.2.length) →
        NoLease s d g (ps.map (·.1)) true →
        ∃ u, exec (.putRequest n) s = .next u ∧ NodeReplies s u d g 9 (.reply tag .done) ∧ Holds s u (afterWrites s.byteAt ps)) ∧
      (∀ op z k b c, g.body = .request tag (.amo op z k b c) → Arrives s n (requestOf 3 false) f g → InHbmToWrite s k z.bytes → NoLease s d g [k] true →
        let w := 8 * z.bytes
        let x := valueAt s k z.bytes
        let r := amoLeaves op w x (b.toNat % 2 ^ w) (c.toNat % 2 ^ w)
        ∃ u, exec (.atomicRequest n) s = .next u ∧ NodeReplies s u d g 8 (.reply tag (.val (BitVec.ofNat 64 x) r.2)) ∧
          Stored s u k z.bytes r.1 ∧ u.empty = s.empty) ∧
      (∀ t ls, g.body = .request tag (.addLanes t ls) → Arrives s n (requestOf 3 false) f g → (∀ l ∈ ls, InHbmToWrite s l.1 (t.width / 8)) →
        NoLease s d g (ls.map (·.1)) true →
        ∃ u, exec (.atomicRequest n) s = .next u ∧ NodeReplies s u d g 9 (.reply tag .done) ∧ Holds s u (afterLanes t s.byteAt ls)))) ∧
  (∀ (s : State) (n : Nat) (f g : Flit) (tag : Nat) (op : MemOp), Serves s n g → g.body = .request tag op → (gather (s.partsAt n) g).2.2 = false →
    Arrives s n (requestOf 1 false) f g →
    ∃ u, exec (.getRequest n) s = .next u ∧ u.mem = s.mem ∧ u.empty = s.empty ∧ (u.getTile n).vn1 = (s.getTile n).vn1 ∧
      (u.getTile n).mu.parts = (gather (s.partsAt n) g).1) ∧
  ∀ (s : State) (f g : Flit) (pid : Nat) (p : Partition) (j : Job), g.body = .trig → g.hdr.kind = 4 → Arrives s Config.vestibuleNode isTrig f g →
    s.sourcePart g = some (pid, p) → s.part pid = some p → p.job = some j →
    (s.hasToken = false → exec .trigArrival s = .next s) ∧
    (s.hasToken = true → ∃ u q k, exec .trigArrival s = .next u ∧ u.part pid = some q ∧ q.job = some k ∧ u.mem = s.mem ∧
      k.tags = j.tags.map fun x =>
        if x.tag = g.hdr.ftag.toNat then { x with trigs := Nat.min (x.trigs + 1) (2 ^ 32 - 1), recv := x.recv + 1 } else x)

/-- R188 to R191, R200, R204, R205, R219, R221, R223, R72 to R74, R261, R269: what reaches a tile: the last reply completes the instruction that
waits, as its form says: a load, a vector load, an atomic with its flags, a full/empty form or RING instruction with the value, a gather and a
typed block with all that came, others with nothing; a reply before the last is kept with its data, and one that says EMPTY enters the user trap.
A GET's data is written, then its granules set full; GET.N counts once, with its last part, after the data. A handler message's first flit is
placed in an ordinary slot while its priority has room; a granted lock is held and its waiting instruction completes; a wound marks its
transaction; a marker of the running snapshot makes the tile cut for it, and one of another snapshot does not; a reply's flit that leaves it
incomplete is only kept. It rests on choices of the model too: log entries 5 and 6. -/
def Obligations.ArrivalsAtATile : Prop :=
  ∀ (s : State) (n : Nat) (f g : Flit), n < Config.tiles → (s.getTile n).frozen = false →
    (∀ tag v c, g.body = .reply tag v → Whole s n g → (s.getTile n).waiterOf tag = some c → (s.getTile n).cmdOf tag = none →
      (∀ o ∈ (s.getTile n).mu.out, o.tag = tag → o.get = none) →
      ∀ tags got val fin a len i kd, (s.getCtx n c).run = .wait (.replies tags got val fin a len) →
      (i = .replyData n ∧ kd = 8 ∨ i = .replyStatus n ∧ kd = 9) → Arrives s n (fun x => x.hdr.kind == kd) f g →
      let k := s.getCtx n c
      let becomes := fun (k' : Ctx) => ∃ u, exec i s = .next u ∧ u.getCtx n c = k' ∧ Still s u
      (∀ ps, v = .data ps → tags.filter (· != tag) ≠ [] →
        becomes { k with run := .wait (.replies (tags.filter (· != tag)) (got ++ ps) val fin a len) }) ∧
      (v = .empty → k.ut.act = false → k.ut.vec ≠ 0 → becomes
        { k with run := .ready, pc := k.ut.vec, ut := { vec := k.ut.vec, pc := k.pc, act := true, ucode := 0, cause := 0x11, addr := a } }) ∧
      (tags = [tag] →
        (∀ d bs sg, fin = .load d bs.length sg → got = [] → v = .data [(0, bs)] → 0 < bs.length → bs.length ≤ 8 →
          becomes (goesOn (k.wr d (extended bs.length sg (leNat bs))) len)) ∧
        (∀ d bs, fin = .vload d → got = [] → v = .data [(0, bs)] → becomes (goesOn (k.wv d (BitVec.ofNat 512 (leNat bs))) len)) ∧
        (∀ d w fl, fin = .word d ∨ fin = .ring d → v = .val w fl → becomes (goesOn (k.wr d w) len)) ∧
        (∀ d z w fl, fin = .amo d z → v = .val w fl →
          becomes (goesOn { k.wr d (extended z.bytes (z == .w) (w.toNat % 2 ^ (8 * z.bytes))) with fpf := k.fpf ||| fl } len)) ∧
        (fin = .none → (v = .done ∨ ∃ w fl, v = .val w fl) → becomes (goesOn k len)) ∧
        (∀ ps t z e d, v = .data ps → fin = .gather t z e d → (∀ p ∈ got ++ ps, ∀ q ∈ got ++ ps, p.1 = q.1 → p = q) →
          ∃ w : VReg, becomes (goesOn (k.wv d w) len) ∧ ∀ j, j < t.lanes →
            ((k.rk e).getLsbD j = false → lane t.width w j = if z then 0 else lane t.width (k.rv d) j) ∧
            ((k.rk e).getLsbD j = true → ∀ bs, (j, bs) ∈ got ++ ps → 8 * bs.length = t.width → lane t.width w j = leNat bs)) ∧
        (∀ ps t z e d fmt bl x, v = .data ps → fin = .block t z e d fmt bl x → blockType t →
          let b := blockElems fmt bl x (gotBelow (got ++ ps) 0 64) (gotBelow (got ++ ps) scalePos (scalePos + 2))
          let y := fun j => blockElem t (b.1.getD j fvCanon)
          b.1.length = 64 → ∃ (k' : Ctx) (fl : Flags), becomes (goesOn k' len) ∧ { k' with v := k.v, fpf := k.fpf } = k ∧
            (∀ j, j < 64 → groupElement k' t d j =
              if (k.rk e).getLsbD j then (y j).1 % 2 ^ t.width else if z then 0 else groupElement k t d j) ∧
            FlagsOf (k.rk e) 64 (fun j => (y j).2) fl ∧ k'.fpf = k.fpf ||| fl ||| (if b.2 then flagQM else 0)))) ∧
    (∀ tag ps o ge, g.body = .reply tag (.data ps) → Whole s n g → (s.getTile n).cmdOf tag = none →
      (s.getTile n).mu.out.find? (·.tag == tag) = some o → o.get = some ge → (∀ p ∈ ps, InPool s n (ge.dst + p.1) p.2.length) →
      Memory.wf s.mem = true → Copied s n → (s.getTile n).mu.waiters = [] → (s.getTile n).land.reserved = none →
      Arrives s n (fun x => x.hdr.kind == 8) f g →
      let places := ps.map fun p => (ge.dst + p.1, p.2)
      let more := ∃ m, ge.mate = some m ∧ m ≠ tag ∧ ∃ q ∈ (s.getTile n).mu.out, q.tag = m
      ∃ u, exec (.replyData n) s = .next u ∧ (∀ a, u.byteAt a = afterWrites s.byteAt places a) ∧
        FullIs s u (places.flatMap fun p => granules p.1 p.2.length) true ∧ (u.getTile n).ctxs = (s.getTile n).ctxs ∧
        (u.getTile n).mu.out = (s.getTile n).mu.out.filter (·.tag != tag) ∧
        (ge.cnt = none ∨ more → (u.getTile n).cnt = (s.getTile n).cnt) ∧
        ∀ cid, ge.cnt = some cid → ¬ more → CountedOnce s u n cid o.ftag True fun m => m = none) ∧
    (∀ ws, g.body = .words ws → Arrives s n (fun x => x.hdr.kind == 0 || x.hdr.kind == 6) f g → g.hdr.kind ≠ 7 → g.fidx.toNat ≤ g.hdr.nflit.toNat →
      (∀ e ∈ (s.getTile n).land.slots, e.wants g = false) → (s.getTile n).land.spill = [] →
      ((s.getTile n).land.slots.filter fun e => e.prio == g.hdr.prio.toNat).length < (s.getTile n).regs.depth g.hdr.prio.toNat →
      ∃ u e, exec (.handlerMessageArrival n) s = .next u ∧ (u.getTile n).land.slots = (s.getTile n).land.slots ++ [e] ∧
        e.hdr = g.hdr ∧ e.present = [g.fidx] ∧ e.accept = s.cycle ∧ e.ready = s.cycle + 1 ∧ e.ctx = none ∧
        (ws.length = 8 → (e.words.drop (8 * g.fidx.toNat)).take 8 = ws) ∧ u.mem = s.mem) ∧
    (∀ p h c x tag name handle, g.body = .lockReply (.answer tag name handle 0 p.mode) → p.tag = tag → p.form = .acquire → p.undo = false →
      (s.getTile n).locks.pend = [p] → (s.getTile n).locks.held = [h] → h.slot = p.slot → h.name = p.name →
      s.txAt n p.handle = .tx p.slot x → x.state = .active → (s.getTile n).lockWaiter tag = some c →
      ∀ d, (s.getCtx n c).run = .wait (.locks .acquire [tag] d 0) → Arrives s n (lockReplyOf isAnswer) f g →
      ∃ u, exec (.lockGrantArrival n) s = .next u ∧ (u.getTile n).locks.held = [{ h with mode := p.mode, want := 0 }] ∧
        (u.getTile n).locks.pend = [] ∧ u.getCtx n c = saying (s.getCtx n c) d 0) ∧
    (∀ name ts handle slot x j, g.body = .lockReply (.wound name ts handle) → s.txAt n handle = .tx slot x → x.state = .active →
      s.jobOf n = some j → j.grace ≠ 0 → Arrives s n (lockReplyOf isWound) f g →
      ∃ u, exec (.woundArrival n) s = .next u ∧ mget (u.getTile n).locks.txs slot = some { x with state := .wounded, since := s.cycle }) ∧
    (∀ ws gid q, g.body = .words ws → g.hdr.kind = 7 → (∃ pl t, s.oldestAt n (fun x => x.hdr.kind == 7) = some (pl, t) ∧ t.flit = g) →
      g.age ≠ 4095 → s.sealedTile n = false → s.groupOfTile n = some gid → (s.group gid).bind (·.running) = some q →
      (s.getTile n).snap.cut = false →
      (ws.head? ≠ some (BitVec.ofNat 64 q.sid) →
        ∃ u, exec (.snapshotMarker n) s = .next u ∧ (u.getTile n).snap = (s.getTile n).snap ∧ (u.getTile n).uncop = (s.getTile n).uncop) ∧
      (ws.head? = some (BitVec.ofNat 64 q.sid) → ∃ u, exec (.snapshotMarker n) s = .next u ∧ (u.getTile n).snap.cut = true ∧
        (u.getTile n).snap.colour = ~~~(s.getTile n).snap.colour ∧ (u.getTile n).uncop = List.range 512 ∧ (u.getTile n).sid = BitVec.ofNat 32 q.sid)) ∧
    ∀ tag v, g.body = .reply tag v → (gather (s.partsAt n) g).2.2 = false → Arrives s n (fun x => x.hdr.kind == 8) f g →
      ∃ u, exec (.replyData n) s = .next u ∧ u.mem = s.mem ∧ (u.getTile n).ctxs = (s.getTile n).ctxs ∧ (u.getTile n).mu.out = (s.getTile n).mu.out ∧
        (u.getTile n).mu.parts = (gather (s.partsAt n) g).1

/-- R261 to R263, R269 to R271, R120, R121, R306: at a lock's home, with no waiter: an acquire that fits is granted and held, a try that does not
is BUSY; a conversion the holder's mode covers or that fits takes effect; a release frees its holder; a cancelled waiter is answered NOTX and
gone, and a cancellation that finds none is answered NOTHELD; a matrix is loaded. A grant carries its request's class and priority. An acquire
that does not fit waits, and wounds a younger holder once, an older one not; behind waiters one is granted at once only if its mode may pass them
and is compatible with each; with two waiters a release grants the first and, if its mode allows, the second; of two holders the other stays, and
a waiter that it excludes waits. A lease that meets no other is granted, under a number of its own that no recall has asked for, and a die that
holds X keeps it, as shut as it was; one that finds no lock entry is NORES; a recall gives a lease back that no later grant gave, and a release
ends it. It rests on choices of the model too: log entries 6 (the number of a lease's grant) and 35. -/
def Obligations.LocksAndLeasesAtHome : Prop :=
  ∀ (s : State) (d : Nat) (f g : Flit) (r : LockReq),
    let n := Config.newelNode d
    let w := (s.getDie d).newel
    let e := w.lock r.asid r.name
    let mx := w.matrix r.asid
    let now := fun (u : State) => (u.getDie d).newel.lock r.asid r.name
    let region := r.name.toNat % 2 ^ 19
    let pkg := g.hdr.spkg.toNat
    let die := sourceDie g.hdr
    d < 4 → g.hdr.kind ≠ 7 → (g.body = .lock r →
    (∀ try_ m, r.op = .acquire try_ m → w.exhausted e = false → e.queue = [] → (e.fits mx r.handle m = true ∨ try_ = true) →
      Arrives s n (lockOf opAcquires) f g →
      ∃ u a, exec (.lockAcquireRequest d) s = .next u ∧ NewelSends s u d a ∧
        (e.fits mx r.handle m = true → LockAnswer a g r 0 m ∧ a.hdr.cls = r.cls ∧ a.hdr.prio = r.prio ∧ now u = e.hold r.ts r.handle m) ∧
        (e.fits mx r.handle m = false → try_ = true → LockAnswer a g r 1 m ∧ now u = e)) ∧
    (∀ mx', r.op = .matrix mx' → Arrives s n (lockOf opAcquires) f g →
      ∃ u a, exec (.lockAcquireRequest d) s = .next u ∧ NewelSends s u d a ∧ LockAnswer a g r 0 0 ∧
        (u.getDie d).newel.matrix r.asid = mx') ∧
    (∀ try_ m, r.op = .acquire try_ m → w.exhausted e = false → e.queue ≠ [] → Arrives s n (lockOf opAcquires) f g →
      let passing := (m = 1 ∨ m = 5) ∧ ∀ v ∈ e.queue, compat mx m v.mode = true
      (passing → e.fits mx r.handle m = true → ∃ u a, exec (.lockAcquireRequest d) s = .next u ∧ NewelSends s u d a ∧
        LockAnswer a g r 0 m ∧ now u = e.hold r.ts r.handle m) ∧
      (¬ passing → try_ = true → ∃ u a, exec (.lockAcquireRequest d) s = .next u ∧ NewelSends s u d a ∧ LockAnswer a g r 1 m ∧ now u = e)) ∧
    (∀ m h, r.op = .acquire false m → w.exhausted e = false → e.queue = [] → e.holders = [h] → h.handle ≠ r.handle → h.wounded = false →
      compat mx m h.mode = false → Arrives s n (lockOf opAcquires) f g →
      let q : LockWaiter :=
        { ts := r.ts, handle := r.handle, mode := m, conv := false, tag := r.tag, hdr := g.hdr, cls := r.cls, prio := r.prio }
      (r.ts.toNat < h.ts.toNat → ∃ u a, exec (.lockAcquireRequest d) s = .next u ∧ NewelSends s u d a ∧
        a.body = .lockReply (.wound r.name r.ts h.handle) ∧ now u = { e with holders := [{ h with wounded := true }], queue := [q] }) ∧
      (h.ts.toNat < r.ts.toNat → ∃ u, exec (.lockAcquireRequest d) s = .next u ∧ (u.getDie d).newel.out = w.out ∧
        now u = { e with queue := [q] })) ∧
    (∀ h v z, r.op = .release → e.holders = [h] → h.handle = r.handle → e.queue = [v, z] → v.conv = false → z.conv = false →
      v.handle ≠ z.handle → Arrives s n (lockOf fun o => o == .release || o == .endTx) f g →
      let held := fun (q : LockWaiter) => ({ ts := q.ts, handle := q.handle, mode := q.mode, wounded := false } : Holder)
      ∃ u a b more, exec (.lockReleaseRequest d) s = .next u ∧ (u.getDie d).newel.out = w.out ++ a :: b :: more ∧ LockAnswer a g r 0 0 ∧
        b.body = .lockReply (.answer v.tag r.name v.handle 0 v.mode) ∧ b.hdr.cls = v.cls ∧ b.hdr.prio = v.prio ∧
        (compat mx z.mode v.mode = true → now u = { e with holders := [held v, held z], queue := [] }) ∧
        (compat mx z.mode v.mode = false → (now u).holders.map (fun x => (x.handle, x.mode)) = [(v.handle, v.mode)] ∧ (now u).queue = [z])) ∧
    (∀ h o v, r.op = .release → e.holders = [h, o] → h.handle = r.handle → o.handle ≠ r.handle → e.queue = [v] → v.conv = false →
      v.handle ≠ o.handle → compat mx v.mode o.mode = false → Arrives s n (lockOf fun x => x == .release || x == .endTx) f g →
      ∃ u a more, exec (.lockReleaseRequest d) s = .next u ∧ (u.getDie d).newel.out = w.out ++ a :: more ∧ LockAnswer a g r 0 0 ∧
        (now u).holders.map (fun x => (x.handle, x.mode)) = [(o.handle, o.mode)] ∧ (now u).queue = [v]) ∧
    (∀ m h, r.op = .convert m → e.queue = [] → e.holders = [h] → h.handle = r.handle → Arrives s n (lockOf opConverts) f g →
      ∃ u a, exec (.lockConvertRequest d) s = .next u ∧ NewelSends s u d a ∧ LockAnswer a g r 0 m ∧
        now u = { e with holders := [{ h with mode := m }] }) ∧
    (∀ h, r.op = .release → e.queue = [] → e.holders = [h] → h.handle = r.handle →
      Arrives s n (lockOf fun o => o == .release || o == .endTx) f g →
      ∃ u a, exec (.lockReleaseRequest d) s = .next u ∧ NewelSends s u d a ∧ LockAnswer a g r 0 0 ∧
        now u = { asid := r.asid, name := r.name, holders := [], queue := [] }) ∧
    (∀ q, r.op = .cancel → e.queue = [q] → q.handle = r.handle → Arrives s n (lockOf fun o => o == .cancel) f g →
      ∃ u a b, exec (.lockCancelRequest d) s = .next u ∧ (u.getDie d).newel.out = w.out ++ [a, b] ∧
        a.body = .lockReply (.answer q.tag r.name r.handle 5 q.mode) ∧ LockAnswer b g r 0 0 ∧ (now u).queue = []) ∧
    (r.op = .cancel → e.queue = [] → Arrives s n (lockOf fun o => o == .cancel) f g →
      ∃ u a, exec (.lockCancelRequest d) s = .next u ∧ NewelSends s u d a ∧ LockAnswer a g r 6 0 ∧ (now u).queue = []) ∧
    (∀ m, r.op = .lease m → w.leaseConflicts region pkg die m = [] → (∀ q ∈ w.waiting, q.region ≠ region) →
      Arrives s n (lockOf opLeases) f g →
      let shut := if m = 7 then s.shutting d region else []
      let full := Config.lockEntries ≤ w.locks.length + w.home.length
      (w.leaseOf region pkg die = none → full → ∃ u a, exec (.leaseRequest d) s = .next u ∧ NewelSends s u d a ∧ LockAnswer a g r 3 m ∧
        (u.getDie d).newel.home = w.home) ∧
      let granted := fun (u : State) => ∃ a more, exec (.leaseRequest d) s = .next u ∧ (u.getDie d).newel.out = w.out ++ a :: more ∧
        (shut = [] → more = []) ∧ Answers a g 10 (.lockReply (.answer r.tag r.name (BitVec.ofNat 64 (w.grants + 1)) 0 m))
      (w.leaseOf region pkg die = none → ¬ full → ∃ u, granted u ∧ (u.getDie d).newel.home =
        w.home ++ [{ region := region, pkg := pkg, die := die, mode := m, recalled := false, shut := shut, serial := w.grants + 1 }]) ∧
      (∀ l, w.leaseOf region pkg die = some l → ∃ u, granted u ∧
        { l with mode := if l.mode = 7 then 7 else m, shut := if l.mode = 7 ∧ m ≠ 7 then l.shut else shut, recalled := false
                 serial := w.grants + 1 } ∈ (u.getDie d).newel.home)) ∧
    (r.op = .leaser → (∀ q ∈ w.waiting, q.region ≠ region) → Arrives s n (lockOf fun o => o == .leaser) f g →
      ∃ u a x, exec (.leaseReleaseAtHome d) s = .next u ∧ NewelSends s u d a ∧ Answers a g 10 (.lockReply (.answer r.tag r.name x 0 0)) ∧
        ∀ l, l ∈ (u.getDie d).newel.home ↔ l ∈ w.home ∧ ¬ (l.region = region ∧ l.pkg = pkg ∧ l.die = die ∧ l.serial ≤ r.ts.toNat))) ∧
    (∀ reg serial, g.body = .lockReply (.recall reg serial) → Arrives s n (lockReplyOf isRecall) f g →
      let last := (mget w.got (pkg * 2 ^ 19 + reg)).getD 0
      ∃ u a, exec (.leaseRecall d) s = .next u ∧ NewelSends s u d a ∧ a.hdr.kind = 5 ∧ a.hdr.dpkg = g.hdr.spkg ∧
        a.hdr.dtile = g.hdr.stile ∧
        (∃ x, a.body = .lock x ∧ x.op = .leaser ∧ x.name = BitVec.ofNat 64 (pkg * 2 ^ 19 + reg) ∧ x.ts = BitVec.ofNat 64 serial) ∧
        (last ≤ serial → mget (u.getDie d).newel.leases (pkg * 2 ^ 19 + reg) = none) ∧
        (serial < last → (u.getDie d).newel.leases = w.leases))

/-! ### Events of a tile -/

/-- R74, R75, R79, R81, R83, R98, R57, R86, R90, R198, R119, R269, R270, R271: what a tile that acts for its job does of itself. A refused local
arrival is placed once there is a slot; a refilled record's bytes are read and its message may run; of the eligible heads that of the highest
priority is dispatched to the lowest idle context, or the next priority's where it is older than PROMO and older than that one, with the
registers of R81 or R98, and runs no earlier than the next cycle; a handler past its limit takes HLIMIT, and one that waits for a lock request
that has left the tile first has it cancelled at its home; a context that waits for outbound room, for the answers to TXEND or LKMAT, or for the
accesses of XINV goes on when that has come about; held counter updates are applied, and behind a held NOTIFY the effects of the matrix commands
that completed after its own (R239). It rests on choices of the model too: log entries 1, 4, 35 and 56. -/
def Obligations.TileEvents : Prop :=
  ∀ (s : State) (t c : Nat), Acts s t →
    let x := s.getTile t
    let k := s.getCtx t c
    (∀ a, x.land.again = [a] → x.land.logged = [] → x.land.spill = [] → (x.land.slots.filter fun e => e.prio == a.entry.prio).length < x.regs.depth a.entry.prio →
      ∃ u e, exec (.localArrivalRetry t) s = .next u ∧ (u.getTile t).land.slots = x.land.slots ++ [e] ∧ (u.getTile t).land.again = [] ∧
        e.hdr = a.entry.hdr ∧ e.words = a.entry.words ∧ e.accept = s.cycle ∧ e.ready = s.cycle + 1 ∧ u.mem = s.mem ∧
        ∀ b, a.ctx = some b → (u.getCtx t b).run = .idle) ∧
    (∀ e, x.land.slots.find? (·.unread) = some e → (∀ n, s.recordAt t e.prio e.recNo = some n → Sound s n 288) →
      ∃ u, exec (.galleryRecordRead t) s = .next u ∧ u.mem = s.mem ∧
        (u.getTile t).land.slots = x.land.slots.map fun y => if y.key = e.key then { y with unread := false } else y) ∧
    (∀ p e pid q j, s.partOf t = some (pid, q) → q.job = some j → p < 4 → HeadOf x p e → MayRun e s.cycle →
      (∀ r f, r < p → HeadOf x r f → ¬ MayRun f s.cycle) → c < 8 → k.idleAt s.cycle = true → (∀ b, b < c → (s.getCtx t b).idleAt s.cycle = false) →
      let free := (x.ctxs.toList.filter fun y => !y.idleAt s.cycle && y.prio != 0).length + x.regs.ctxres.toNat < 8
      let old := fun (y : Entry) => x.regs.promo ≠ 0 ∧ x.regs.promo.toNat < s.cycle - y.accept
      let runs := fun (e : Entry) => ∃ u, exec (.dispatch t) s = .next u ∧
        Starts (u.getCtx t c) s t j e (s.jobHeader t e.hdr) (j.classes.getD e.hdr.cls.toNat 0) ∧
        (u.getTile t).land.slots = x.land.slots.map (fun y => if y.key = e.key then { y with ctx := some c } else y) ∧
        u.mem = s.mem ∧ ∀ b, b % 8 ≠ c → u.getCtx t b = s.getCtx t b
      ((p = 0 ∨ free) → (∀ f, HeadOf x (p + 1) f → MayRun f s.cycle → ¬ (old f ∧ f.accept < e.accept)) → runs e) ∧
      (∀ f, p < 3 → free → (p = 0 ∨ ¬ old e) → HeadOf x (p + 1) f → MayRun f s.cycle → old f → f.accept < e.accept → runs f)) ∧
    (k.hlimit ≠ 0 → k.born + k.hlimit ≤ s.cycle →
      (k.run = .ready → exec (.hlimitExpiry t c) s = .next (s.takeTrap t c { code := 0x12, addr := 0 } k.pc (s.insnAt t k.pc))) ∧
      (∀ w, k.run = .wait w → (∀ e l, w ≠ .room e l) → w ≠ .rearrive → (∀ f tags d st, w ≠ .locks f tags d st) →
        exec (.hlimitExpiry t c) s = .next (s.takeTrap t c { code := 0x12, addr := 0 } k.pc k.insn)) ∧
      (∀ f tags d st, k.run = .wait (.locks f tags d st) → f ≠ .cancel →
        (∀ p ∈ x.locks.pend, p.tag ∈ tags → p.form ≠ .acquire ∧ p.form ≠ .convert) →
        exec (.hlimitExpiry t c) s = .next (s.takeTrap t c { code := 0x12, addr := 0 } k.pc k.insn)) ∧
      (∀ f tags d st p, k.run = .wait (.locks f tags d st) → x.locks.pend = [p] → p.tag ∈ tags → p.form = .acquire ∨ p.form = .convert →
        f ≠ .cancel →
        (x.mu.queue = [] → ∃ u, exec (.hlimitExpiry t c) s = .next u ∧ u.mem = s.mem ∧
          (u.getCtx t c).run = .wait (.locks .cancel [x.mu.nextTag] d st) ∧ (u.getCtx t c).pc = k.pc ∧
          toInject (u.getTile t) = [(5, BitVec.ofNat 15 (p.home / 4), BitVec.ofNat 12 (Config.newelNode (p.home % 4)),
            .lock { tag := x.mu.nextTag, asid := x.regs.asid, name := p.name, ts := p.ts, handle := p.handle, op := .cancel }, [])]) ∧
        (∀ q r, x.mu.queue = [q] → q.msg.body = .lock r → r.tag = p.tag →
          let u : State := s.cancelPend t p
          exec (.hlimitExpiry t c) s = .next (u.takeTrap t c { code := 0x12, addr := 0 } k.pc k.insn) ∧ u.mem = s.mem ∧
            (u.getTile t).mu.queue = [] ∧ (u.getTile t).locks.pend = []))) ∧
    (∀ tags d st, k.run = .wait (.locks .cancel tags d st) → exec (.hlimitExpiry t c) s = .next s) ∧
    (∀ e last, k.run = .wait (.room e last) →
      (∀ q ∈ x.outq.drop Config.outboundRoom, q.msg.hdr.mseq ≠ last) →
      (∀ len, e = .commit len → Turns (.commitRoomWaitEnd t c) s t c (goesOn k len)) ∧
      ((∀ len, e ≠ .commit len) → k.late = [] → x.land.spill = [] →
        ∃ u, exec (.commitRoomWaitEnd t c) s = .next u ∧ (u.getCtx t c).run = .idle ∧ (u.getTile t).entry k.key = none ∧
          (u.getTile t).outq = x.outq ∧ u.mem = s.mem)) ∧
    (∀ d st, k.run = .wait (.locks .txend [] d st) → Turns (.txendConfirm t c) s t c (saying k d st)) ∧
    (∀ d st, k.run = .wait (.locks .matrix [] d st) → Turns (.lkmatComplete t c) s t c (saying k d st)) ∧
    (∀ left cmds, k.run = .wait (.xinv left cmds) → (∀ p ∈ left, (∀ o ∈ (s.getTile p.1).mu.out, o.tag ≠ p.2) ∧
        ∀ w ∈ (s.getTile p.1).mu.waiters, w.tag = p.2 → fromTile w.hdr s.pkg p.1 = false) →
      (∀ p ∈ cmds, ∀ m ∈ (s.getTile p.1).copy.cmds, m.seq = p.2 → m.dead = true) →
      Turns (.xinvComplete t c) s t c (goesOn k 4)) ∧
    (∀ h, (∀ q ∈ x.matrix.ended, q.notify = false) → x.cnt.held = [] → x.cnt.adds = [h] → x.land.reserved = none → x.cnt.actions.length < Config.actionRoom →
      (∀ a ∈ h.after, ∀ o ∈ x.mu.out, o.tag ≠ a) →
      let y := x.cnt.get h.cid
      let r := fired { y with value := y.value + h.amount } h.cid h.ftag
      ∃ u, exec (.heldUpdateApply t) s = .next u ∧ (u.getTile t).cnt.get h.cid = r.1 ∧ (u.getTile t).cnt.actions = x.cnt.actions ++ r.2 ∧
        (u.getTile t).cnt.adds = [] ∧ SameOutside s u t) ∧
    (∀ h, (∀ q ∈ x.matrix.ended, q.notify = false) → x.cnt.held = [h] → x.cnt.adds = [] → x.land.reserved = none → x.cnt.actions.length < Config.actionRoom →
      let y := x.cnt.get h.cid
      let r := fired { y with value := y.value + h.amount } h.cid h.ftag
      ∃ u, exec (.heldUpdateApply t) s = .next u ∧ (u.getTile t).cnt.get h.cid = r.1 ∧ (u.getTile t).cnt.actions = x.cnt.actions ++ r.2 ∧
        (u.getTile t).cnt.held = [] ∧ (u.getTile t).vn1 = x.vn1 ++ (h.reply.toList.map fun m => { m with hdr := { m.hdr with mseq := x.mseq } }) ∧
        (x.matrix.ended = [] →
          (h.seq = none → (u.getTile t).matrix = x.matrix) ∧ (∀ n, h.seq = some n → (u.getTile t).matrix = x.matrix.advance n)) ∧
        (∀ n q res, h.seq = some n → x.matrix.ended = [q] → q.notify = false → q.result = some res → q.seq = n + 1 → n = x.matrix.done + 1 →
          x.matrix.beyond = [] →
          let code := if q.fail ≠ 0 then q.fail else res.code
          (u.getTile t).matrix.ended = [] ∧ (u.getTile t).matrix.done = n + 1 ∧ (u.getTile t).matrix.cmds = x.matrix.cmds ∧
            (u.getTile t).matrix.status = ((n + 1, BitVec.ofNat 64 (Nat.min q.waited (2 ^ 24 - 1) * 2 ^ 16 + code * 256 + res.flags.toNat)) ::
              x.matrix.status).take 64) ∧
        SameOutside s u t)

/-- R82, R88 to R90, R246: the action at the head of a tile's queue is carried out: kind 1 launches a handler with the counter's id and value,
kinds 2 and 3 post the record at OFFSET, kind 4 sends a message of the class, in the class's priority and the
action's frame tag, to TADDR, which on the tile itself is a local arrival, and kind 5 sets FULL of the granule at OFFSET.
It rests on choices of the model too: log entries 16 and 30. -/
def Obligations.CounterActions : Prop :=
  ∀ (s : State) (t : Nat) (a : Action) (rest : List Action) (j : Job), Acts s t → s.jobOf t = some j →
    (s.getTile t).cnt.actions = a :: rest →
    let x := s.getTile t
    let kind := a.word.toNat % 16
    let cls := a.word.extractLsb' 8 8
    let at' := poolBase t + (a.word.toNat / 2 ^ 16) % 2 ^ 21
    let r := wordsOf 8 (s.read at' 64)
    let posts := fun (i : Instr) (m : Bool) => Sound s at' 64 → (x.engine m).hasRoom m = true →
      ∃ u k, exec i s = .next u ∧ (u.getTile t).cnt.actions = rest ∧
        (u.getTile t).engine m = { x.engine m with last := (x.engine m).last + 1, cmds := (x.engine m).cmds ++ [k] } ∧
        k.seq = (x.engine m).last + 1 ∧ k.record = r ∧ k.ftag = a.ftag ∧ k.p0 = false ∧
        (k.bad = false ↔ (recFieldsOk m r && notifyZeros r) = true ∧ s.notifyDest t r = .ok ()) ∧ SameOutside s u t
    let launches := fun (i : Instr) =>
      ∃ u e, exec i s = .next u ∧ (u.getTile t).cnt.actions = rest ∧ (u.getTile t).land.slots = x.land.slots ++ [e] ∧
        e.hdr.kind = 0 ∧ e.hdr.cls = cls ∧ e.hdr.prio = j.prioOf cls ∧ e.hdr.ftag = a.ftag ∧ e.hdr.nflit = 0 ∧
        e.hdr.dtile = BitVec.ofNat 12 t ∧ e.hdr.stile = BitVec.ofNat 12 t ∧ e.hdr.colour = x.snap.colour ∧
        e.words.take 2 = [BitVec.ofNat 64 a.cid, a.value] ∧ u.mem = s.mem
    (kind = 1 → SlotFor s t (j.prioOf cls).toNat → launches (.counterActionLaunch t)) ∧
    (kind = 2 → posts (.counterActionMpost t) true) ∧ (kind = 3 → posts (.counterActionCpost t) false) ∧
    (∀ pkg tile, kind = 4 → s.destOf t (BitVec.ofNat 64 (a.word.toNat / 2 ^ 37)) = .ok (pkg, tile) → (pkg ≠ s.pkg ∨ tile ≠ t) →
      ∃ u, exec (.counterActionSend t) s = .next u ∧ (u.getTile t).cnt.actions = rest ∧ u.mem = s.mem ∧
        ∃ q, (u.getTile t).mu.queue = x.mu.queue ++ [q] ∧ q.after = [] ∧ q.msg.hdr.kind = 0 ∧ q.msg.hdr.cls = cls ∧
          q.msg.hdr.prio = j.prioOf cls ∧ q.msg.hdr.ftag = a.ftag ∧ q.msg.hdr.nflit = 0 ∧ q.msg.hdr.dpkg = BitVec.ofNat 15 pkg ∧
          q.msg.hdr.dtile = BitVec.ofNat 12 tile ∧ q.msg.hdr.spkg = BitVec.ofNat 15 s.pkg ∧ q.msg.hdr.stile = BitVec.ofNat 12 t ∧
          q.msg.body = .words (BitVec.ofNat 64 a.cid :: a.value :: List.replicate 6 0)) ∧
    (kind = 4 → s.destOf t (BitVec.ofNat 64 (a.word.toNat / 2 ^ 37)) = .ok (s.pkg, t) → SlotFor s t (j.prioOf cls).toNat →
      launches (.counterActionSend t)) ∧
    (kind = 5 → x.mu.waiters = [] → x.land.reserved = none → Copied s t →
      ∃ u, exec (.counterActionSetfull t) s = .next u ∧ (u.getTile t).cnt.actions = rest ∧ FullIs s u [at' / 16] true ∧ u.mem = s.mem)

/-- R103, R117, R277, R265: a head older than AGELIM makes one advisory report, and nothing else of it changes. The Vestibule answers an XLATE:
where the page is mapped meanwhile, or lies in a declared range and the quota and the memory allow a page, the message may run again;
elsewhere it traps, with TRAPS one higher, and at the fourth is consumed. A wounded transaction whose grace is over is revoked: the client
forgets what it holds and sends its end to every home.
It rests on choices of the model too: log entries 7 and 35. -/
def Obligations.ReportsAndWaits : Prop :=
  (∀ (s : State) (t p : Nat) (e : Entry) (j : Job), Acts s t → s.jobOf t = some j → ReportRoom s t →
     let x := s.getTile t
     let h := s.jobHeader t e.hdr
     HeadOf x p e → x.regs.agelim ≠ 0 → e.aged = false → e.accept + x.regs.agelim.toNat + 1 ≤ s.cycle →
     ∃ u, exec (.ageReport t p) s = .next u ∧ u.mem = s.mem ∧
       (u.getTile t).land.slots = x.land.slots.map (fun y => if y.key = e.key then { y with aged := true } else y) ∧
       ReportsTo s u t j [0x20C, 0, 0, at_ 28 h.spkg ||| at_ 16 h.stile ||| at_ 0 h.mseq, s.tileId t, h.h0, 0, BitVec.ofNat 64 s.cycle] []) ∧
  (∀ (s : State) (x : XlateReq) (rest : List XlateReq) (key pid : Nat) (p : Partition) (j : Job) (e : Entry),
     s.vest.xlates = x :: rest → s.sealedTile x.tile = false → x.engine = none → x.key = some key →
     s.partOf x.tile = some (pid, p) → s.part pid = some p → p.job = some j → (∀ g, s.group j.group = some g → g.running = none) →
     (s.getTile x.tile).entry key = some e →
     let va := x.va.toNat
     let others := (s.getTile x.tile).land.slots.filter (·.key != key)
     let runs := fun (u : State) => (u.getTile x.tile).land.slots =
       (s.getTile x.tile).land.slots.map fun y => if y.key = key then { y with hold := false } else y
     ((s.leafIn p va).isSome = true →
       ∃ u, exec .xlateResolution s = .next u ∧ u.vest.xlates = rest ∧ runs u ∧ u.mem = s.mem) ∧
     (∀ r n, s.leafIn p va = none → j.rangeOf va = some r → s.ownPage pid va = none → p.used + 0x10000 ≤ p.quota →
       s.freePageFrom (s.vest.pages.length + s.bad.length + 1) (Config.pagePool / 0x10000) = some n →
       ∃ u q, exec .xlateResolution s = .next u ∧ u.vest.xlates = rest ∧ runs u ∧ u.part pid = some q ∧ q.used = p.used + 0x10000 ∧
         { num := n, pid := pid, va := some (va / 0x10000 * 0x10000) } ∈ u.vest.pages) ∧
     (s.leafIn p va = none → (∀ r ∈ j.ranges, r.len = 0 ∨ va / 0x10000 < r.va / 0x10000 ∨ (r.va + r.len - 1) / 0x10000 < va / 0x10000) →
       e.hdr.cls ≠ 0xFE → ∀ ctx record, x.report = some (ctx, record) → record ≠ [] → (record.headD 0).getLsbD 10 = false → ReportRoom s x.tile →
       (s.getTile x.tile).land.spill = [] →
       ∃ u, exec .xlateResolution s = .next u ∧ u.vest.xlates = rest ∧ ReportsTo s u x.tile j record x.after ∧ u.mem = s.mem ∧
         (u.getTile x.tile).land.slots = if 4 ≤ e.traps + 1 then others else
           (s.getTile x.tile).land.slots.map fun y => if y.key = key then { y with traps := y.traps + 1, hold := false } else y)) ∧
  (∀ (s : State) (t slot : Nat) (x : Tx) (j : Job), Acts s t → s.jobOf t = some j → mget (s.getTile t).locks.txs slot = some x →
     x.begun = true → x.state = .wounded → x.since + j.grace ≤ s.cycle →
     let l := (s.getTile t).locks
     l.requests (s.handleOf t slot x.gen) = [] →
     ∃ u, exec (.woundgraceExpiry t slot) s = .next u ∧ mget (u.getTile t).locks.txs slot = some { x with state := .revoked } ∧
       (u.getTile t).locks.held = l.held.filter (·.slot != slot) ∧ u.mem = s.mem ∧
       toInject (u.getTile t) = toInject (s.getTile t) ++ (s.txHomes t slot).mapIdx fun i h =>
         (5, BitVec.ofNat 15 (h / 4), BitVec.ofNat 12 (Config.newelNode (h % 4)),
          .lock { tag := (s.getTile t).mu.nextTag + i, asid := (s.getTile t).regs.asid, name := 0, ts := x.ts,
                  handle := s.handleOf t slot x.gen, op := .endTx }, []))

/-! ### Engines -/

/-- R60, R61, R227, R230 to R237: what the command at the front of the chain computes. An MMA command adds its products to each cell, group by
group, rounding once a group, from +0 with CLEAR-FIRST; with K = 0 and no CLEAR-FIRST nothing changes. ACLR, ALOAD and AADD set cells to +0,
to the widened source, and to the rounded sum; MARK does nothing; ASTORE to the tile's own scratchpad, row after row, stores each cell
rounded to the format (FMT 1 to 6, RND 0 or 1), or each row as a block with its scale byte (FMT 7 and 8), and sets FULL; its flags are those of
the values stored. Cells are written back when the command completes.
It rests on choices of the model too: log entries 15, 29, 30, 64 and 65. -/
def Obligations.MatrixResults : Prop :=
  ∀ (s : State) (t op : Nat) (k : Cmd), FrontRuns s t op k →
    let r := k.record
    let m := bits r 0 39 32
    let n := bits r 0 47 40
    let acc := bits r 0 23 16
    let aux := bits r 0 27 24
    let w := fmtHalf aux / 2
    let dst := fun i => adr (r.getD 1 0) + BitVec.ofNat 56 (i * bits r 2 31 0)
    let cleared := bits r 0 10 10 = 1
    (∀ i, mmaOf t op i → ∃ u res, exec i s = .next u ∧ Ran s u t k res ∧
      (bits r 0 63 48 = 0 → ¬ cleared → res.code = 0 ∧ res.cells = []) ∧
      (bits r 0 63 48 ≠ 0 ∨ cleared → CellsAre s t r res fun a b =>
        (mmaGroups s t r a b).foldl (fun c g => (groupSum (accFmt r) (fdec (accFmt r) c) g).1) (if cleared then 0 else cellIs s t r acc a b))) ∧
    (op = 0x10 → ∃ u res, exec (.aclr t) s = .next u ∧ Ran s u t k res ∧ CellsAre s t r res fun _ _ => 0) ∧
    (op = 0x11 → ∃ u res, exec (.aload t) s = .next u ∧ Ran s u t k res ∧ CellsAre s t r res fun a b =>
      fmovi (fmtOfCode aux) (accFmt r) (valueAt s (s.operandKey t (r.getD 1 0) + a * bits r 2 31 0 + b * w) w)) ∧
    (op = 0x13 → ∃ u res, exec (.aadd t) s = .next u ∧ Ran s u t k res ∧ CellsAre s t r res fun a b =>
      (fadd (accFmt r) .rne (cellIs s t r acc a b) (cellIs s t r (bits r 1 6 0) a b)).1) ∧
    (op = 0x20 → ∃ u, exec (.mark t) s = .next u ∧ Ran s u t k { code := 0, flags := 0, cells := [] }) ∧
    (op = 0x12 → aux ≤ 6 → bits r 0 29 28 ≤ 1 → 0 < n → n * w ≤ bits r 2 31 0 → (s.getTile t).waitList = [] → Copied s t →
      (∀ i, i < m → OwnOf s t (dst i) (n * w) 16 ∧ Sound s (keyOf t (dst i)) (n * w) ∧ keyOf t (dst i) = keyOf t (dst 0) + i * bits r 2 31 0) →
      Memory.wf s.mem = true →
      ∃ u res, exec (.astore t) s = .next u ∧ (u.getTile t).matrix.cmds.head? = some { k with result := some res } ∧ res.code = 0 ∧ res.cells = [] ∧
        (∀ i j, i < m → j < n → valueAt u (keyOf t (dst i) + j * w) w =
          (fcvt (accFmt r) (fmtOfCode aux) (if bits r 0 29 28 = 1 then .rtz else .rne) (bits r 0 30 30 == 1) (cellIs s t r acc i j)).1 % 256 ^ w) ∧
        (∀ a, (∀ i, i < m → ¬ (keyOf t (dst i) ≤ a ∧ a < keyOf t (dst i) + n * w)) → u.byteAt a = s.byteAt a) ∧
        (∀ b, res.flags.getLsbD b = true ↔ ∃ i j, i < m ∧ j < n ∧
          (fcvt (accFmt r) (fmtOfCode aux) (if bits r 0 29 28 = 1 then .rtz else .rne) (bits r 0 30 30 == 1) (cellIs s t r acc i j)).2.getLsbD b = true) ∧
        FullBecause s u fun g => ∃ i, i < m ∧ g ∈ granules (keyOf t (dst i)) (n * w)) ∧
    (op = 0x12 → 7 ≤ aux → bits r 0 29 28 ≤ 1 → 16 ≤ bits r 2 31 0 → (s.getTile t).waitList = [] → Copied s t → Memory.wf s.mem = true →
      let sc := s.operandKey t (r.getD 5 0)
      let q := fun i => quantBlock (aux == 8)
        ((List.range 32).map fun j => (fdec (accFmt r) (cellIs s t r acc i j), if bits r 0 29 28 = 1 then Rm.rtz else .rne))
      (∀ i, i < m → OwnOf s t (dst i) 16 16 ∧ Sound s (keyOf t (dst i)) 16 ∧ keyOf t (dst i) = keyOf t (dst 0) + i * bits r 2 31 0 ∧
        (keyOf t (dst i) + 16 ≤ sc ∨ sc + m ≤ keyOf t (dst i))) → Sound s sc m →
      ∃ u res, exec (.astore t) s = .next u ∧ (u.getTile t).matrix.cmds.head? = some { k with result := some res } ∧ res.code = 0 ∧ res.cells = [] ∧
        (∀ i, i < m → u.read (keyOf t (dst i)) 16 = packNibbles (q i).2.1 ∧ u.byteAt (sc + i) = BitVec.ofNat 8 (q i).1) ∧
        (∀ b, res.flags.getLsbD b = true ↔ ∃ i, i < m ∧ (q i).2.2.getLsbD b = true) ∧
        (∀ a, (a < sc ∨ sc + m ≤ a) → (∀ i, i < m → ¬ (keyOf t (dst i) ≤ a ∧ a < keyOf t (dst i) + 16)) → u.byteAt a = s.byteAt a) ∧
        FullBecause s u fun g => ∃ i, i < m ∧ (g ∈ granules (keyOf t (dst i)) 16 ∨ g ∈ granules (sc + i) 1))

/-- R241 to R243: a copy command whose turn has come and whose checks pass translates its rows and reads them; one whose sources are there
writes its rows in order and ends with code 0. Raw copies store the bytes read, FILL stores the low bytes of its pattern, and a conversion
stores each element rounded (RND 0 or 1). Said here of rows in the tile's own
scratchpad whose destinations do not overlap.
It rests on choices of the model too: log entries 15, 29, 30, 63 and 64. -/
def Obligations.CopyResults : Prop :=
  ∀ (s : State) (t n op : Nat) (k : Cmd) (i : Instr), CopyRuns s t n op k → copyOf t n op i →
    let r := k.record
    let rows := bits r 3 47 32
    let sb := srcRowBytes r
    let db := dstRowBytes r
    let from' := fun j => keyOf t (rowFrom s t r j)
    let pieces := fun (a : Addr) (len : Nat) => [({ pkg := s.pkg, node := t, key := keyOf t a, len := len, addr := a, page := none } : Piece)]
    let row := fun j => (⟨if op = 3 then [] else pieces (rowFrom s t r j) sb, pieces (rowTo s t r j) db, []⟩ : CopyRow)
    (∀ j, j < rows → OwnOf s t (rowTo s t r j) db 16 ∧ Sound s (keyOf t (rowTo s t r j)) db) →
    (op ≠ 3 → ∀ j, j < rows → OwnOf s t (rowFrom s t r j) sb 16 ∧ Sound s (from' j) sb) →
    (k.rows = [] → copyKind r ≠ .blocks → (s.getTile t).frozen = false → (∀ q ∈ (s.getTile t).copy.cmds, n ≤ q.seq ∨ q.tried = true) →
      s.copyCheck t r = .ok → (∀ p ∈ s.copySideReads t r, Sound s p.1 p.2) →
      ∃ u c, exec i s = .next u ∧ (u.getTile t).copy.cmds.find? (·.seq == n) = some c ∧ c.rows = (List.range rows).map row ∧ c.fail = 0 ∧
        c.result = none ∧ c.tags = [] ∧ SameOutside s u t ∧
        c.got = k.got ++ if op = 3 then [] else (List.range rows).map fun j => (j * sb, s.read (from' j) sb)) ∧
    (∀ bs : Nat → List Byte, k.rows = (List.range rows).map row → copyRnd r ≤ 1 → copyKind r ≠ .blocks → copyKind r ≠ .none →
      (op = 3 → r.getD 1 0 = 0) →
      k.got = (if op = 3 then [] else (List.range rows).map fun j => (j * sb, bs j)) → (op ≠ 3 → 0 < sb ∧ ∀ j, (bs j).length = sb) → 0 < rows →
      (∀ j l, j < rows → l < j → keyOf t (rowTo s t r l) + db ≤ keyOf t (rowTo s t r j) ∨ keyOf t (rowTo s t r j) + db ≤ keyOf t (rowTo s t r l)) →
      (s.getTile t).waitList = [] → Copied s t → Memory.wf s.mem = true →
      ∃ u c res, exec i s = .next u ∧ (u.getTile t).copy.cmds.find? (·.seq == n) = some c ∧ c.result = some res ∧ res.code = 0 ∧ res.cells = [] ∧
        (∀ j, j < rows → u.read (keyOf t (rowTo s t r j)) db = copied r (bs j)) ∧
        (∀ a, (∀ j, j < rows → ¬ (keyOf t (rowTo s t r j) ≤ a ∧ a < keyOf t (rowTo s t r j) + db)) → u.byteAt a = s.byteAt a) ∧
        (copySetFull r = false → u.empty = s.empty) ∧
        (copySetFull r = true → FullBecause s u fun g => ∃ j, j < rows ∧ g ∈ granules (keyOf t (rowTo s t r j)) db))

/-- R239, R245, R246, R248, R302: a command that has run and whose requests are answered, or a counter-posted record that failed its post checks,
completes: cells are written back, the status word keeps its code, flags and waiting cycles, ERRS counts a code that is not 0, and the
completed number advances: the chain's to the command's, the copy engine's over all numbers completed. A NOTIFY of a counter of the tile itself
adds its amount; while the action queue is full, or updates are held before it, it is held, and the chain's completed number advances with
it. A NOTIFY of another tile is sent as an increment. A matrix command that completes behind a held NOTIFY has none of these effects yet: it
waits in its turn.
It rests on choices of the model too: log entry 29. -/
def Obligations.EngineCompletions : Prop :=
  ∀ (s : State) (t n pkg tile : Nat) (m : Bool) (k : Cmd) (res : RunResult), s.sealedTile t = false → (s.jobOf t).isSome = true →
    let x := s.getTile t
    let e := x.engine m
    let cid := bits k.record 7 47 40
    let c := x.cnt.get cid
    let amount := ((k.record.getD 7 0).extractLsb' 48 16).signExtend 64
    let y := fired { c with value := c.value + amount } cid k.ftag
    let here := pkg = s.pkg ∧ tile = t
    let waits := k.notify = true ∧ here ∧ (Config.actionRoom ≤ x.cnt.actions.length ∨ x.cnt.held ≠ [])
    let i := if m then Instr.matrixCommandComplete t else .copyCommandComplete t n
    let code := if k.bad then 1 else if k.fail ≠ 0 then k.fail else res.code
    let flags := if k.bad then 0 else res.flags
    let cells := if k.bad then [] else res.cells
    let behind := m = true ∧ ((∃ h ∈ x.cnt.held, h.seq ≠ none) ∨ e.ended ≠ [])
    k.seq = n → (if m then e.cmds.head? = some k else e.cmds.find? (·.seq == n) = some k) → (k.bad = true → k.fail = 0) →
    (k.bad = true ∨ k.dead = false ∧ k.result = some res ∧ k.tags = []) → (∀ c ∈ cells, poolTile c.1 = some t ∧ poolTile (c.1 + c.2.length - 1) = some t) →
    (k.notify = true → s.destOf t (BitVec.ofNat 64 (bits k.record 7 26 0)) = .ok (pkg, tile)) →
    (Copied s t → behind → ∃ u q, exec i s = .next u ∧ u.mem = cells.foldl (fun y c => memWrite y c.1 c.2) s.mem ∧ u.empty = s.empty ∧
      (u.getTile t).matrix = { e with cmds := e.cmds.filter (·.seq != n), ended := e.ended ++ [q] } ∧
      q.seq = n ∧ q.record = k.record ∧ q.notify = k.notify ∧ q.ftag = k.ftag ∧ q.waited = k.waited ∧ q.fail = k.fail ∧
      (∃ r, q.result = some r ∧ r.code = (if k.bad then 1 else res.code) ∧ r.flags = flags) ∧
      (u.getTile t).cnt = x.cnt ∧ toInject (u.getTile t) = toInject x ∧ (u.getTile t).copy = x.copy ∧ ∀ v, v ≠ t → u.getTile v = s.getTile v) ∧
    (Copied s t → ¬ behind → ∃ u, exec i s = .next u ∧ u.mem = cells.foldl (fun y c => memWrite y c.1 c.2) s.mem ∧ u.empty = s.empty ∧
      ((u.getTile t).engine m).cmds = e.cmds.filter (·.seq != n) ∧ ((u.getTile t).engine m).last = e.last ∧
      ((u.getTile t).engine m).status = ((n, BitVec.ofNat 64 (Nat.min k.waited (2 ^ 24 - 1) * 2 ^ 16 + code * 256 + flags.toNat)) :: e.status).take 64 ∧
      ((u.getTile t).engine m).errs = (if code = 0 ∨ e.errs = 255 then e.errs else e.errs + 1) ∧
      (m = false ∨ ¬ waits →
        (n = e.done + 1 → e.beyond = [] → ((u.getTile t).engine m).done = n ∧ ((u.getTile t).engine m).beyond = []) ∧
        (e.done + 1 < n → e.beyond = [] → ((u.getTile t).engine m).done = e.done ∧ ((u.getTile t).engine m).beyond = [n])) ∧
      (m = true → waits → ((u.getTile t).engine m).done = e.done ∧ ((u.getTile t).engine m).beyond = e.beyond) ∧
      (waits → (u.getTile t).cnt = { x.cnt with held := x.cnt.held ++
        [{ cid := cid, amount := amount, ftag := k.ftag, reply := none, seq := if m then some n else none }] }) ∧
      (¬ (k.notify = true ∧ here) → (u.getTile t).cnt = x.cnt) ∧
      (k.notify = true → here → ¬ waits → (u.getTile t).cnt.get cid = y.1 ∧ (u.getTile t).cnt.actions = x.cnt.actions ++ y.2) ∧
      (k.notify = false ∨ here → toInject (u.getTile t) = toInject x) ∧
      (k.notify = true → ¬ here → toInject (u.getTile t) = toInject x ++
        [(4, BitVec.ofNat 15 pkg, BitVec.ofNat 12 tile, .incr (BitVec.ofNat 64 cid) amount, [])]) ∧
      (u.getTile t).engine (!m) = x.engine (!m) ∧ ∀ v, v ≠ t → u.getTile v = s.getTile v)

/-! ### Fabric, links and platform -/

/-- R341, R342: one fabric cycle in two core cycles. With nothing else in the fabric or to inject, a flit goes one hop by its first productive
output, X before Y, with its AGE; of two that want the one output, the older takes it and the other is deflected by the first free output, in
the order N, E, S, W, with AGE one higher, up to 4095.
It rests on choices of the model too: log entries 12 and 23. -/
def Obligations.RouterCycles : Prop :=
  ∀ (s : State) (a b : Transit) (da db : Nat) (rest : List Nat),
    let r := a.router
    let after := fun (l : List Transit) => ∃ u, exec .routerCycle s = .next u ∧ u.fabric.vn0 = l ∧ u.fabric.vn1 = [] ∧ u.mem = s.mem ∧
      u.fabric.last = s.cycle / 2 + 1
    (s.fabric.last = s.cycle / 2 + 1 → exec .routerCycle s = .next s) ∧
    (s.fabric.last ≠ s.cycle / 2 + 1 → NothingToInject s → s.fabric.vn1 = [] →
      (s.fabric.vn0 = [] → after []) ∧
      (s.fabric.vn0 = [a] → Passing s r a.flit (da :: rest) → after [sentOn r da a.flit]) ∧
      (s.fabric.vn0 = [a, b] → b.router = r → flitBefore a.flit b.flit = true → Passing s r a.flit [da] → Passing s r b.flit [da] →
        [0, 1, 2, 3].find? (fun d => d != da) = some db →
        after [sentOn r da a.flit, sentOn r db { b.flit with age := if b.flit.age = 4095 then 4095 else b.flit.age + 1 }]))

/-- R345 to R351, R337, R354, R358: ports. A frame in order whose flits find room on their planes is accepted, one with a bad CRC is counted,
every other is discarded, one without room too. An acknowledgement frees frames and gives credits back; those the bridge frees have reached the
host's adapter, as have those its far end has accepted when it goes down. A timeout sends the unacknowledged ones again. A lane is retired from
its direction, and without a lane the port is down, with every frame acknowledged at once to route its flits afresh. A lane out for recalibration
rejoins its direction, or has failed and is retired. Frames are numbered from 1. A turnaround begins where a lane has been lost and the giving
direction keeps enough, never on the bridge, and ends with at most four lanes turned, as the limits allow with the lanes that survive. Training
sets the lanes and the peer, of a port that was UP once it has gone down, but in a package that failed to boot; a port with frames unacknowledged
waits for the far end's answer; a training that finds no lane at all leaves the port down with none retired (R356). That answer gives back what
the far end has not accepted. A route table entry names its port. A lost package is so no longer once a port or an entry gives it a route again
(log entry 2). It rests on choices of the model too: log entries 2 (what the far end does, and the number 0 of no frame) and 6. -/
def Obligations.Links : Prop :=
  ∀ (s : State) (p n dst peer a b b0 b1 : Nat) (f : Frame) (out : Bool),
    let q := s.getPort p
    let on := fun (pl : Nat) (l : List Flit) => l.filter fun x => x.hdr.plane == pl
    let room := (∀ pl ∈ [0, 1], on pl f.flits = [] ∨ (on pl q.rx).length + (on pl f.flits).length ≤ Config.portRoom)
    let have' := if out then q.txl else q.rxl
    let cal := if out then q.calTx else q.calRx
    let lanes := fun (m : Nat) (c : Option Nat) => if out then { q with txl := m, calTx := c } else { q with rxl := m, calRx := c }
    let lost := fun (x : Port) => if out then { x with txl := x.txl - 1, lostTx := x.lostTx + 1, failed := x.failed + 1 }
      else { x with rxl := x.rxl - 1, lostRx := x.lostRx + 1, failed := x.failed + 1 }
    let down := fun (x : Port) => { x with
      state := .down, turning := none, calTx := none, calRx := none
      rx := if x.unacked = [] then x.rx ++ x.tx else x.rx, tx := if x.unacked = [] then [] else x.tx }
    let notes := fun (i : Instr) (x : Port) => exec i s = .next (s.modPort p fun _ => x).noteBridge
    let give := fun (o : Bool) => if o then q.rxl else q.txl
    let keeps := if 8 ≤ q.txl + q.rxl then 4 else 1
    let turned := fun (o : Bool) => Nat.min 4 (give o - keeps)
    let up := fun (x : Port) (y : Nat) => { x with
      state := .up, peer := y, seq := 1, expect := 1, credit0 := Config.portRoom, credit1 := Config.portRoom }
    let was := if q.state = .up ∨ q.state = .turning then down q else q
    let fit := { was with txl := a, rxl := b, lostTx := 32 - a, lostRx := 32 - b, failed := Nat.max q.failed (64 - a - b), calTx := none, calRx := none }
    let trains := fun (x : Port) => exec (.portTrained p peer a b) s = .next ({ s.modPort p (fun _ => x) with fabric := { s.fabric with
      lost := if x.state = .up then s.fabric.lost.filter fun d => decide (s.portTo d ≠ p % 7) else s.fabric.lost } } : State).noteBridge
    let silent := { was with state := .down, txl := 0, rxl := 0, turning := none, calTx := none, calRx := none }
    let back := { q with rx := q.rx ++ (q.unacked.filter fun x => n < x.seq).flatMap (·.flits) ++ q.tx, tx := [], unacked := [] }
    let acked := { q with
      unacked := q.unacked.filter fun x => n < x.seq, credit0 := Nat.min (q.credit0 + b0) Config.portRoom
      credit1 := Nat.min (q.credit1 + b1) Config.portRoom }
    (q.state = .up → f.good = true → f.seq = q.expect →
      (room → PortTurns (.linkFrameReceive p f) s p { q with rx := q.rx ++ f.flits, expect := q.expect + 1, rcvd := q.rcvd + f.flits.length }) ∧
      (¬ room → PortTurns (.linkFrameReceive p f) s p q)) ∧
    (q.state = .up → f.good = false → PortTurns (.linkFrameReceive p f) s p { q with crcerr := q.crcerr + 1 }) ∧
    (q.state ≠ .up ∨ f.good = true ∧ f.seq ≠ q.expect → PortTurns (.linkFrameReceive p f) s p q) ∧
    (p % 7 ≠ 0 → PortTurns (.frameAck p ⟨n, b0, b1⟩) s p acked) ∧
    (p % 7 = 0 → exec (.frameAck p ⟨n, b0, b1⟩) s =
      .next (((q.unacked.filter fun x => x.seq ≤ n).flatMap (·.flits)).foldl State.toHost (s.modPort p fun _ => acked))) ∧
    (q.state = .up → PortTurns (.frameRetryTimeout p) s p { q with retries := q.retries + q.unacked.length }) ∧
    (1 < have' → notes (.laneRetire p out) (lost q)) ∧ (have' = 1 → notes (.laneRetire p out) (down (lost q))) ∧
    (have' = 0 → notes (.laneRetire p out) q) ∧
    (cal = none → have' ≠ 0 → PortTurns (.laneRecalibration p out none) s p (lanes (have' - 1) (some s.cycle))) ∧
    (cal ≠ none → notes (.laneRecalibration p out (some true)) (lanes (have' + 1) none) ∧
      (have' ≠ 0 → notes (.laneRecalibration p out (some false)) (lost (lanes (have' + 1) none))) ∧
      (have' = 0 → notes (.laneRecalibration p out (some false)) (down (lost (lanes (have' + 1) none))))) ∧
    (p % 7 = 0 → exec (.laneTurnaround p out) s = .next s) ∧
    (p % 7 ≠ 0 → q.turning = none →
      (q.state = .up → 0 < q.lostTx + q.lostRx → keeps + 4 ≤ give out →
        PortTurns (.laneTurnaround p out) s p { q with state := .turning, turning := some (out, s.cycle) }) ∧
      (q.state ≠ .up ∨ q.lostTx + q.lostRx = 0 ∨ give out < keeps + 4 → PortTurns (.laneTurnaround p out) s p q)) ∧
    (∀ o since, p % 7 ≠ 0 → q.turning = some (o, since) → PortTurns (.laneTurnaround p out) s p
      { q with
        txl := if o then q.txl + turned o else q.txl - turned o, rxl := if o then q.rxl - turned o else q.rxl + turned o
        state := .up, turning := none, turns := Nat.min (q.turns + 1) 65535, hotTx := 0, hotRx := 0 }) ∧
    (s.host.bootfail = true → exec (.portTrained p peer a b) s = .next s) ∧
    (s.host.bootfail = false →
      (q.state ≠ .turning → 32 < a ∨ 32 < b ∨ 64 < a + b + q.failed → trains q) ∧
      (a ≤ 32 → b ≤ 32 → a + b + q.failed ≤ 64 →
        (a = 0 → b = 0 → trains silent) ∧ (a = 0 ∧ 0 < b ∨ 0 < a ∧ b = 0 → trains { fit with state := .down }) ∧
        (0 < a → 0 < b → q.unacked ≠ [] → trains { fit with state := .training, peer := peer }) ∧
        (0 < a → 0 < b → q.unacked = [] → trains (up fit peer)))) ∧
    (p % 7 ≠ 0 → (q.state = .down → PortTurns (.portDownSequenceReply p n) s p back) ∧
      (q.state = .training → PortTurns (.portDownSequenceReply p n) s p (up back q.peer))) ∧
    (p % 7 = 0 →
      let reached := fun (x : Port) => exec (.portDownSequenceReply p n) s =
        .next (((q.unacked.filter fun x => x.seq ≤ n).flatMap (·.flits)).foldl State.toHost (s.modPort p fun _ => x))
      (q.state = .down → reached back) ∧ (q.state = .training → reached (up back q.peer))) ∧
    (q.state = .up ∨ q.state = .turning → PortTurns (.portDownSequenceReply p n) s p q) ∧
    (dst < 4096 → n < 7 → ∃ u, exec (.routeTableUpdate [(dst, n)]) s = .next u ∧ u.portTo dst = n ∧ u.mem = s.mem ∧ u.ports = s.ports ∧
      ((s.getPort n).state = .up → dst ∉ u.fabric.lost ∧ ∀ d, d ≠ dst → (d ∈ u.fabric.lost ↔ d ∈ s.fabric.lost)) ∧
      ((s.getPort n).state = .down → u.fabric.lost = s.fabric.lost))

/-- R332, R333, R130: records from the host to a tile of a resident job become class-0xFC messages of eight words; under a seal they are absorbed
and counted, and for no partition dropped and counted; one that names another package is that package's to inject or drop, whatever the
partition id names here. A whole message for the host goes into its ring while that has room, and the host takes
records off the front. A host write puts its bytes into HBM.
R353 to R357, R285: a governor grants the head of its queue while the die's and the partition's budgets allow, and otherwise nothing; measured
power and temperature over a limit stop it until they have fallen below it. Telemetry keeps the sensors, the counts and each port's record
(R350). Scrubs count and log, soft errors are corrected and counted or mark their granule or line. Power removal loses all state
but the package's number and retired cores. A lost package seals the partition that spans it.
It rests on choices of the model too: log entries 4, 9, 14, 17, 21, 51, 53 and 81 (a host write asks no lease). -/
def Obligations.HostAndPlatform : Prop :=
  (∀ (s : State) (m pid t : Nat) (ws : List Word) (p : Partition),
    let w := ws.getD 0 0
    (w.toNat / 2 ^ 32) % 64 = pid → s.part pid = some p → p.job.isSome = true → w.extractLsb' 27 5 = 0 → w.extractLsb' 38 10 = 0 →
    w.extractLsb' 60 4 = 0 → s.vestDest p (BitVec.ofNat 64 (w.toNat % 2 ^ 27)) = some (s.pkg, t) →
    (p.sealed_ = false → ∃ u x, exec (.hostinRecord m ws) s = .next u ∧ u.vest.out = s.vest.out ++ [x] ∧ u.mem = s.mem ∧ x.hdr.kind = 0 ∧
      x.hdr.cls = 0xFC ∧ x.hdr.prio = 0 ∧ x.hdr.ftag = 0 ∧ x.hdr.nflit = 0 ∧ x.hdr.dpkg = BitVec.ofNat 15 s.pkg ∧ x.hdr.dtile = BitVec.ofNat 12 t ∧
      x.hdr.spkg = 0x7FFF ∧ x.hdr.stile = w.extractLsb' 48 12 ∧ x.body = .words (((List.range 7).map fun i => ws.getD (i + 1) 0) ++ [0])) ∧
    (p.sealed_ = true → ∃ u q, exec (.hostinRecord m ws) s = .next u ∧ u.part pid = some q ∧ q.absorbed = p.absorbed + 1 ∧
      u.vest.out = s.vest.out)) ∧
  (∀ (s : State) (m pid pkg t : Nat) (ws : List Word) (p : Partition),
    let w := ws.getD 0 0
    (w.toNat / 2 ^ 32) % 64 = pid → s.part pid = some p → p.job.isSome = true → w.extractLsb' 27 5 = 0 → w.extractLsb' 38 10 = 0 →
    w.extractLsb' 60 4 = 0 → s.vestDest p (BitVec.ofNat 64 (w.toNat % 2 ^ 27)) = some (pkg, t) → pkg ≠ s.pkg →
    exec (.hostinRecord m ws) s = .next s) ∧
  (∀ (s : State) (m : Nat) (ws : List Word),
    let w := ws.getD 0 0
    let pkg := w.toNat / 2 ^ 12 % 2 ^ 15
    pkg ≠ s.pkg → pkg ≠ 0x7FFE →
    (∀ p, s.part (w.toNat / 2 ^ 32 % 64) = some p → p.job = none ∨ s.partPkg p pkg ≠ s.pkg) → exec (.hostinRecord m ws) s = .next s) ∧
  (∀ (s : State) (m : Nat) (ws : List Word), s.part ((ws.getD 0 0).toNat / 2 ^ 32 % 64) = none →
    (ws.getD 0 0).toNat / 2 ^ 12 % 2 ^ 15 = s.pkg →
    ∃ u, exec (.hostinRecord m ws) s = .next u ∧ mget u.host.drops m = some ((mget s.host.drops m).getD 0 + 1) ∧ u.vest = s.vest ∧ u.mem = s.mem) ∧
  (∀ (s : State) (e : Entry) (n q : Nat) (bs : List Byte),
    let ring := fun (v : State) => (v.host.ring q).recs
    (s.host.inbox = [e] → e.present.length = e.hdr.nflit.toNat + 1 → e.hdr.dtile.toNat = q → (ring s).length < (s.host.ring q).size →
      ∃ u, exec .egressDelivery s = .next u ∧ u.host.inbox = [] ∧ ring u = ring s ++ [wordsOf 36 e.bytes] ∧ u.mem = s.mem) ∧
    (∃ u, exec (.egressRingConsumed q n) s = .next u ∧ ring u = (ring s).drop n ∧ u.mem = s.mem ∧ u.vest = s.vest) ∧
    (bs ≠ [] → q + bs.length ≤ Config.hbmBytes → HbmSound s → Memory.wf s.mem = true →
      ∃ u, exec (.hostWrite q bs) s = .next u ∧ u.empty = s.empty ∧
        ∀ a, u.byteAt a = if q ≤ a ∧ a < q + bs.length then bs.getD (a - q) 0 else s.byteAt a)) ∧
  (∀ (s : State) (d n mw pw : Nat) (h : LeaveReq) (rest : List LeaveReq) (l : List Nat),
    let g := (s.getDie d).gov
    let sum := fun (l : List LeaveReq) => (l.map (·.mw)).sum
    let mine := sum (g.held.filter fun q => q.pid == h.pid)
    let may := sum g.held + h.mw ≤ g.budget ∧ (256 * (mine + h.mw) ≤ g.budget * s.shareOf h.pid d ∨ mine = 0) ∧ g.power ≤ g.budget ∧
      g.above = false ∧ g.hot = false
    (g.fifo = [] → exec (.leaveGrant d) s = .next s) ∧
    (g.fifo = h :: rest → ¬ may → exec (.leaveGrant d) s = .next s) ∧
    (g.fifo = h :: rest → may →
      ∃ u, exec (.leaveGrant d) s = .next u ∧ (u.getDie d).gov = { g with fifo := rest, held := g.held ++ [h] } ∧ u.mem = s.mem ∧
        ∀ k since, ((s.getTile h.tile).engine h.matrix).cmds.find? (·.seq == h.seq) = some k → k.leave = .queued since →
          ((u.getTile h.tile).engine h.matrix).cmds.find? (·.seq == h.seq) = some { k with leave := .granted, waited := s.cycle - since }) ∧
    (∃ u, exec (.governorPowerCheck d mw pw) s = .next u ∧ (u.getDie d).gov.power = mw ∧ u.mem = s.mem ∧
      ∀ e, (u.getDie e).gov.above = (decide (2800000 < pw) || ((s.getDie e).gov.above && decide (2800000 ≤ pw)))) ∧
    (∃ u, exec (.thermalLimit d) s = .next u ∧ (u.getDie d).gov = { g with hot := true } ∧ u.mem = s.mem) ∧
    (∃ u, exec (.thermalLimitCleared d) s = .next u ∧ (u.getDie d).gov = { g with hot := false } ∧ u.mem = s.mem) ∧
    (∃ u, exec (.telemetrySample l [n]) s = .next u ∧ u.host.power = l ∧ u.host.temp = [n] ∧ u.host.sampled = s.cycle ∧ u.mem = s.mem ∧
      u.vest = s.vest ∧ u.tiles = s.tiles ∧ u.host.counts = [s.host.deflected, s.host.goldens, s.host.scrubs, s.host.softErrs] ∧
      ∀ i, i < 7 →
        let q := s.getPort i
        let code := match q.state with
          | .down => 0
          | .training => 1
          | .up => 2
          | .turning => 3
        u.host.records[i]? = some (leBytes 8 (code * 2 ^ 56 + q.txl * 2 ^ 48 + q.rxl * 2 ^ 40 + q.failed * 2 ^ 32 + q.turns * 2 ^ 16 + q.peer)
          ++ leBytes 8 q.retries ++ leBytes 8 q.crcerr ++ leBytes 8 q.flits) ∧
        (u.getPort i).state = q.state ∧ (u.getPort i).markTx = q.flits ∧ (u.getPort i).markRx = q.rcvd) ∧
    (n < Config.hbmBytes → ∃ u, exec (.hbmPatrolScrub n) s = .next u ∧ u.mem = s.mem ∧ u.bad = s.bad ∧ u.host.scrubs = s.host.scrubs + 1 ∧
      ∀ b, s.badIn (n / 64 * 64) 64 = some b → b ∈ u.host.scrubLog) ∧
    (d < Config.tiles → n < Config.poolBytes → (s.getTile d).regs.scrub = true →
      ∃ u, exec (.sramScrub d n) s = .next u ∧ u.mem = s.mem ∧ u.bad = s.bad ∧ u.host.scrubs = s.host.scrubs + 1 ∧
        ∀ b, s.badIn (poolBase d + n / 16 * 16) 16 = some b → b ∈ u.host.scrubLog) ∧
    (n < Config.hbmBytes → ∃ u, exec (.softError n false) s = .next u ∧ u.mem = s.mem ∧ u.host.softErrs = s.host.softErrs + 1 ∧
      ∀ b, b ∈ u.bad ↔ b ∈ s.bad ∨ b = (n / 64 * 64, 64)) ∧
    (d < Config.tiles → n < Config.poolBytes →
      (∃ u, exec (.softError (poolBase d + n) false) s = .next u ∧ u.mem = s.mem ∧ ∀ b, b ∈ u.bad ↔ b ∈ s.bad ∨ b = (poolBase d + n / 16 * 16, 16)) ∧
      ∃ u, exec (.softError (poolBase d + n) true) s = .next u ∧ u.mem = s.mem ∧ u.bad = s.bad ∧
        (u.getTile d).regs.cec = if (s.getTile d).regs.cec = 255 then 255 else (s.getTile d).regs.cec + 1) ∧
    (∃ u, exec .powerRemoval s = .next u ∧ u.power = false ∧ u.mem = [] ∧ u.tiles = [] ∧ u.vest.parts = [] ∧ u.vest.queues = [] ∧ u.pkg = s.pkg ∧
      ∀ e, e ∈ u.fabric.defects ↔ e ∈ s.fabric.defects ∨ e ∈ s.fabric.retired)) ∧
  (∀ (s : State) (n pid : Nat) (p : Partition), n ≠ s.pkg → n ∉ s.fabric.lost →
    ((∀ e ∈ s.vest.parts, n ∉ s.pkgsOf e.2) → exec (.packageLoss n) s = .next { s with fabric := { s.fabric with lost := ins s.fabric.lost n } }) ∧
    (s.vest.parts.filter (fun e => (s.pkgsOf e.2).contains n) = [(pid, p)] → s.part pid = some p → p.sealed_ = false →
      ∃ u q, exec (.packageLoss n) s = .next u ∧ u.part pid = some q ∧ q.sealed_ = true ∧ n ∈ u.fabric.lost ∧ u.mem = s.mem))

/-! ### Snapshots, migrations, rollbacks -/

/-- A group whose one snapshot being rolled back to is `q`, in the partition `pid`; nothing is being sealed and no snapshot runs. -/
def Rolls (s : State) (r : Rollback) (g : Group) (q : Snapshot) (pid : Nat) (p : Partition) : Prop :=
  s.vest.rolls = [r] ∧ s.vest.seals = [] ∧ s.group r.group = some g ∧ g.snaps.find? (fun x => x.sid == r.sid) = some q ∧
    s.groupParts r.group = [(pid, p)] ∧ s.part pid = some p ∧ g.running = none ∧ HbmSound s
/-- The images of a snapshot lie where they belong: each tile's bytes and granules in its pool, and its pages in HBM. -/
def ImagesFit (s : State) (gid : Nat) (q : Snapshot) : Prop :=
  Memory.wf s.mem = true ∧ Memory.wf q.full = true ∧ (q.tiles.map (·.tile)).Nodup ∧
    (∀ i ∈ q.tiles, i.tile < Config.tiles ∧ Memory.wf i.bytes = true ∧ i.state.land.spill = [] ∧
      ∀ g ∈ i.empty, poolBase i.tile / 16 ≤ g ∧ g < (poolBase i.tile + Config.poolBytes) / 16) ∧
    (∀ n ∈ s.pagesNow gid, n < Config.hbmBytes / 0x10000) ∧
    ∀ d, ∀ p ∈ (s.getDie d).memory.pre, p.granule < Config.hbmBytes / 0x10000 ∧ Memory.wf p.bytes = true

/-- R99 to R102, R19, R23: a live migration. It begins by freezing its tile, once no snapshot of the group runs; a tile at rest is streamed; then
the mapping names the new core, the old router forwards, the old core is retired and MIGCNT rises; then the tile resumes. A forwarding entry idle
for 2^16 fabric cycles goes. R297, R298, R303, R308, R309, R311, R312: the background copier saves a block, or fails the snapshot for want of
room. A node's figures reach the Vestibule; when those of this package's nodes balance the logs close, and once every block is copied the
snapshot is COMPLETE. A complete snapshot is drained with its manifest, and supersedes those drained before it. SNAPQ is answered. R289, R316,
R317: a seal that is complete is reported. A rollback goes through its steps, on this package: it seals and clears its group; it restores the
tiles with their pools and FULL bits, and HBM, by granules with a pre-image or from the full image; it serves the channel logs, so that a handler
message is placed, an increment counts, and increments that find no room in the action queue are all kept to be tried again; it counts and sends
RESUME to every tile; and it unseals and replays what had come from outside. It rests on choices of the model too: log entries 14, 22, 29, 42,
43, 44, 45, 46, 47, 50, 60 and 83. -/
def Obligations.SnapshotsAndMigrations : Prop :=
  (∀ (s : State) (m : Migration) (old : Nat), s.vest.migs = [m] →
    let x := s.getTile m.tile
    (m.phase = 0 → (∀ g, s.groupOfTile m.tile = some g → s.snapping g = false) →
      ∃ u, exec .migrationStream s = .next u ∧ u.vest.migs = [{ m with phase := 1 }] ∧ (u.getTile m.tile).frozen = true ∧ u.mem = s.mem) ∧
    (m.phase = 1 → (s.sealedTile m.tile = true ∨ (∀ o ∈ x.mu.out, o.lock = true ∨ s.waitsFrozen m.tile o.tag = true) ∧
        ∀ k ∈ x.matrix.cmds ++ x.copy.cmds, k.dead = true ∨ k.result = none ∧ k.rows = [] ∧ k.tags = []) →
      ∃ u, exec .migrationStream s = .next u ∧ u.vest.migs = [{ m with phase := 2 }] ∧ u.tiles = s.tiles ∧ u.mem = s.mem) ∧
    (m.phase = 2 → s.fabric.coreOf m.tile = some old →
      ∃ u, exec .migrationRemap s = .next u ∧ u.vest.migs = [{ m with phase := 3 }] ∧ u.fabric.coreOf m.tile = some m.core ∧ u.mem = s.mem ∧
        u.fabric.retired = s.fabric.retired ++ [(dieOfTile m.tile, old)] ∧
        u.fabric.forwards = s.fabric.forwards ++ [{ router := coreRouter (dieOfTile m.tile) old, tile := m.tile, core := m.core, used := s.cycle / 2 }] ∧
        (u.getTile m.tile).regs.migcnt = if x.regs.migcnt = 255 then 255 else x.regs.migcnt + 1) ∧
    (m.phase = 3 → m.log = [] →
      ∃ u, exec .migrationResume s = .next u ∧ u.vest.migs = [] ∧ (u.getTile m.tile).frozen = false ∧ u.mem = s.mem)) ∧
  (∀ (s : State) (r : Nat), exec (.forwardingEntryRetire r) s = .next { s with fabric := { s.fabric with
    forwards := s.fabric.forwards.filter fun w => !(w.router == r && decide (w.used + 2 ^ 16 ≤ s.cycle / 2)) } }) ∧
  (∀ (s : State) (t c n b : Nat) (d : Reg) (rest : List Nat) (g : Group) (q : Snapshot),
    ((s.getTile t).uncop = b :: rest → t < Config.tiles → b < 512 → s.groupOfTile t = some g.id → s.group g.id = some g →
      Sound s (poolBase t + b * 4096) 4096 →
      (s.areaRoom g.id 4096 = true → ∃ u, exec (.backgroundBlockCopy t) s = .next u ∧ (u.getTile t).uncop = (b :: rest).filter (· != b) ∧ u.mem = s.mem) ∧
      (s.areaRoom g.id 4096 = false → g.running = some q → ∃ u h, exec (.backgroundBlockCopy t) s = .next u ∧ u.group g.id = some h ∧
        h.past = (q.sid, .failed) :: g.past ∧ h.running = none ∧ u.mem = s.mem)) ∧
    (s.vest.groups = [g] → g.running = some q → q.start = none → n ∈ s.groupNodes g.id → (s.nodeSnap g.id n).cut = true →
      let figures := mput q.figures n (s.nodeSnap g.id n).old
      let balanced := q.closed = false ∧ s.balanced g.id { q with figures := figures } = true
      let copied := ∀ t ∈ s.groupTiles g.id, (s.getTile t).uncop = []
      mget q.figures n ≠ some (s.nodeSnap g.id n).old →
      ∃ u h p, exec (.snapshotCountReport n) s = .next u ∧ u.group g.id = some h ∧ p ∈ h.snaps ∧ p.sid = q.sid ∧
        mget p.figures n = some (s.nodeSnap g.id n).old ∧ u.mem = s.mem ∧
        (q.closed = true ∨ balanced → p.closed = true ∧ (copied → p.state = .complete ∧ h.running = none) ∧ (¬ copied → p.state = .running)) ∧
        (¬ (q.closed = true ∨ balanced) → p.closed = false ∧ p.state = .running)) ∧
    (s.vest.groups = [g] → g.running = some q → q.start = none → q.closed = true → n ∈ s.groupNodes g.id → (s.nodeSnap g.id n).cut = true →
      (∀ t ∈ s.groupTiles g.id, (s.getTile t).uncop = []) →
      ∃ u h p, exec (.snapshotCountReport n) s = .next u ∧ u.group g.id = some h ∧ p ∈ h.snaps ∧ p.sid = q.sid ∧ p.state = .complete ∧
        h.running = none ∧ (∀ m ∈ s.groupNodes g.id, (u.nodeSnap g.id m).cut = false) ∧ u.mem = s.mem) ∧
    (s.group g.id = some g → g.snaps.find? (fun r => r.state == .complete) = some q →
      let nums := (g.drainFrom q).2
      (s.drainBad g.id q.sid nums = none → ∃ u h p, exec (.snapshotDrain g.id) s = .next u ∧ u.group g.id = some h ∧ p ∈ h.snaps ∧ p.sid = q.sid ∧
        p.state = .drained ∧ p.target = s.drainTarget g.id ∧ p.manifest = s.manifest q ∧
        p.manifest.take 16 = [0x53, 0x4E, 0x41, 0x50] ++ leBytes 2 1 ++ leBytes 2 q.jobs.length ++ leBytes 4 q.sid ++ leBytes 4 q.parent ∧
        p.full = nums.foldl (fun m n => memReplace m (n * 0x10000) (n * 0x10000 + 0x10000) (s.pageImage g.id q.sid n)) (g.drainFrom q).1 ∧
        (∀ r ∈ h.snaps, r.sid < q.sid → r.state ≠ .drained) ∧ u.mem = s.mem) ∧
      (∀ k, s.drainBad g.id q.sid nums = some k → exec (.snapshotDrain g.id) s = .next (s.consumeBad Config.vestibuleNode k []))) ∧
    (s.snapqNext = some (t, c, d, n) → s.groupOfTile t = some g.id → s.group g.id = some g →
      let m := if n = 0 then g.lastId else n
      Turns .snapqAnswer s t c (goesOn ((s.getCtx t c).wr d (BitVec.ofNat 64 (m % 2 ^ 32 * 2 ^ 32 + g.stateOf m))) 4))) ∧
  (∀ (s : State) (pid : Nat) (p : Partition) (c : Containment), s.vest.seals = [c] → c.pid = pid → c.cause ≠ 0 → s.part pid = some p →
    ∃ u, exec (.sealComplete pid) s = .next u ∧ u.vest.seals = [] ∧ u.vest.reports = s.vest.reports ++ [{ c with absorbed := p.absorbed }] ∧
      u.mem = s.mem) ∧
  ∀ (s : State) (r : Rollback) (g : Group) (q : Snapshot) (pid : Nat) (p : Partition), Rolls s r g q pid p →
    (r.step < 5 → ∃ u, exec .rollbackStep s = .next u ∧ u.vest.rolls = [{ r with step := r.step + 1 }] ∧
      (r.step = 1 → (∃ y, u.part pid = some y ∧ y.sealed_ = true) ∧ (∀ f ∈ u.fabric.vn0 ++ u.fabric.vn1, s.flitOf r.group f.flit.hdr = false) ∧
        ∀ d, d < 4 → ∀ l ∈ (u.getDie d).newel.home, ¬ (l.region ∈ s.groupRegions r.group ∧ l.pkg ∈ s.groupPkgs r.group)) ∧
      (r.step = 2 → ImagesFit s r.group q →
        (∀ i ∈ q.tiles, u.getTile i.tile = i.restored (s.getTile i.tile) s.cycle ∧
          (∀ c, let k := u.getCtx i.tile c
                let k0 := i.state.getCtx c
                k.g = k0.g ∧ k.v = k0.v ∧ k.k = k0.k ∧ k.pc = k0.pc ∧ k.run = k0.run ∧ k.sends = k0.sends) ∧
          (u.getTile i.tile).cnt = i.state.cnt ∧ (u.getTile i.tile).outq = i.state.outq ∧
          (∀ k, poolBase i.tile ≤ k → k < poolBase i.tile + Config.poolBytes → u.byteAt k = memGet i.bytes k) ∧
          ∀ k, poolBase i.tile / 16 ≤ k → k < (poolBase i.tile + Config.poolBytes) / 16 → (u.full k = true ↔ k ∉ i.empty)) ∧
        (r.remote = true → ∀ n ∈ s.pagesNow r.group, ∀ k, k / 0x10000 = n → u.byteAt k = memGet q.full k) ∧
        (r.remote = false → (∀ n ∈ s.pagesNow r.group, (∀ d, d < 4 → (s.getDie d).memory.preOf r.group q.sid n = none) →
          ∀ k, k / 0x10000 = n → u.byteAt k = s.byteAt k)) ∧
        (r.remote = false → ∀ x, (s.dies.toList.flatMap fun d => d.memory.pre.filter fun p => p.grp == r.group && p.sid == q.sid) = [x] →
          ∀ k, k / 0x10000 = x.granule → u.byteAt k = memGet x.bytes k)) ∧
      (r.step = 3 → q.logs = [] → u.tiles = s.tiles ∧ u.mem = s.mem) ∧
      (r.step = 3 → ∀ t l, q.logs = [(t, l)] → t < Config.tiles → (s.getTile t).frozen = false →
        (∀ f ws, l.flits = [f] → f.body = .words ws → f.fidx.toNat ≤ f.hdr.nflit.toNat → (∀ e ∈ (s.getTile t).land.slots, e.wants f = false) →
          SlotFor s t f.hdr.prio.toNat →
          ∃ e, (u.getTile t).land.slots = (s.getTile t).land.slots ++ [e] ∧ e.hdr = f.hdr ∧ e.present = [f.fidx] ∧ e.ctx = none ∧
            (ws.length = 8 → (e.words.drop (8 * f.fidx.toNat)).take 8 = ws) ∧ u.mem = s.mem) ∧
        (∀ f cid amount, l.flits = [f] → f.body = .incr cid amount → (s.getTile t).cnt.held = [] →
          (s.getTile t).cnt.actions.length < Config.actionRoom →
          let x := fired { (s.getTile t).cnt.get cid.toNat with value := ((s.getTile t).cnt.get cid.toNat).value + amount } cid.toNat f.hdr.ftag
          (u.getTile t).cnt.get cid.toNat = x.1 ∧ (u.getTile t).cnt.actions = (s.getTile t).cnt.actions ++ x.2 ∧ u.mem = s.mem) ∧
        ((∀ f ∈ l.flits, f.age ≠ 4095 ∧ ∃ cid amount, f.body = .incr cid amount) → Config.actionRoom ≤ (s.getTile t).cnt.actions.length →
          (u.getTile t).land.logged = (s.getTile t).land.logged ++ l.flits ∧ (u.getTile t).cnt = (s.getTile t).cnt ∧ u.mem = s.mem)) ∧
      (r.step = 4 → (∃ h, u.group r.group = some h ∧ h.rcount = g.rcount + 1 ∧ h.rsid = r.sid) ∧
        ((∀ t ∈ s.groupTiles r.group, SlotFor s t 0) → u.mem = s.mem) ∧
        ∀ t ∈ s.groupTiles r.group, t < Config.tiles → SlotFor s t 0 → ∃ e ∈ (u.getTile t).land.slots, e.hdr.cls = 0xFF ∧ e.hdr.kind = 0 ∧
          e.hdr.ftag = 0 ∧ e.hdr.stile = 0xFE0 ∧ e.words.take 2 = [BitVec.ofNat 64 r.sid, BitVec.ofNat 64 (g.rcount + 1)])) ∧
    (r.step = 5 → ∃ u y h, exec .rollbackStep s = .next u ∧ u.vest.rolls = [] ∧ u.part pid = some y ∧ y.sealed_ = false ∧ u.mem = s.mem ∧
      u.group r.group = some h ∧ h.colour = q.colour ∧
      u.vest.out = s.vest.out ++ g.replay.map fun i => { hdr := i.hdr, body := .words i.words })

/-! ### Work queues and their commands -/

/-- R320, R321, R323, R325, R327 to R331, R334, R336, R339, R94, R328: queues and the commands that send. A doorbell token or a tail shadow with
a newer number moves the tail and any other is counted in DROPS, but that of a pass and a doorbell which name the same tail the second changes
nothing; a reconcile pass waits for room in the matching store; an over-long packet halts its queue. A packet that completes writes its status,
VALUE and DONE into its first unit. CREATEQ and DESTROYQ make and end a queue; the packets at work on a queue made anew go on. LAUNCH allocates a
tag, which is its VALUE, and sends every message of its table with it; WAITTAG goes on once its launch is retired; SIGNAL sends one message;
ATTEST writes its signed report; INJECTERR sends the service message and ends when nothing of it is left. A sweep that finds a tag balanced and
idle twice with equal totals retires it. It rests on choices of the model too: log entries 7, 8, 9, 19, 20, 21, 37, 49, 51, 61, 79 and 84. -/
def Obligations.QueueCommands : Prop :=
  (∀ (s : State) (n : Nat) (q : Queue) (w : Word), s.queue n = some q →
    let seq := w.extractLsb' 32 32
    let idx := w.extractLsb' 0 32
    let newer := q.state ≠ 2 ∧ 1 ≤ (seq - q.seq).toNat ∧ (seq - q.seq).toNat < 2 ^ 31 ∧ (idx - q.head).toNat ≤ q.units
    let rung := fun (pass : Bool) (u : State) =>
      let met := seq = q.seq ∧ idx = q.tail ∧ (pass = true ∨ q.passed = true)
      (newer → u.queue n = some { q with seq := seq, tail := idx, passed := pass }) ∧
        (met → u.queue n = some { q with passed := q.passed && pass }) ∧
        (¬ newer → ¬ met → u.queue n = some { q with drops := Nat.min (q.drops + 1) (2 ^ 32 - 1) })
    HbmSound s →
    (s.vest.tokens.find? (fun t => t.1 == n) = some (n, w) → ∃ u, exec (.doorbell n) s = .next u ∧ rung false u) ∧
    (s.vest.tokens.find? (fun t => t.1 == n) = none → s.headOf n = .overlong →
      ∃ u, exec (.doorbell n) s = .next u ∧ u.queue n = some { q with state := 1, hstat := 7 }) ∧
    (w = BitVec.ofNat 64 (valueAt s (q.ctl + 8) 8) → s.hasToken = true → ∃ u, exec (.reconcilePass n) s = .next u ∧ rung true u) ∧
    (s.hasToken = false → ∃ u, exec (.reconcilePass n) s = .next u ∧ u.queue n = some q ∧ (true, n) ∈ u.vest.timers ∧ u.mem = s.mem)) ∧
  (∀ (s : State) (n status value : Nat) (q : Queue) (k : Packet), s.queue n = some q → q.pend = [k] → q.former = [] → k.done = false →
    k.owner = q.owner → HbmSound s → q.ctl + 32 ≤ Config.hbmBytes → Memory.wf s.mem = true →
    let u := s.complete n k.idx status value
    Finished s u n q k status value ∧ u.read64 (q.ctl + 16) = BitVec.ofNat 64 (q.head + BitVec.ofNat 32 k.units).toNat ∧
      u.read64 (q.ctl + 24) = BitVec.ofNat 64 (q.drops * 2 ^ 32 + q.hstat * 256 + q.state)) ∧
  (∀ (s : State) (n m : Nat) (q r : Queue) (b : List Byte), n ≠ m → natAt b 8 2 = m →
    let a := natAt b 16 8
    let owner := natAt b 2 1
    let shadow := BitVec.ofNat 64 (valueAt s (a + 8) 8)
    let new := ({ ctl := a, base := valueAt s (a + 32) 8, units := valueAt s (a + 40) 8, owner := owner, state := 0, hstat := 0, seq := 0, tail := 0,
                  head := 0, start := 0, drops := 0, passed := false, pend := [], gen := 0, former := [], launch := none } : Queue)
    let anew := ({ new with gen := r.gen + 1, former := r.atWork.filter fun p => !p.done } : Queue)
    (Starting s n q b .createq → owner = 0 ∨ (s.part owner).isSome = true → a % 64 = 0 → a + 64 ≤ Config.hbmBytes →
      valueAt s (a + 32) 8 % 64 = 0 → unitsOk (valueAt s (a + 40) 8) = true → Memory.wf s.mem = true →
      ∃ u, exec (.createq n) s = .next u ∧ Completed s u n q b 0 0 ∧ (s.queue m = none → u.queue m = some new) ∧
        (s.queue m = some r → u.queue m = some (if r.state = 1 then anew.ring true shadow else anew))) ∧
    (Starting s n q b .destroyq → s.queue m = some r → r.state ≠ 2 → r.tail = r.start →
      ∃ u, exec (.destroyq n) s = .next u ∧ Completed s u n q b 0 0 ∧ u.queue m = some { r with state := 2 })) ∧
  (∀ (s : State) (n pid : Nat) (t : Nat × Nat) (q : Queue) (b : List Byte) (p : Partition) (j : Job), natAt b 2 1 = pid → s.part pid = some p →
    p.job = some j → p.sealed_ = false →
    (Starting s n q b .launch → natAt b 3 1 % 2 = 0 → natAt b 8 8 = 0 → j.tags.length < Config.activeTags → s.msgFault p j j.msgs = none →
      ∃ (u : State) (xs : List Msg) (y : Partition) (k : Job) (tag : Nat), exec (.launch n) s = .next u ∧ Completed s u n q b 0 tag ∧
        u.vest.out = s.vest.out ++ xs ∧ xs.length = j.msgs.length ∧
        (∀ (i : Nat) (m : Msg), xs[i]? = some m → ∃ (r : MsgRec) (d : Nat × Nat), j.msgs[i]? = some r ∧ s.vestDest p r.taddr = some d ∧
          VestMessage s m r.cls tag d r.words) ∧
        u.part pid = some y ∧ y.job = some k ∧ k.tags.map (·.tag) = j.tags.map (·.tag) ++ [tag] ∧ 1 ≤ tag ∧ tag ≤ 4095 ∧ k.lastTag = tag) ∧
    (Starting s n q b .waittag →
      (∀ x, natAt b 8 2 ≠ 0 → j.tags.find? (fun g => g.tag == natAt b 8 2) = some x → x.serial ≠ 0 →
        ∃ u, exec (.waittag n) s = .next u ∧ AtWork u n q b x.serial ∧ u.mem = s.mem) ∧
      (∀ x, natAt b 8 2 = 0 → s.lastLaunch n = some (some x) → x.serial ≠ 0 →
        ∃ u, exec (.waittag n) s = .next u ∧ AtWork u n q b x.serial ∧ u.mem = s.mem) ∧
      ((natAt b 8 2 ≠ 0 ∧ ∀ x ∈ j.tags, x.tag ≠ natAt b 8 2) ∨ (natAt b 8 2 = 0 ∧ (s.lastLaunch n = none ∨ s.lastLaunch n = some none)) →
        ∃ u, exec (.waittag n) s = .next u ∧ Completed s u n q b 0 0)) ∧
    (∀ k, Working s n q k .waittag → s.serialLive k.mark = false → s.vest.rolls = [] →
      ∃ u, exec (.waittag n) s = .next u ∧ Finished s u n q k 0 0) ∧
    (Starting s n q b .signal → (natAt b 18 2 = 0 ∨ ∃ x ∈ j.tags, x.tag = natAt b 18 2) → natAt b 18 2 < 4096 →
      j.vestClassOk (BitVec.ofNat 8 (natAt b 16 1)) = true → s.vestDest p (BitVec.ofNat 64 (natAt b 8 8)) = some t →
      ∃ u m, exec (.signal n) s = .next u ∧ Completed s u n q b 0 0 ∧ u.vest.out = s.vest.out ++ [m] ∧
        VestMessage s m (BitVec.ofNat 8 (natAt b 16 1)) (natAt b 18 2) t (wordsOf (natAt b 17 1) (b.drop 24))) ∧
    (∀ c, Starting s n q b .injecterr → natAt b 8 2 < 4096 → s.vestDest p (BitVec.ofNat 64 (natAt b 10 2 * 4096 + natAt b 8 2)) = some t →
      j.service = some c →
      ∃ u m, exec (.injecterr n) s = .next u ∧ AtWork u n q b s.vest.mseq.toNat ∧ u.vest.out = s.vest.out ++ [m] ∧
        VestMessage s m (BitVec.ofNat 8 c) 0 t [BitVec.ofNat 64 (natAt b 12 1), BitVec.ofNat 64 (natAt b 16 8)]) ∧
    (∀ k st v, Working s n q k .injecterr → natAt k.bytes 2 1 = pid →
      s.injectEnd { n := n, idx := k.idx, owner := q.owner, bytes := k.bytes } k = some (st, v) →
      ∃ u, exec (.injecterr n) s = .next u ∧ Finished s u n q k st v) ∧
    (∀ x, j.tags = [x] → s.hasToken = true →
      let sum := fun (f : Nat × Nat → Nat) => (p.tiles.map fun i => f ((mget (s.getTile i).figs x.tag).getD (0, 0))).sum
      sum (·.1) + x.sent = sum (·.2) + x.recv → (∀ i ∈ p.tiles, (s.getTile i).busyFor (BitVec.ofNat 12 x.tag) = false) →
      ∃ u y k, exec (.launchSweep pid) s = .next u ∧ u.part pid = some y ∧ y.job = some k ∧ u.mem = s.mem ∧
        k.tags = if x.sweep = some (sum (·.1) + x.sent, sum (·.2) + x.recv) then []
          else [{ x with sweep := some (sum (·.1) + x.sent, sum (·.2) + x.recv) }])) ∧
  (∀ (s : State) (n a : Nat) (q : Queue) (b : List Byte), Starting s n q b .attest → natAt b 8 8 = a → q.owner = 0 →
    let r := s.attestation ((b.drop 16).take 32)
    let full := r ++ pssSign Config.identityModulus Config.identityExponent r ((List.range 64).map (Config.saltByte r s.cycle))
    let c := q.base + 64 * (q.start.toNat % q.units) + 56
    a + full.length ≤ Config.hbmBytes → Memory.wf s.mem = true →
    ∃ u, exec (.attest n) s = .next u ∧ Completed s u n q b 0 0 ∧
      ∀ i, i < full.length → ¬ (c ≤ a + i ∧ a + i < c + 8) → ¬ (q.ctl + 16 ≤ a + i ∧ a + i < q.ctl + 32) → u.byteAt (a + i) = full.getD i 0)

/-- R27, R28, R164, R325, R35, R298, R314 to R316, R318, R338, R99: the commands on partitions, jobs, groups and tiles that are let through.
PARTITION makes a partition, whose tiles get its id and ASID, or ends one; LOADJOB makes the image's job resident; UNLOADJOB seals it and, when
it is quiet, removes it; with KEEP the group is parked, and VALUE is the park id. SNAPSHOT starts one and ends with its identifier in VALUE and a
status that says how it ended; ROLLBACK starts one in its mode, or frees a park record; MIGRATETILE starts a migration; each ends with OK when
what it started has ended. LOADJOB and UNLOADJOB wait while a rollback is in progress. The commands refused complete with their status and leave
partitions and tiles as they were: LOADJOB, UNLOADJOB, PARTITION, SNAPSHOT and ROLLBACK DISCARD where nothing is there to act on, where the
partition, its ASID or a job is already there, where the image is bad, and where the job is sealed, has no snapshot area, or a snapshot runs. It
rests on choices of the model too: log entries 7, 14, 20, 22, 37, 38, 39, 40, 49, 59, 60, 61, 67, 83, 84 and 85. -/
def Obligations.JobCommands : Prop :=
  (∀ (s : State) (n pid i : Nat) (q : Queue) (b img : List Byte) (p : Partition) (j : Job) (v w z : State), natAt b 2 1 = pid → v = s.push n b →
    (Starting s n q b .partCreate →
      let tiles := (List.range Config.tiles).filter fun t => natAt b (128 + t / 8) 1 / 2 ^ (t % 8) % 2 == 1
      let shares := (List.range 4).map fun d => natAt b (32 + d) 1
      s.part pid = none → (∀ e ∈ s.vest.parts, e.2.asid ≠ BitVec.ofNat 16 (natAt b 8 2)) →
      (∀ e ∈ s.vest.peers, e.asid = BitVec.ofNat 16 (natAt b 8 2) → e.pid = pid) → (∀ t ∈ tiles, s.fabric.absent t = false ∧ s.partOf t = none) →
      s.cannotGrant (natAt b 16 8) shares = false → v.newPage pid none = some (i, w) →
      ∃ u y, exec (.partitionCreate n) s = .next u ∧ Completed s u n q b 0 0 ∧ u.part pid = some y ∧ y.tiles = tiles ∧ y.asid = BitVec.ofNat 16 (natAt b 8 2) ∧
        y.quota = natAt b 16 8 ∧ y.shares = shares ∧ y.root = i * 0x10000 ∧ y.job = none ∧ y.sealed_ = false ∧
        ∀ t ∈ tiles, (u.getTile t).regs.pid = BitVec.ofNat 6 pid ∧ (u.getTile t).regs.asid = y.asid) ∧
    (Starting s n q b .partDestroy → s.part pid = some p → p.job = none →
      ∃ u, exec (.partitionDestroy n) s = .next u ∧ Completed s u n q b 0 0 ∧ u.part pid = none ∧ (∀ g ∈ u.vest.pages, g.pid ≠ pid)) ∧
    (Starting s n q b .loadjob → s.vest.rolls = [] → s.part pid = some p → p.job = none → v.imageAt (natAt b 8 8) (natAt b 16 8) = some img →
      v.imgFault img p (v.pkgsOf p) = none →
      natAt b 24 8 ≠ 0 ∨ imgSnap img = false ∧ imgWindows img = [] → v.reserveArea pid (natAt b 24 8) = some (i, w) →
      w.loadImage pid img i (natAt b 24 8) (natAt b 32 8 / 2 ^ 49) = some z →
      ∃ u y k, exec (.loadjob n) s = .next u ∧ Completed s u n q b 0 0 ∧ u.vest.parts = z.vest.parts ∧ u.part pid = some y ∧ y.sealed_ = false ∧
        y.job = some k ∧ k.image = img ∧ k.name = (img.drop 8).take 16 ∧ k.digest = sha512 img ∧ k.tags = []) ∧
    (Starting s n q b .unloadjob → s.vest.rolls = [] → s.part pid = some p → p.job = some j → p.leaving = false →
      ∃ u y, exec (.unloadjob n) s = .next u ∧ AtWork u n q b 0 ∧ u.part pid = some y ∧ y.sealed_ = true ∧ y.leaving = true) ∧
    (∀ k, Working s n q k .unloadjob → natAt k.bytes 2 1 = pid → s.part pid = some p → p.job = some j → s.quiet pid p = true →
      ∃ u y, exec (.unloadjob n) s = .next u ∧ Finished s u n q k 0 0 ∧ u.part pid = some y ∧ y.job = none ∧ y.sealed_ = false ∧ y.used = 0)) ∧
  (∀ (s : State) (n pid : Nat) (q : Queue) (b : List Byte), natAt b 2 1 = pid →
    let v := s.push n b
    let refused := fun (i : Instr) (status : Nat) =>
      ∃ u, exec i s = .next u ∧ Completed s u n q b status 0 ∧ u.vest.parts = s.vest.parts ∧ u.tiles = s.tiles
    (Starting s n q b .loadjob → s.vest.rolls = [] → s.part pid = none → refused (.loadjob n) 0x44) ∧
    (Starting s n q b .unloadjob → s.vest.rolls = [] → s.part pid = none → refused (.unloadjob n) 3) ∧
    (Starting s n q b .loadjob ∨ Starting s n q b .unloadjob ∨ Starting s n q b .unloadKeep → s.vest.rolls ≠ [] → q.pend = [] →
      exec (.loadjob n) s = .next s ∧ exec (.unloadjob n) s = .next s ∧ exec (.unloadjobKeep n) s = .next s) ∧
    (Starting s n q b .partDestroy → s.part pid = none → refused (.partitionDestroy n) 0x44) ∧
    (Starting s n q b .rollDiscard → (∀ z ∈ s.vest.parks, z.id ≠ natAt b 14 2) → refused (.rollbackDiscard n) 0x36) ∧
    (Starting s n q b .partCreate → s.part pid = none → (∃ e ∈ s.vest.parts, e.2.asid = BitVec.ofNat 16 (natAt b 8 2)) →
      refused (.partitionCreate n) 0x43) ∧
    ∀ p, s.part pid = some p →
      (Starting s n q b .partCreate → refused (.partitionCreate n) 0x42) ∧
      (p.job = none →
        (Starting s n q b .unloadjob → s.vest.rolls = [] → refused (.unloadjob n) 3) ∧
        (Starting s n q b .loadjob → s.vest.rolls = [] → v.imageAt (natAt b 8 8) (natAt b 16 8) = none → refused (.loadjob n) 0x10) ∧
        (∀ img e, Starting s n q b .loadjob → s.vest.rolls = [] → v.imageAt (natAt b 8 8) (natAt b 16 8) = some img → v.imgFault img p (v.pkgsOf p) = some e →
          refused (.loadjob n) e)) ∧
      ∀ j, p.job = some j →
        (Starting s n q b .loadjob → s.vest.rolls = [] → refused (.loadjob n) 0x16) ∧ (Starting s n q b .partDestroy → refused (.partitionDestroy n) 0x16) ∧
        ∀ g, s.group j.group = some g →
          (Starting s n q b .snapshot → (p.sealed_ = true → refused (.snapshot n) 4) ∧
            (p.sealed_ = false → s.areaSize g.id = 0 → refused (.snapshot n) 0x17) ∧
            (p.sealed_ = false → s.areaSize g.id ≠ 0 → g.running.isSome = true → refused (.snapshot n) 0x30)) ∧
          (Starting s n q b .unloadKeep → s.vest.rolls = [] → g.latestDrained = none → refused (.unloadjobKeep n) 0x33)) ∧
  (∀ (s : State) (n pid i : Nat) (q : Queue) (b : List Byte) (p : Partition) (j : Job) (g : Group) (r : Snapshot), s.part pid = some p →
    p.job = some j → s.group j.group = some g →
    (Starting s n q b .unloadKeep → s.vest.rolls = [] → natAt b 2 1 = pid → g.latestDrained = some r → s.groupParts g.id = [(pid, p)] → p.leaving = false →
      ∃ u y, exec (.unloadjobKeep n) s = .next u ∧ AtWork u n q b 0 ∧ u.part pid = some y ∧ y.sealed_ = true ∧ y.leaving = true) ∧
    (∀ k, Working s n q k .unloadKeep → natAt k.bytes 2 1 = pid → g.latestDrained = some r → s.groupParts g.id = [(pid, p)] → s.quiet pid p = true →
      ∃ u y x, exec (.unloadjobKeep n) s = .next u ∧ Finished s u n q k 0 x.id ∧ u.part pid = some y ∧ y.job = none ∧ u.vest.parks = s.vest.parks ++ [x] ∧
        x.id = s.parkId ∧ x.snap = r ∧ x.group.lastId = g.lastId) ∧
    (Starting s n q b .snapshot → natAt b 2 1 = pid → p.sealed_ = false → 0 < s.areaSize g.id → g.running = none → s.migrating g.id = false →
      ∃ u h x, exec (.snapshot n) s = .next u ∧ AtWork u n q b (g.lastId + 1) ∧ u.group g.id = some h ∧ h.lastId = g.lastId + 1 ∧ h.colour = ~~~g.colour ∧
        h.running = some x ∧ x.sid = g.lastId + 1 ∧ x.colour = h.colour ∧ u.mem = s.mem) ∧
    (∀ k, Working s n q k .snapshot → natAt k.bytes 2 1 = pid → g.stateOf k.mark ≠ 1 →
      ∃ u, exec (.snapshot n) s = .next u ∧
        Finished s u n q k (if g.stateOf k.mark = 2 ∨ g.stateOf k.mark = 3 then 0 else if g.stateOf k.mark = 5 then 0x31 else 0x32) k.mark) ∧
    (∀ c, (c = (VCmd.rollLocal, false) ∨ c = (.rollRemote, true)) → Starting s n q b c.1 → natAt b 2 1 = pid → (∀ x ∈ s.vest.rolls, x.group ≠ g.id) →
      (∀ e ∈ s.groupParts g.id, e.2.leaving = false) →
      g.snap (natAt b 8 4) = some r → (c.2 = true → r.state = .drained) → (c.2 = false → (r.state = .complete ∨ r.state = .drained) ∧ s.localOk g.id g r = true) →
      ∃ u, exec (if c.2 then .rollbackRemote n else .rollbackLocal n) s = .next u ∧ AtWork u n q b 0 ∧ u.mem = s.mem ∧
        u.vest.rolls = s.vest.rolls ++ [{ group := g.id, sid := natAt b 8 4, remote := c.2, step := 1, asked := some (n, q.headIdx) }]) ∧
    (∀ k c a, (c = VCmd.rollLocal ∧ a = Instr.rollbackLocal n ∨ c = .rollRemote ∧ a = .rollbackRemote n ∨ c = .rollParked ∧ a = .rollbackParked n) →
      Working s n q k c → (∀ x ∈ s.vest.rolls, x.asked = some (n, k.idx) → 4 < x.step) → ∃ u, exec a s = .next u ∧ Finished s u n q k 0 0) ∧
    (Starting s n q b .migrate → s.pkgOf (natAt b 10 2) = s.pkg → i = natAt b 8 2 → (s.jobOf i).isSome = true →
      ∀ c, (if natAt b 12 2 = 0xFFFF then (s.freeSpares i).head? else (s.freeSpares i).find? (· == natAt b 12 2)) = some c →
      ∃ u, exec (.migratetile n) s = .next u ∧ AtWork u n q b 0 ∧ u.mem = s.mem ∧
        u.vest.migs = s.vest.migs ++ [{ tile := i, core := c, phase := 0, log := [], asked := some (n, q.headIdx) }]) ∧
    (∀ k, Working s n q k .migrate → (∀ m ∈ s.vest.migs, m.asked ≠ some (n, k.idx)) → ∃ u, exec (.migratetile n) s = .next u ∧ Finished s u n q k 0 0)) ∧
  ∀ (s : State) (n gid : Nat) (q : Queue) (b : List Byte) (x : Park) (w y : State), s.vest.parks.find? (fun z => z.id == natAt b 14 2) = some x →
    parkBadPkt b x.jobs.length = false →
    let ids := parkTargets b x.jobs.length
    let pids := List.zip (x.snap.jobs.map (·.1)) ids
    let jobs := List.zip ids x.jobs
    (Starting s n q b .rollDiscard → ∃ u, exec (.rollbackDiscard n) s = .next u ∧ Completed s u n q b 0 0 ∧ ∀ z ∈ u.vest.parks, z.id ≠ x.id) ∧
    (Starting s n q b .rollParked → natAt b 12 1 = 1 → natAt b 8 4 = x.snap.sid → (∀ t ∈ ids, ∀ p, s.part t = some p → p.job = none) → ids.Nodup →
      (∀ e ∈ List.zip ids x.shapes, s.shapeOk e.1 e.2 = true) → (s.push n b).loadAllParked jobs = .ok w → w.backParked pids x.snap.pages = some y →
      y.groupOfPart (ids.headD 0) = some gid →
      ∃ u, exec (.rollbackParked n) s = .next u ∧ AtWork u n q b 0 ∧ (∀ z ∈ u.vest.parks, z.id ≠ x.id) ∧
        { group := gid, sid := x.snap.sid, remote := true, step := 1, asked := some (n, q.headIdx) } ∈ u.vest.rolls)
end

