-- ==== Sys2Proof/Laws/Decode.lean ====
section
/-! SUPPORT. Packing and cutting instruction words: the fields of a packed word are the fields packed, and each field's code names
what it encodes. The round trip of each instruction (Laws/PerInstr.lean) rests on these. -/

namespace Sys2Proof

/-! ### Fields of joined bit vectors -/

theorem extract_above {n m : Nat} (s l : Nat) (x : BitVec n) (y : BitVec m) :
    (x ++ y).extractLsb' (m + s) l = x.extractLsb' s l := by
  ext i hi
  simp only [BitVec.getElem_extractLsb', BitVec.getLsbD_append]
  rw [if_neg (by omega)]; congr 1; omega

theorem extract_hi {n m : Nat} (x : BitVec n) (y : BitVec m) : (x ++ y).extractLsb' m n = x := by
  have h := extract_above 0 n x y
  simp only [Nat.add_zero] at h
  rw [h]; ext i hi; simp

theorem extract_lo {n m : Nat} (x : BitVec n) (y : BitVec m) : (x ++ y).extractLsb' 0 m = y := by
  ext i hi; simp [BitVec.getLsbD_append, hi]

/-- Two adjacent fields join to the field that holds both. -/
theorem join_fields {n : Nat} (x : BitVec n) (s l m : Nat) :
    x.extractLsb' (s + l) m ++ x.extractLsb' s l = x.extractLsb' s (m + l) := by
  ext i hi
  simp only [BitVec.getElem_append, BitVec.getElem_extractLsb']
  split
  · rfl
  · congr 1; omega

theorem extract_self {n : Nat} (x : BitVec n) : x.extractLsb' 0 n = x := by ext i hi; simp

theorem join8 (x : BitVec 8) : x.extractLsb' 4 4 ++ x.extractLsb' 0 4 = x :=
  (join_fields x 0 4 4).trans (extract_self x)

theorem join12 (x : BitVec 12) : x.extractLsb' 4 8 ++ x.extractLsb' 0 4 = x :=
  (join_fields x 0 4 8).trans (extract_self x)

theorem join5 (x : BitVec 5) : x.extractLsb' 4 1 ++ x.extractLsb' 0 4 = x :=
  (join_fields x 0 4 1).trans (extract_self x)

theorem join6 (x : BitVec 6) : x.extractLsb' 4 2 ++ x.extractLsb' 0 4 = x :=
  (join_fields x 0 4 2).trans (extract_self x)

theorem join16 (x : BitVec 16) : x.extractLsb' 8 8 ++ x.extractLsb' 4 4 ++ x.extractLsb' 0 4 = x := by
  ext i hi
  simp only [BitVec.getElem_append, BitVec.getElem_extractLsb']
  split
  · rw [BitVec.getLsbD_eq_getElem (by omega)]; congr 1; omega
  · split
    · rw [BitVec.getLsbD_eq_getElem (by omega)]; congr 1; omega
    · rw [BitVec.getLsbD_eq_getElem (by omega)]; congr 1; omega

theorem join20 (x : BitVec 20) :
    x.extractLsb' 16 4 ++ (x.extractLsb' 8 8 ++ x.extractLsb' 4 4 ++ x.extractLsb' 0 4) = x := by
  ext i hi
  simp only [BitVec.getElem_append, BitVec.getElem_extractLsb']
  repeat' split
  all_goals (rw [BitVec.getLsbD_eq_getElem (by omega)]; congr 1; omega)

theorem join24 (x : BitVec 24) :
    x.extractLsb' 20 4 ++ x.extractLsb' 16 4 ++ (x.extractLsb' 8 8 ++ x.extractLsb' 4 4 ++ x.extractLsb' 0 4) = x := by
  ext i hi
  simp only [BitVec.getElem_append, BitVec.getElem_extractLsb']
  repeat' split
  all_goals (rw [BitVec.getLsbD_eq_getElem (by omega)]; congr 1; omega)

theorem join32 (w : Word32) : w.extractLsb' 16 16 ++ w.extractLsb' 0 16 = w :=
  (join_fields w 0 16 16).trans (extract_self w)

/-! ### Packed words -/

theorem pack_ofWord (f : Fields) : Fields.ofWord f.pack = f := by
  cases f with
  | mk fn c b maj d a =>
    simp only [Fields.ofWord, Fields.pack, Fields.mk.injEq]
    refine ⟨?_, ?_, ?_, ?_, ?_, ?_⟩
    · exact (extract_above 20 8 _ a).trans <| (extract_above 16 8 _ d).trans <| (extract_above 10 8 _ maj).trans <|
        (extract_above 8 8 _ 3#2).trans <| (extract_above 4 8 _ b).trans <| extract_hi fn c
    · exact (extract_above 16 4 _ a).trans <| (extract_above 12 4 _ d).trans <| (extract_above 6 4 _ maj).trans <|
        (extract_above 4 4 _ 3#2).trans <| (extract_above 0 4 _ b).trans <| extract_lo fn c
    · exact (extract_above 12 4 _ a).trans <| (extract_above 8 4 _ d).trans <| (extract_above 2 4 _ maj).trans <|
        (extract_above 0 4 _ 3#2).trans <| extract_lo _ b
    · exact (extract_above 4 6 _ a).trans <| (extract_above 0 6 _ d).trans <| extract_lo _ maj
    · exact (extract_above 0 4 _ a).trans <| extract_lo _ d
    · exact extract_lo _ a

theorem pack_ofHalf (f : HalfFields) : HalfFields.ofHalf f.pack = f := by
  cases f with
  | mk op d a n =>
    simp only [HalfFields.ofHalf, HalfFields.pack, HalfFields.mk.injEq]
    refine ⟨?_, ?_, ?_, extract_lo _ n⟩
    · exact (extract_above 8 4 _ n).trans <| (extract_above 4 4 _ a).trans <| extract_hi op d
    · exact (extract_above 4 4 _ n).trans <| (extract_above 0 4 _ a).trans <| extract_lo op d
    · exact (extract_above 0 4 _ n).trans <| extract_lo _ a

/-- Bits [15:14] of a 32-bit word are 0b11 (R139). -/
theorem pack_long (f : Fields) : f.pack.extractLsb' 14 2 = 3 := by
  simp only [Fields.pack]
  exact (extract_above 10 2 _ f.a).trans <| (extract_above 6 2 _ f.d).trans <| (extract_above 0 2 _ f.maj).trans <| extract_lo _ 3#2

theorem pack_maj (f : Fields) : f.pack.extractLsb' 8 6 = f.maj := congrArg Fields.maj (pack_ofWord f)

theorem halfOf_bytes (h : Half) : halfOf (h.extractLsb' 0 8) (h.extractLsb' 8 8) = h :=
  (join_fields h 0 8 8).trans (extract_self h)

theorem extract_extract {n : Nat} (x : BitVec n) (s l s' l' : Nat) (h : s' + l' ≤ l) :
    (x.extractLsb' s l).extractLsb' s' l' = x.extractLsb' (s + s') l' := by
  ext i hi
  simp only [BitVec.getElem_extractLsb', BitVec.getLsbD_extractLsb']
  rw [show (decide (s' + i < l)) = true from decide_eq_true (by omega)]
  simp [Nat.add_assoc]

/-! ### Decoding a packed word -/

/-- The bytes of a halfword, the lower first (R9). -/
def halfBytes (h : Half) : List Byte := [h.extractLsb' 0 8, h.extractLsb' 8 8]

/-- A 32-bit instruction decodes from the bytes of its packed fields, whatever follows. -/
theorem decode_long {f : Fields} {i : Instr} (rest : List Byte) (hm : majorAssigned f.maj = true)
    (hd : decodeMajor f = some i) (hw : i.wellFormed = true) :
    decode (halfBytes (f.pack.extractLsb' 0 16) ++ halfBytes (f.pack.extractLsb' 16 16) ++ rest) = .ok (i, 4) := by
  have h1 : (f.pack.extractLsb' 0 16).extractLsb' 14 2 = 3#2 :=
    (extract_extract f.pack 0 16 14 2 (by omega)).trans (pack_long f)
  have h2 : (f.pack.extractLsb' 0 16).extractLsb' 8 6 = f.maj :=
    (extract_extract f.pack 0 16 8 6 (by omega)).trans (pack_maj f)
  have h3 : decode32 f.pack = some i := by simp only [decode32, pack_ofWord, hd, checked, hw, if_true]
  simp only [halfBytes, decode, List.cons_append, List.nil_append, halfOf_bytes, isLong, h1, h2, hm, join32, h3]
  rfl

/-- A 16-bit instruction decodes from the bytes of its packed nibbles, whatever follows. -/
theorem decode_short {f : HalfFields} {i : Instr} (rest : List Byte) (ho : (f.op.extractLsb' 2 2 == 3) = false)
    (hd : decodeNibbles f = some i) (hw : i.wellFormed = true) :
    decode (halfBytes f.pack ++ rest) = .ok (i, 2) := by
  have h1 : f.pack.extractLsb' 14 2 = f.op.extractLsb' 2 2 := by
    simp only [HalfFields.pack]
    exact (extract_above 10 2 _ f.n).trans <| (extract_above 6 2 _ f.a).trans <| extract_above 2 2 f.op f.d
  have h3 : decode16 f.pack = some i := by simp only [decode16, pack_ofHalf, hd, checked, hw, if_true]
  have h4 : isLong f.pack = false := by
    unfold isLong
    rw [h1]; exact ho
  simp only [halfBytes, decode, List.cons_append, List.nil_append, halfOf_bytes, h4, h3]
  rfl

/-! ### The joined fields of FN -/

theorem fop_prec (p : BitVec 1) (r : BitVec 2) (o : BitVec 5) : (p ++ r ++ o).extractLsb' 7 1 = p :=
  (extract_above 2 1 _ o).trans (extract_hi p r)
theorem fop_rnd (p : BitVec 1) (r : BitVec 2) (o : BitVec 5) : (p ++ r ++ o).extractLsb' 5 2 = r :=
  (extract_above 0 2 _ o).trans (extract_lo p r)
theorem amo_order (r : BitVec 2) (z : BitVec 1) (o : BitVec 5) : (r ++ z ++ o).extractLsb' 6 2 = r :=
  (extract_above 1 2 _ o).trans (extract_hi r z)
theorem amo_size (r : BitVec 2) (z : BitVec 1) (o : BitVec 5) : (r ++ z ++ o).extractLsb' 5 1 = z :=
  (extract_above 0 1 _ o).trans (extract_lo r z)
theorem vcvt_hi (h s : BitVec 1) (r : BitVec 2) (t : BitVec 4) : (h ++ s ++ r ++ t).extractLsb' 7 1 = h :=
  (extract_above 3 1 _ t).trans <| (extract_above 1 1 _ r).trans (extract_hi h s)
theorem vcvt_sat (h s : BitVec 1) (r : BitVec 2) (t : BitVec 4) : (h ++ s ++ r ++ t).extractLsb' 6 1 = s :=
  (extract_above 2 1 _ t).trans <| (extract_above 0 1 _ r).trans (extract_lo h s)
theorem vcvt_rnd (h s : BitVec 1) (r : BitVec 2) (t : BitVec 4) : (h ++ s ++ r ++ t).extractLsb' 4 2 = r :=
  (extract_above 0 2 _ t).trans (extract_lo _ r)
theorem shi_kind (k : BitVec 2) (z n : BitVec 1) : (k ++ z ++ n).extractLsb' 2 2 = k :=
  (extract_above 1 2 _ n).trans (extract_hi k z)
theorem shi_zero (k : BitVec 2) (z n : BitVec 1) : (k ++ z ++ n).extractLsb' 1 1 = z :=
  (extract_above 0 1 _ n).trans (extract_lo k z)

/-! ### Codes -/

@[simp] theorem ElemType.ofCode_code (t : ElemType) : ElemType.ofCode t.code = some t := by cases t <;> rfl
@[simp] theorem Prec.ofBit_bit (p : Prec) : Prec.ofBit p.bit = p := by cases p <;> rfl
@[simp] theorem Rnd.ofCode_code (r : Rnd) : Rnd.ofCode r.code = some r := by cases r <;> rfl
@[simp] theorem VRnd.ofCode_code (r : VRnd) : VRnd.ofCode r.code = some r := by cases r <;> rfl
@[simp] theorem Order.ofCode_code (o : Order) : Order.ofCode o.code = o := by cases o <;> rfl
@[simp] theorem AmoSize.ofBit_bit (z : AmoSize) : AmoSize.ofBit z.bit = z := by cases z <;> rfl
@[simp] theorem Scope.ofCode_code (c : Scope) : Scope.ofCode c.code = some c := by cases c <;> rfl
@[simp] theorem StateReg.ofIndex_index (e : StateReg) : StateReg.ofIndex e.index = some e := by cases e <;> rfl
@[simp] theorem ofBool_bit (z : Bool) : (BitVec.ofBool z == 1) = z := by cases z <;> rfl

theorem kregOf_pad (k : KReg) : kregOf (0#1 ++ k) = some k := by
  simp only [kregOf, extract_hi, extract_lo]; rfl

end Sys2Proof
end

