-- ==== Sys2Proof/Laws/State.lean ====
section
/-! SUPPORT. What each update of the state changes and keeps: one lemma per field and update, and the lookups after an update. -/

namespace Sys2Proof.Machine

/-! ### Sparse data -/

@[simp] theorem mget_mput_same {α : Type} (m : Map α) (k : Nat) (v : α) : mget (mput m k v) k = some v := by
  induction m with
  | nil => simp [mput, mget]
  | cons e m ih =>
    simp only [mput]
    split
    · simp [mget]
    · split
      · simp [mget]
      · simp only [mget, if_neg ‹¬ k = e.1›, if_neg ‹¬ k < e.1›, ih]

@[simp] theorem mget_mput_ne {α : Type} (m : Map α) (k j : Nat) (v : α) (h : j ≠ k) : mget (mput m k v) j = mget m j := by
  induction m with
  | nil => simp only [mput, mget, if_neg h]; split <;> rfl
  | cons e m ih =>
    simp only [mput]
    split
    · subst_vars; simp [mget, h]
    · split
      · simp only [mget, if_neg h]
        repeat' split
        all_goals first | rfl | omega
      · simp only [mget, ih]

/-! ### Fields -/

@[simp] theorem State.setTile_tile (s : State) (t : Nat) (x : Tile) : (s.setTile t x).tile = s.tile := rfl
@[simp] theorem State.setTile_ctx (s : State) (t : Nat) (x : Tile) : (s.setTile t x).ctx = s.ctx := rfl
@[simp] theorem State.setTile_cycle (s : State) (t : Nat) (x : Tile) : (s.setTile t x).cycle = s.cycle := rfl
@[simp] theorem State.setTile_evPos (s : State) (t : Nat) (x : Tile) : (s.setTile t x).evPos = s.evPos := rfl
@[simp] theorem State.setTile_issued (s : State) (t : Nat) (x : Tile) : (s.setTile t x).issued = s.issued := rfl
@[simp] theorem State.setTile_agenda (s : State) (t : Nat) (x : Tile) : (s.setTile t x).agenda = s.agenda := rfl
@[simp] theorem State.setTile_pkg (s : State) (t : Nat) (x : Tile) : (s.setTile t x).pkg = s.pkg := rfl
@[simp] theorem State.setTile_time0 (s : State) (t : Nat) (x : Tile) : (s.setTile t x).time0 = s.time0 := rfl
@[simp] theorem State.setTile_power (s : State) (t : Nat) (x : Tile) : (s.setTile t x).power = s.power := rfl
@[simp] theorem State.setTile_mem (s : State) (t : Nat) (x : Tile) : (s.setTile t x).mem = s.mem := rfl
@[simp] theorem State.setTile_empty (s : State) (t : Nat) (x : Tile) : (s.setTile t x).empty = s.empty := rfl
@[simp] theorem State.setTile_bad (s : State) (t : Nat) (x : Tile) : (s.setTile t x).bad = s.bad := rfl
@[simp] theorem State.setTile_dies (s : State) (t : Nat) (x : Tile) : (s.setTile t x).dies = s.dies := rfl
@[simp] theorem State.setTile_fabric (s : State) (t : Nat) (x : Tile) : (s.setTile t x).fabric = s.fabric := rfl
@[simp] theorem State.setTile_ports (s : State) (t : Nat) (x : Tile) : (s.setTile t x).ports = s.ports := rfl
@[simp] theorem State.setTile_vest (s : State) (t : Nat) (x : Tile) : (s.setTile t x).vest = s.vest := rfl
@[simp] theorem State.setTile_host (s : State) (t : Nat) (x : Tile) : (s.setTile t x).host = s.host := rfl

@[simp] theorem State.modTile_tile (s : State) (t : Nat) (f : Tile → Tile) : (s.modTile t f).tile = s.tile := rfl
@[simp] theorem State.modTile_ctx (s : State) (t : Nat) (f : Tile → Tile) : (s.modTile t f).ctx = s.ctx := rfl
@[simp] theorem State.modTile_cycle (s : State) (t : Nat) (f : Tile → Tile) : (s.modTile t f).cycle = s.cycle := rfl
@[simp] theorem State.modTile_evPos (s : State) (t : Nat) (f : Tile → Tile) : (s.modTile t f).evPos = s.evPos := rfl
@[simp] theorem State.modTile_issued (s : State) (t : Nat) (f : Tile → Tile) : (s.modTile t f).issued = s.issued := rfl
@[simp] theorem State.modTile_agenda (s : State) (t : Nat) (f : Tile → Tile) : (s.modTile t f).agenda = s.agenda := rfl
@[simp] theorem State.modTile_pkg (s : State) (t : Nat) (f : Tile → Tile) : (s.modTile t f).pkg = s.pkg := rfl
@[simp] theorem State.modTile_time0 (s : State) (t : Nat) (f : Tile → Tile) : (s.modTile t f).time0 = s.time0 := rfl
@[simp] theorem State.modTile_power (s : State) (t : Nat) (f : Tile → Tile) : (s.modTile t f).power = s.power := rfl
@[simp] theorem State.modTile_mem (s : State) (t : Nat) (f : Tile → Tile) : (s.modTile t f).mem = s.mem := rfl
@[simp] theorem State.modTile_empty (s : State) (t : Nat) (f : Tile → Tile) : (s.modTile t f).empty = s.empty := rfl
@[simp] theorem State.modTile_bad (s : State) (t : Nat) (f : Tile → Tile) : (s.modTile t f).bad = s.bad := rfl
@[simp] theorem State.modTile_dies (s : State) (t : Nat) (f : Tile → Tile) : (s.modTile t f).dies = s.dies := rfl
@[simp] theorem State.modTile_fabric (s : State) (t : Nat) (f : Tile → Tile) : (s.modTile t f).fabric = s.fabric := rfl
@[simp] theorem State.modTile_ports (s : State) (t : Nat) (f : Tile → Tile) : (s.modTile t f).ports = s.ports := rfl
@[simp] theorem State.modTile_vest (s : State) (t : Nat) (f : Tile → Tile) : (s.modTile t f).vest = s.vest := rfl
@[simp] theorem State.modTile_host (s : State) (t : Nat) (f : Tile → Tile) : (s.modTile t f).host = s.host := rfl

@[simp] theorem State.setCtx_tile (s : State) (t c : Nat) (k : Ctx) : (s.setCtx t c k).tile = s.tile := rfl
@[simp] theorem State.setCtx_ctx (s : State) (t c : Nat) (k : Ctx) : (s.setCtx t c k).ctx = s.ctx := rfl
@[simp] theorem State.setCtx_cycle (s : State) (t c : Nat) (k : Ctx) : (s.setCtx t c k).cycle = s.cycle := rfl
@[simp] theorem State.setCtx_evPos (s : State) (t c : Nat) (k : Ctx) : (s.setCtx t c k).evPos = s.evPos := rfl
@[simp] theorem State.setCtx_issued (s : State) (t c : Nat) (k : Ctx) : (s.setCtx t c k).issued = s.issued := rfl
@[simp] theorem State.setCtx_agenda (s : State) (t c : Nat) (k : Ctx) : (s.setCtx t c k).agenda = s.agenda := rfl
@[simp] theorem State.setCtx_pkg (s : State) (t c : Nat) (k : Ctx) : (s.setCtx t c k).pkg = s.pkg := rfl
@[simp] theorem State.setCtx_time0 (s : State) (t c : Nat) (k : Ctx) : (s.setCtx t c k).time0 = s.time0 := rfl
@[simp] theorem State.setCtx_power (s : State) (t c : Nat) (k : Ctx) : (s.setCtx t c k).power = s.power := rfl
@[simp] theorem State.setCtx_mem (s : State) (t c : Nat) (k : Ctx) : (s.setCtx t c k).mem = s.mem := rfl
@[simp] theorem State.setCtx_empty (s : State) (t c : Nat) (k : Ctx) : (s.setCtx t c k).empty = s.empty := rfl
@[simp] theorem State.setCtx_bad (s : State) (t c : Nat) (k : Ctx) : (s.setCtx t c k).bad = s.bad := rfl
@[simp] theorem State.setCtx_dies (s : State) (t c : Nat) (k : Ctx) : (s.setCtx t c k).dies = s.dies := rfl
@[simp] theorem State.setCtx_fabric (s : State) (t c : Nat) (k : Ctx) : (s.setCtx t c k).fabric = s.fabric := rfl
@[simp] theorem State.setCtx_ports (s : State) (t c : Nat) (k : Ctx) : (s.setCtx t c k).ports = s.ports := rfl
@[simp] theorem State.setCtx_vest (s : State) (t c : Nat) (k : Ctx) : (s.setCtx t c k).vest = s.vest := rfl
@[simp] theorem State.setCtx_host (s : State) (t c : Nat) (k : Ctx) : (s.setCtx t c k).host = s.host := rfl

@[simp] theorem State.modCtx_tile (s : State) (t c : Nat) (f : Ctx → Ctx) : (s.modCtx t c f).tile = s.tile := rfl
@[simp] theorem State.modCtx_ctx (s : State) (t c : Nat) (f : Ctx → Ctx) : (s.modCtx t c f).ctx = s.ctx := rfl
@[simp] theorem State.modCtx_cycle (s : State) (t c : Nat) (f : Ctx → Ctx) : (s.modCtx t c f).cycle = s.cycle := rfl
@[simp] theorem State.modCtx_evPos (s : State) (t c : Nat) (f : Ctx → Ctx) : (s.modCtx t c f).evPos = s.evPos := rfl
@[simp] theorem State.modCtx_issued (s : State) (t c : Nat) (f : Ctx → Ctx) : (s.modCtx t c f).issued = s.issued := rfl
@[simp] theorem State.modCtx_agenda (s : State) (t c : Nat) (f : Ctx → Ctx) : (s.modCtx t c f).agenda = s.agenda := rfl
@[simp] theorem State.modCtx_pkg (s : State) (t c : Nat) (f : Ctx → Ctx) : (s.modCtx t c f).pkg = s.pkg := rfl
@[simp] theorem State.modCtx_time0 (s : State) (t c : Nat) (f : Ctx → Ctx) : (s.modCtx t c f).time0 = s.time0 := rfl
@[simp] theorem State.modCtx_power (s : State) (t c : Nat) (f : Ctx → Ctx) : (s.modCtx t c f).power = s.power := rfl
@[simp] theorem State.modCtx_mem (s : State) (t c : Nat) (f : Ctx → Ctx) : (s.modCtx t c f).mem = s.mem := rfl
@[simp] theorem State.modCtx_empty (s : State) (t c : Nat) (f : Ctx → Ctx) : (s.modCtx t c f).empty = s.empty := rfl
@[simp] theorem State.modCtx_bad (s : State) (t c : Nat) (f : Ctx → Ctx) : (s.modCtx t c f).bad = s.bad := rfl
@[simp] theorem State.modCtx_dies (s : State) (t c : Nat) (f : Ctx → Ctx) : (s.modCtx t c f).dies = s.dies := rfl
@[simp] theorem State.modCtx_fabric (s : State) (t c : Nat) (f : Ctx → Ctx) : (s.modCtx t c f).fabric = s.fabric := rfl
@[simp] theorem State.modCtx_ports (s : State) (t c : Nat) (f : Ctx → Ctx) : (s.modCtx t c f).ports = s.ports := rfl
@[simp] theorem State.modCtx_vest (s : State) (t c : Nat) (f : Ctx → Ctx) : (s.modCtx t c f).vest = s.vest := rfl
@[simp] theorem State.modCtx_host (s : State) (t c : Nat) (f : Ctx → Ctx) : (s.modCtx t c f).host = s.host := rfl

@[simp] theorem State.modCur_tile (s : State) (f : Ctx → Ctx) : (s.modCur f).tile = s.tile := rfl
@[simp] theorem State.modCur_ctx (s : State) (f : Ctx → Ctx) : (s.modCur f).ctx = s.ctx := rfl
@[simp] theorem State.modCur_cycle (s : State) (f : Ctx → Ctx) : (s.modCur f).cycle = s.cycle := rfl
@[simp] theorem State.modCur_evPos (s : State) (f : Ctx → Ctx) : (s.modCur f).evPos = s.evPos := rfl
@[simp] theorem State.modCur_issued (s : State) (f : Ctx → Ctx) : (s.modCur f).issued = s.issued := rfl
@[simp] theorem State.modCur_agenda (s : State) (f : Ctx → Ctx) : (s.modCur f).agenda = s.agenda := rfl
@[simp] theorem State.modCur_pkg (s : State) (f : Ctx → Ctx) : (s.modCur f).pkg = s.pkg := rfl
@[simp] theorem State.modCur_time0 (s : State) (f : Ctx → Ctx) : (s.modCur f).time0 = s.time0 := rfl
@[simp] theorem State.modCur_power (s : State) (f : Ctx → Ctx) : (s.modCur f).power = s.power := rfl
@[simp] theorem State.modCur_mem (s : State) (f : Ctx → Ctx) : (s.modCur f).mem = s.mem := rfl
@[simp] theorem State.modCur_empty (s : State) (f : Ctx → Ctx) : (s.modCur f).empty = s.empty := rfl
@[simp] theorem State.modCur_bad (s : State) (f : Ctx → Ctx) : (s.modCur f).bad = s.bad := rfl
@[simp] theorem State.modCur_dies (s : State) (f : Ctx → Ctx) : (s.modCur f).dies = s.dies := rfl
@[simp] theorem State.modCur_fabric (s : State) (f : Ctx → Ctx) : (s.modCur f).fabric = s.fabric := rfl
@[simp] theorem State.modCur_ports (s : State) (f : Ctx → Ctx) : (s.modCur f).ports = s.ports := rfl
@[simp] theorem State.modCur_vest (s : State) (f : Ctx → Ctx) : (s.modCur f).vest = s.vest := rfl
@[simp] theorem State.modCur_host (s : State) (f : Ctx → Ctx) : (s.modCur f).host = s.host := rfl

@[simp] theorem State.modMe_tile (s : State) (f : Tile → Tile) : (s.modMe f).tile = s.tile := rfl
@[simp] theorem State.modMe_ctx (s : State) (f : Tile → Tile) : (s.modMe f).ctx = s.ctx := rfl
@[simp] theorem State.modMe_cycle (s : State) (f : Tile → Tile) : (s.modMe f).cycle = s.cycle := rfl
@[simp] theorem State.modMe_evPos (s : State) (f : Tile → Tile) : (s.modMe f).evPos = s.evPos := rfl
@[simp] theorem State.modMe_issued (s : State) (f : Tile → Tile) : (s.modMe f).issued = s.issued := rfl
@[simp] theorem State.modMe_agenda (s : State) (f : Tile → Tile) : (s.modMe f).agenda = s.agenda := rfl
@[simp] theorem State.modMe_pkg (s : State) (f : Tile → Tile) : (s.modMe f).pkg = s.pkg := rfl
@[simp] theorem State.modMe_time0 (s : State) (f : Tile → Tile) : (s.modMe f).time0 = s.time0 := rfl
@[simp] theorem State.modMe_power (s : State) (f : Tile → Tile) : (s.modMe f).power = s.power := rfl
@[simp] theorem State.modMe_mem (s : State) (f : Tile → Tile) : (s.modMe f).mem = s.mem := rfl
@[simp] theorem State.modMe_empty (s : State) (f : Tile → Tile) : (s.modMe f).empty = s.empty := rfl
@[simp] theorem State.modMe_bad (s : State) (f : Tile → Tile) : (s.modMe f).bad = s.bad := rfl
@[simp] theorem State.modMe_dies (s : State) (f : Tile → Tile) : (s.modMe f).dies = s.dies := rfl
@[simp] theorem State.modMe_fabric (s : State) (f : Tile → Tile) : (s.modMe f).fabric = s.fabric := rfl
@[simp] theorem State.modMe_ports (s : State) (f : Tile → Tile) : (s.modMe f).ports = s.ports := rfl
@[simp] theorem State.modMe_vest (s : State) (f : Tile → Tile) : (s.modMe f).vest = s.vest := rfl
@[simp] theorem State.modMe_host (s : State) (f : Tile → Tile) : (s.modMe f).host = s.host := rfl

@[simp] theorem State.modDie_tile (s : State) (d : Nat) (f : Die → Die) : (s.modDie d f).tile = s.tile := rfl
@[simp] theorem State.modDie_ctx (s : State) (d : Nat) (f : Die → Die) : (s.modDie d f).ctx = s.ctx := rfl
@[simp] theorem State.modDie_cycle (s : State) (d : Nat) (f : Die → Die) : (s.modDie d f).cycle = s.cycle := rfl
@[simp] theorem State.modDie_evPos (s : State) (d : Nat) (f : Die → Die) : (s.modDie d f).evPos = s.evPos := rfl
@[simp] theorem State.modDie_issued (s : State) (d : Nat) (f : Die → Die) : (s.modDie d f).issued = s.issued := rfl
@[simp] theorem State.modDie_agenda (s : State) (d : Nat) (f : Die → Die) : (s.modDie d f).agenda = s.agenda := rfl
@[simp] theorem State.modDie_pkg (s : State) (d : Nat) (f : Die → Die) : (s.modDie d f).pkg = s.pkg := rfl
@[simp] theorem State.modDie_time0 (s : State) (d : Nat) (f : Die → Die) : (s.modDie d f).time0 = s.time0 := rfl
@[simp] theorem State.modDie_power (s : State) (d : Nat) (f : Die → Die) : (s.modDie d f).power = s.power := rfl
@[simp] theorem State.modDie_mem (s : State) (d : Nat) (f : Die → Die) : (s.modDie d f).mem = s.mem := rfl
@[simp] theorem State.modDie_empty (s : State) (d : Nat) (f : Die → Die) : (s.modDie d f).empty = s.empty := rfl
@[simp] theorem State.modDie_bad (s : State) (d : Nat) (f : Die → Die) : (s.modDie d f).bad = s.bad := rfl
@[simp] theorem State.modDie_tiles (s : State) (d : Nat) (f : Die → Die) : (s.modDie d f).tiles = s.tiles := rfl
@[simp] theorem State.modDie_fabric (s : State) (d : Nat) (f : Die → Die) : (s.modDie d f).fabric = s.fabric := rfl
@[simp] theorem State.modDie_ports (s : State) (d : Nat) (f : Die → Die) : (s.modDie d f).ports = s.ports := rfl
@[simp] theorem State.modDie_vest (s : State) (d : Nat) (f : Die → Die) : (s.modDie d f).vest = s.vest := rfl
@[simp] theorem State.modDie_host (s : State) (d : Nat) (f : Die → Die) : (s.modDie d f).host = s.host := rfl

@[simp] theorem State.modNewel_tile (s : State) (d : Nat) (f : Newel → Newel) : (s.modNewel d f).tile = s.tile := rfl
@[simp] theorem State.modNewel_ctx (s : State) (d : Nat) (f : Newel → Newel) : (s.modNewel d f).ctx = s.ctx := rfl
@[simp] theorem State.modNewel_cycle (s : State) (d : Nat) (f : Newel → Newel) : (s.modNewel d f).cycle = s.cycle := rfl
@[simp] theorem State.modNewel_evPos (s : State) (d : Nat) (f : Newel → Newel) : (s.modNewel d f).evPos = s.evPos := rfl
@[simp] theorem State.modNewel_issued (s : State) (d : Nat) (f : Newel → Newel) : (s.modNewel d f).issued = s.issued := rfl
@[simp] theorem State.modNewel_agenda (s : State) (d : Nat) (f : Newel → Newel) : (s.modNewel d f).agenda = s.agenda := rfl
@[simp] theorem State.modNewel_pkg (s : State) (d : Nat) (f : Newel → Newel) : (s.modNewel d f).pkg = s.pkg := rfl
@[simp] theorem State.modNewel_time0 (s : State) (d : Nat) (f : Newel → Newel) : (s.modNewel d f).time0 = s.time0 := rfl
@[simp] theorem State.modNewel_power (s : State) (d : Nat) (f : Newel → Newel) : (s.modNewel d f).power = s.power := rfl
@[simp] theorem State.modNewel_mem (s : State) (d : Nat) (f : Newel → Newel) : (s.modNewel d f).mem = s.mem := rfl
@[simp] theorem State.modNewel_empty (s : State) (d : Nat) (f : Newel → Newel) : (s.modNewel d f).empty = s.empty := rfl
@[simp] theorem State.modNewel_bad (s : State) (d : Nat) (f : Newel → Newel) : (s.modNewel d f).bad = s.bad := rfl
@[simp] theorem State.modNewel_tiles (s : State) (d : Nat) (f : Newel → Newel) : (s.modNewel d f).tiles = s.tiles := rfl
@[simp] theorem State.modNewel_fabric (s : State) (d : Nat) (f : Newel → Newel) : (s.modNewel d f).fabric = s.fabric := rfl
@[simp] theorem State.modNewel_ports (s : State) (d : Nat) (f : Newel → Newel) : (s.modNewel d f).ports = s.ports := rfl
@[simp] theorem State.modNewel_vest (s : State) (d : Nat) (f : Newel → Newel) : (s.modNewel d f).vest = s.vest := rfl
@[simp] theorem State.modNewel_host (s : State) (d : Nat) (f : Newel → Newel) : (s.modNewel d f).host = s.host := rfl

@[simp] theorem State.modMemory_tile (s : State) (d : Nat) (f : MemNode → MemNode) : (s.modMemory d f).tile = s.tile := rfl
@[simp] theorem State.modMemory_ctx (s : State) (d : Nat) (f : MemNode → MemNode) : (s.modMemory d f).ctx = s.ctx := rfl
@[simp] theorem State.modMemory_cycle (s : State) (d : Nat) (f : MemNode → MemNode) : (s.modMemory d f).cycle = s.cycle := rfl
@[simp] theorem State.modMemory_evPos (s : State) (d : Nat) (f : MemNode → MemNode) : (s.modMemory d f).evPos = s.evPos := rfl
@[simp] theorem State.modMemory_issued (s : State) (d : Nat) (f : MemNode → MemNode) : (s.modMemory d f).issued = s.issued := rfl
@[simp] theorem State.modMemory_agenda (s : State) (d : Nat) (f : MemNode → MemNode) : (s.modMemory d f).agenda = s.agenda := rfl
@[simp] theorem State.modMemory_pkg (s : State) (d : Nat) (f : MemNode → MemNode) : (s.modMemory d f).pkg = s.pkg := rfl
@[simp] theorem State.modMemory_time0 (s : State) (d : Nat) (f : MemNode → MemNode) : (s.modMemory d f).time0 = s.time0 := rfl
@[simp] theorem State.modMemory_power (s : State) (d : Nat) (f : MemNode → MemNode) : (s.modMemory d f).power = s.power := rfl
@[simp] theorem State.modMemory_mem (s : State) (d : Nat) (f : MemNode → MemNode) : (s.modMemory d f).mem = s.mem := rfl
@[simp] theorem State.modMemory_empty (s : State) (d : Nat) (f : MemNode → MemNode) : (s.modMemory d f).empty = s.empty := rfl
@[simp] theorem State.modMemory_bad (s : State) (d : Nat) (f : MemNode → MemNode) : (s.modMemory d f).bad = s.bad := rfl
@[simp] theorem State.modMemory_tiles (s : State) (d : Nat) (f : MemNode → MemNode) : (s.modMemory d f).tiles = s.tiles := rfl
@[simp] theorem State.modMemory_fabric (s : State) (d : Nat) (f : MemNode → MemNode) : (s.modMemory d f).fabric = s.fabric := rfl
@[simp] theorem State.modMemory_ports (s : State) (d : Nat) (f : MemNode → MemNode) : (s.modMemory d f).ports = s.ports := rfl
@[simp] theorem State.modMemory_vest (s : State) (d : Nat) (f : MemNode → MemNode) : (s.modMemory d f).vest = s.vest := rfl
@[simp] theorem State.modMemory_host (s : State) (d : Nat) (f : MemNode → MemNode) : (s.modMemory d f).host = s.host := rfl

@[simp] theorem State.modPort_tile (s : State) (p : Nat) (f : Port → Port) : (s.modPort p f).tile = s.tile := rfl
@[simp] theorem State.modPort_ctx (s : State) (p : Nat) (f : Port → Port) : (s.modPort p f).ctx = s.ctx := rfl
@[simp] theorem State.modPort_cycle (s : State) (p : Nat) (f : Port → Port) : (s.modPort p f).cycle = s.cycle := rfl
@[simp] theorem State.modPort_evPos (s : State) (p : Nat) (f : Port → Port) : (s.modPort p f).evPos = s.evPos := rfl
@[simp] theorem State.modPort_issued (s : State) (p : Nat) (f : Port → Port) : (s.modPort p f).issued = s.issued := rfl
@[simp] theorem State.modPort_agenda (s : State) (p : Nat) (f : Port → Port) : (s.modPort p f).agenda = s.agenda := rfl
@[simp] theorem State.modPort_pkg (s : State) (p : Nat) (f : Port → Port) : (s.modPort p f).pkg = s.pkg := rfl
@[simp] theorem State.modPort_time0 (s : State) (p : Nat) (f : Port → Port) : (s.modPort p f).time0 = s.time0 := rfl
@[simp] theorem State.modPort_power (s : State) (p : Nat) (f : Port → Port) : (s.modPort p f).power = s.power := rfl
@[simp] theorem State.modPort_mem (s : State) (p : Nat) (f : Port → Port) : (s.modPort p f).mem = s.mem := rfl
@[simp] theorem State.modPort_empty (s : State) (p : Nat) (f : Port → Port) : (s.modPort p f).empty = s.empty := rfl
@[simp] theorem State.modPort_bad (s : State) (p : Nat) (f : Port → Port) : (s.modPort p f).bad = s.bad := rfl
@[simp] theorem State.modPort_tiles (s : State) (p : Nat) (f : Port → Port) : (s.modPort p f).tiles = s.tiles := rfl
@[simp] theorem State.modPort_dies (s : State) (p : Nat) (f : Port → Port) : (s.modPort p f).dies = s.dies := rfl
@[simp] theorem State.modPort_fabric (s : State) (p : Nat) (f : Port → Port) : (s.modPort p f).fabric = s.fabric := rfl
@[simp] theorem State.modPort_vest (s : State) (p : Nat) (f : Port → Port) : (s.modPort p f).vest = s.vest := rfl
@[simp] theorem State.modPort_host (s : State) (p : Nat) (f : Port → Port) : (s.modPort p f).host = s.host := rfl

@[simp] theorem State.modVest_tile (s : State) (f : Vestibule → Vestibule) : (s.modVest f).tile = s.tile := rfl
@[simp] theorem State.modVest_ctx (s : State) (f : Vestibule → Vestibule) : (s.modVest f).ctx = s.ctx := rfl
@[simp] theorem State.modVest_cycle (s : State) (f : Vestibule → Vestibule) : (s.modVest f).cycle = s.cycle := rfl
@[simp] theorem State.modVest_evPos (s : State) (f : Vestibule → Vestibule) : (s.modVest f).evPos = s.evPos := rfl
@[simp] theorem State.modVest_issued (s : State) (f : Vestibule → Vestibule) : (s.modVest f).issued = s.issued := rfl
@[simp] theorem State.modVest_agenda (s : State) (f : Vestibule → Vestibule) : (s.modVest f).agenda = s.agenda := rfl
@[simp] theorem State.modVest_pkg (s : State) (f : Vestibule → Vestibule) : (s.modVest f).pkg = s.pkg := rfl
@[simp] theorem State.modVest_time0 (s : State) (f : Vestibule → Vestibule) : (s.modVest f).time0 = s.time0 := rfl
@[simp] theorem State.modVest_power (s : State) (f : Vestibule → Vestibule) : (s.modVest f).power = s.power := rfl
@[simp] theorem State.modVest_mem (s : State) (f : Vestibule → Vestibule) : (s.modVest f).mem = s.mem := rfl
@[simp] theorem State.modVest_empty (s : State) (f : Vestibule → Vestibule) : (s.modVest f).empty = s.empty := rfl
@[simp] theorem State.modVest_bad (s : State) (f : Vestibule → Vestibule) : (s.modVest f).bad = s.bad := rfl
@[simp] theorem State.modVest_tiles (s : State) (f : Vestibule → Vestibule) : (s.modVest f).tiles = s.tiles := rfl
@[simp] theorem State.modVest_dies (s : State) (f : Vestibule → Vestibule) : (s.modVest f).dies = s.dies := rfl
@[simp] theorem State.modVest_fabric (s : State) (f : Vestibule → Vestibule) : (s.modVest f).fabric = s.fabric := rfl
@[simp] theorem State.modVest_ports (s : State) (f : Vestibule → Vestibule) : (s.modVest f).ports = s.ports := rfl
@[simp] theorem State.modVest_host (s : State) (f : Vestibule → Vestibule) : (s.modVest f).host = s.host := rfl

@[simp] theorem State.modPart_tile (s : State) (n : Nat) (f : Partition → Partition) : (s.modPart n f).tile = s.tile := by unfold State.modPart; split <;> rfl
@[simp] theorem State.modPart_ctx (s : State) (n : Nat) (f : Partition → Partition) : (s.modPart n f).ctx = s.ctx := by unfold State.modPart; split <;> rfl
@[simp] theorem State.modPart_cycle (s : State) (n : Nat) (f : Partition → Partition) : (s.modPart n f).cycle = s.cycle := by unfold State.modPart; split <;> rfl
@[simp] theorem State.modPart_evPos (s : State) (n : Nat) (f : Partition → Partition) : (s.modPart n f).evPos = s.evPos := by unfold State.modPart; split <;> rfl
@[simp] theorem State.modPart_issued (s : State) (n : Nat) (f : Partition → Partition) : (s.modPart n f).issued = s.issued := by unfold State.modPart; split <;> rfl
@[simp] theorem State.modPart_agenda (s : State) (n : Nat) (f : Partition → Partition) : (s.modPart n f).agenda = s.agenda := by unfold State.modPart; split <;> rfl
@[simp] theorem State.modPart_pkg (s : State) (n : Nat) (f : Partition → Partition) : (s.modPart n f).pkg = s.pkg := by unfold State.modPart; split <;> rfl
@[simp] theorem State.modPart_time0 (s : State) (n : Nat) (f : Partition → Partition) : (s.modPart n f).time0 = s.time0 := by unfold State.modPart; split <;> rfl
@[simp] theorem State.modPart_power (s : State) (n : Nat) (f : Partition → Partition) : (s.modPart n f).power = s.power := by unfold State.modPart; split <;> rfl
@[simp] theorem State.modPart_mem (s : State) (n : Nat) (f : Partition → Partition) : (s.modPart n f).mem = s.mem := by unfold State.modPart; split <;> rfl
@[simp] theorem State.modPart_empty (s : State) (n : Nat) (f : Partition → Partition) : (s.modPart n f).empty = s.empty := by unfold State.modPart; split <;> rfl
@[simp] theorem State.modPart_bad (s : State) (n : Nat) (f : Partition → Partition) : (s.modPart n f).bad = s.bad := by unfold State.modPart; split <;> rfl
@[simp] theorem State.modPart_tiles (s : State) (n : Nat) (f : Partition → Partition) : (s.modPart n f).tiles = s.tiles := by unfold State.modPart; split <;> rfl
@[simp] theorem State.modPart_dies (s : State) (n : Nat) (f : Partition → Partition) : (s.modPart n f).dies = s.dies := by unfold State.modPart; split <;> rfl
@[simp] theorem State.modPart_fabric (s : State) (n : Nat) (f : Partition → Partition) : (s.modPart n f).fabric = s.fabric := by unfold State.modPart; split <;> rfl
@[simp] theorem State.modPart_ports (s : State) (n : Nat) (f : Partition → Partition) : (s.modPart n f).ports = s.ports := by unfold State.modPart; split <;> rfl
@[simp] theorem State.modPart_host (s : State) (n : Nat) (f : Partition → Partition) : (s.modPart n f).host = s.host := by unfold State.modPart; split <;> rfl

@[simp] theorem State.modJob_tile (s : State) (n : Nat) (f : Job → Job) : (s.modJob n f).tile = s.tile := State.modPart_tile s n _
@[simp] theorem State.modJob_ctx (s : State) (n : Nat) (f : Job → Job) : (s.modJob n f).ctx = s.ctx := State.modPart_ctx s n _
@[simp] theorem State.modJob_cycle (s : State) (n : Nat) (f : Job → Job) : (s.modJob n f).cycle = s.cycle := State.modPart_cycle s n _
@[simp] theorem State.modJob_evPos (s : State) (n : Nat) (f : Job → Job) : (s.modJob n f).evPos = s.evPos := State.modPart_evPos s n _
@[simp] theorem State.modJob_issued (s : State) (n : Nat) (f : Job → Job) : (s.modJob n f).issued = s.issued := State.modPart_issued s n _
@[simp] theorem State.modJob_agenda (s : State) (n : Nat) (f : Job → Job) : (s.modJob n f).agenda = s.agenda := State.modPart_agenda s n _
@[simp] theorem State.modJob_pkg (s : State) (n : Nat) (f : Job → Job) : (s.modJob n f).pkg = s.pkg := State.modPart_pkg s n _
@[simp] theorem State.modJob_time0 (s : State) (n : Nat) (f : Job → Job) : (s.modJob n f).time0 = s.time0 := State.modPart_time0 s n _
@[simp] theorem State.modJob_power (s : State) (n : Nat) (f : Job → Job) : (s.modJob n f).power = s.power := State.modPart_power s n _
@[simp] theorem State.modJob_mem (s : State) (n : Nat) (f : Job → Job) : (s.modJob n f).mem = s.mem := State.modPart_mem s n _
@[simp] theorem State.modJob_empty (s : State) (n : Nat) (f : Job → Job) : (s.modJob n f).empty = s.empty := State.modPart_empty s n _
@[simp] theorem State.modJob_bad (s : State) (n : Nat) (f : Job → Job) : (s.modJob n f).bad = s.bad := State.modPart_bad s n _
@[simp] theorem State.modJob_tiles (s : State) (n : Nat) (f : Job → Job) : (s.modJob n f).tiles = s.tiles := State.modPart_tiles s n _
@[simp] theorem State.modJob_dies (s : State) (n : Nat) (f : Job → Job) : (s.modJob n f).dies = s.dies := State.modPart_dies s n _
@[simp] theorem State.modJob_fabric (s : State) (n : Nat) (f : Job → Job) : (s.modJob n f).fabric = s.fabric := State.modPart_fabric s n _
@[simp] theorem State.modJob_ports (s : State) (n : Nat) (f : Job → Job) : (s.modJob n f).ports = s.ports := State.modPart_ports s n _
@[simp] theorem State.modJob_host (s : State) (n : Nat) (f : Job → Job) : (s.modJob n f).host = s.host := State.modPart_host s n _

/-! ### Lookups after updates -/

@[simp] theorem State.getTile_setTile (s : State) (t : Nat) (x : Tile) : (s.setTile t x).getTile t = x := by
  simp [State.getTile, State.setTile]

theorem State.getTile_setTile_ne (s : State) (t u : Nat) (x : Tile) (h : u ≠ t) : (s.setTile t x).getTile u = s.getTile u := by
  simp [State.getTile, State.setTile, h]

@[simp] theorem State.getTile_modTile (s : State) (t : Nat) (f : Tile → Tile) : (s.modTile t f).getTile t = f (s.getTile t) :=
  State.getTile_setTile s t _

theorem State.getTile_modTile_ne (s : State) (t u : Nat) (f : Tile → Tile) (h : u ≠ t) : (s.modTile t f).getTile u = s.getTile u :=
  State.getTile_setTile_ne s t u _ h

@[simp] theorem Tile.getCtx_setCtx (x : Tile) (c : Nat) (k : Ctx) : (x.setCtx c k).getCtx c = k := by
  simp [Tile.getCtx, Tile.setCtx]

theorem Tile.getCtx_setCtx_ne (x : Tile) (c e : Nat) (k : Ctx) (h : e % 8 ≠ c % 8) : (x.setCtx c k).getCtx e = x.getCtx e := by
  simp [Tile.getCtx, Tile.setCtx, Ne.symm h]

@[simp] theorem State.getCtx_setCtx (s : State) (t c : Nat) (k : Ctx) : (s.setCtx t c k).getCtx t c = k := by
  simp [State.getCtx, State.setCtx]

@[simp] theorem State.getCtx_modCtx (s : State) (t c : Nat) (f : Ctx → Ctx) : (s.modCtx t c f).getCtx t c = f (s.getCtx t c) :=
  State.getCtx_setCtx s t c _

@[simp] theorem State.cur_modCur (s : State) (f : Ctx → Ctx) : (s.modCur f).cur = f s.cur := by
  simp only [State.cur, State.modCur, State.modCtx_tile, State.modCtx_ctx, State.getCtx_modCtx]

@[simp] theorem State.me_modMe (s : State) (f : Tile → Tile) : (s.modMe f).me = f s.me := by
  simp only [State.me, State.modMe, State.modTile_tile, State.getTile_modTile]

@[simp] theorem mput_mput {α : Type} (m : Map α) (k : Nat) (v w : α) : mput (mput m k v) k w = mput m k w := by
  induction m with
  | nil => simp [mput]
  | cons e m ih =>
    simp only [mput]
    split
    · simp [mput]
    · split
      · simp [mput]
      · simp only [mput, if_neg ‹¬ k = e.1›, if_neg ‹¬ k < e.1›, ih]

@[simp] theorem State.setTile_setTile (s : State) (t : Nat) (x y : Tile) : (s.setTile t x).setTile t y = s.setTile t y := by
  simp [State.setTile]

@[simp] theorem State.modTile_modTile (s : State) (t : Nat) (f g : Tile → Tile) :
    (s.modTile t f).modTile t g = s.modTile t fun x => g (f x) := by
  simp [State.modTile]

@[simp] theorem Tile.setCtx_setCtx (x : Tile) (c : Nat) (k l : Ctx) : (x.setCtx c k).setCtx c l = x.setCtx c l := by
  simp [Tile.setCtx]

@[simp] theorem State.setCtx_setCtx (s : State) (t c : Nat) (k l : Ctx) : (s.setCtx t c k).setCtx t c l = s.setCtx t c l := by
  simp [State.setCtx]

theorem State.modCur_eq (s : State) (f : Ctx → Ctx) : s.modCur f = s.setCtx s.tile s.ctx (f s.cur) := rfl

@[simp] theorem State.modCur_modCur (s : State) (f g : Ctx → Ctx) : (s.modCur f).modCur g = s.modCur fun c => g (f c) := by
  simp only [State.modCur_eq, State.setCtx_tile, State.setCtx_ctx, State.setCtx_setCtx, State.cur, State.getCtx_setCtx]

/-! ### Registers -/

/-- A general register after a write: g0 stays zero (R136). -/
theorem Ctx.rd_wr (c : Ctx) (d r : Reg) (w : Word) : (c.wr d w).rd r = if r = d ∧ d ≠ 0 then w else c.rd r := by
  unfold Ctx.wr
  by_cases hd : d = 0
  · simp [hd]
  · rw [if_neg hd]
    unfold Ctx.rd
    by_cases hr : r = 0
    · subst hr; rw [if_pos rfl, if_pos rfl, if_neg (fun e => hd e.1.symm)]
    · simp only [if_neg hr]
      by_cases h : r = d
      · subst h; rw [if_pos ⟨rfl, hd⟩]; simp
      · have : d.toNat ≠ r.toNat := fun e => h (BitVec.eq_of_toNat_eq e.symm)
        simp [h, this]

@[simp] theorem Ctx.rd_zero (c : Ctx) : c.rd 0#4 = 0 := if_pos rfl

/-- A predicate register after a write: k0 stays all ones (R136). -/
theorem Ctx.rk_wk (c : Ctx) (d r : KReg) (w : Word) : (c.wk d w).rk r = if r = d ∧ d ≠ 0 then w else c.rk r := by
  unfold Ctx.wk
  by_cases hd : d = 0
  · simp [hd]
  · rw [if_neg hd]
    unfold Ctx.rk
    by_cases hr : r = 0
    · subst hr; rw [if_pos rfl, if_pos rfl, if_neg (fun e => hd e.1.symm)]
    · simp only [if_neg hr]
      by_cases h : r = d
      · subst h; rw [if_pos ⟨rfl, hd⟩]; simp
      · have : d.toNat ≠ r.toNat := fun e => h (BitVec.eq_of_toNat_eq e.symm)
        simp [h, this]

@[simp] theorem Ctx.rk_zero (c : Ctx) : c.rk 0#3 = BitVec.allOnes 64 := if_pos rfl

/-- A vector register after a write. -/
theorem Ctx.rv_wv (c : Ctx) (d r : Reg) (x : VReg) : (c.wv d x).rv r = if r = d then x else c.rv r := by
  unfold Ctx.wv Ctx.rv
  by_cases h : r = d
  · subst h; simp
  · have : d.toNat ≠ r.toNat := fun e => h (BitVec.eq_of_toNat_eq e.symm)
    simp [h, this]

@[simp] theorem Ctx.wr_run (c : Ctx) (d : Reg) (w : Word) : (c.wr d w).run = c.run := by unfold Ctx.wr; split <;> rfl
@[simp] theorem Ctx.wr_pc (c : Ctx) (d : Reg) (w : Word) : (c.wr d w).pc = c.pc := by unfold Ctx.wr; split <;> rfl
@[simp] theorem Ctx.wr_v (c : Ctx) (d : Reg) (w : Word) : (c.wr d w).v = c.v := by unfold Ctx.wr; split <;> rfl
@[simp] theorem Ctx.wr_k (c : Ctx) (d : Reg) (w : Word) : (c.wr d w).k = c.k := by unfold Ctx.wr; split <;> rfl
@[simp] theorem Ctx.wr_loop0 (c : Ctx) (d : Reg) (w : Word) : (c.wr d w).loop0 = c.loop0 := by unfold Ctx.wr; split <;> rfl
@[simp] theorem Ctx.wr_loop1 (c : Ctx) (d : Reg) (w : Word) : (c.wr d w).loop1 = c.loop1 := by unfold Ctx.wr; split <;> rfl
@[simp] theorem Ctx.wr_newer1 (c : Ctx) (d : Reg) (w : Word) : (c.wr d w).newer1 = c.newer1 := by unfold Ctx.wr; split <;> rfl
@[simp] theorem Ctx.wr_ut (c : Ctx) (d : Reg) (w : Word) : (c.wr d w).ut = c.ut := by unfold Ctx.wr; split <;> rfl
@[simp] theorem Ctx.wr_fpm (c : Ctx) (d : Reg) (w : Word) : (c.wr d w).fpm = c.fpm := by unfold Ctx.wr; split <;> rfl
@[simp] theorem Ctx.wr_fpf (c : Ctx) (d : Reg) (w : Word) : (c.wr d w).fpf = c.fpf := by unfold Ctx.wr; split <;> rfl
@[simp] theorem Ctx.wr_txh (c : Ctx) (d : Reg) (w : Word) : (c.wr d w).txh = c.txh := by unfold Ctx.wr; split <;> rfl
@[simp] theorem Ctx.wr_srng (c : Ctx) (d : Reg) (w : Word) : (c.wr d w).srng = c.srng := by unfold Ctx.wr; split <;> rfl
@[simp] theorem Ctx.wr_sys (c : Ctx) (d : Reg) (w : Word) : (c.wr d w).sys = c.sys := by unfold Ctx.wr; split <;> rfl
@[simp] theorem Ctx.wr_gen (c : Ctx) (d : Reg) (w : Word) : (c.wr d w).gen = c.gen := by unfold Ctx.wr; split <;> rfl
@[simp] theorem Ctx.wr_key (c : Ctx) (d : Reg) (w : Word) : (c.wr d w).key = c.key := by unfold Ctx.wr; split <;> rfl
@[simp] theorem Ctx.wr_cls (c : Ctx) (d : Reg) (w : Word) : (c.wr d w).cls = c.cls := by unfold Ctx.wr; split <;> rfl
@[simp] theorem Ctx.wr_prio (c : Ctx) (d : Reg) (w : Word) : (c.wr d w).prio = c.prio := by unfold Ctx.wr; split <;> rfl
@[simp] theorem Ctx.wr_ftag (c : Ctx) (d : Reg) (w : Word) : (c.wr d w).ftag = c.ftag := by unfold Ctx.wr; split <;> rfl
@[simp] theorem Ctx.wr_born (c : Ctx) (d : Reg) (w : Word) : (c.wr d w).born = c.born := by unfold Ctx.wr; split <;> rfl
@[simp] theorem Ctx.wr_hlimit (c : Ctx) (d : Reg) (w : Word) : (c.wr d w).hlimit = c.hlimit := by unfold Ctx.wr; split <;> rfl
@[simp] theorem Ctx.wr_committed (c : Ctx) (d : Reg) (w : Word) : (c.wr d w).committed = c.committed := by unfold Ctx.wr; split <;> rfl
@[simp] theorem Ctx.wr_sends (c : Ctx) (d : Reg) (w : Word) : (c.wr d w).sends = c.sends := by unfold Ctx.wr; split <;> rfl
@[simp] theorem Ctx.wr_posts (c : Ctx) (d : Reg) (w : Word) : (c.wr d w).posts = c.posts := by unfold Ctx.wr; split <;> rfl
@[simp] theorem Ctx.wr_held (c : Ctx) (d : Reg) (w : Word) : (c.wr d w).held = c.held := by unfold Ctx.wr; split <;> rfl
@[simp] theorem Ctx.wr_late (c : Ctx) (d : Reg) (w : Word) : (c.wr d w).late = c.late := by unfold Ctx.wr; split <;> rfl
@[simp] theorem Ctx.wr_insn (c : Ctx) (d : Reg) (w : Word) : (c.wr d w).insn = c.insn := by unfold Ctx.wr; split <;> rfl

/-- Completing sequentially writes only the PC and the loop registers (R174). -/
theorem Ctx.seq_keeps (c : Ctx) (n : Nat) :
    (c.seq n).g = c.g ∧ (c.seq n).v = c.v ∧ (c.seq n).k = c.k ∧ (c.seq n).ut = c.ut ∧ (c.seq n).fpf = c.fpf ∧ (c.seq n).fpm = c.fpm ∧
      (c.seq n).txh = c.txh ∧ (c.seq n).srng = c.srng ∧ (c.seq n).sys = c.sys ∧ (c.seq n).sends = c.sends := by
  unfold Ctx.seq Ctx.seqTo Ctx.goto
  split
  · exact ⟨rfl, rfl, rfl, rfl, rfl, rfl, rfl, rfl, rfl, rfl⟩
  · split <;> dsimp only <;> split <;> (try split) <;> exact ⟨rfl, rfl, rfl, rfl, rfl, rfl, rfl, rfl, rfl, rfl⟩

/-! ### Completing -/

/-- What completing an instruction does: the running context is changed and goes on; nothing else changes. -/
theorem State.retire_eq (s : State) (len : Nat) (f : Ctx → Ctx) :
    s.retire len f = s.setCtx s.tile s.ctx { (f s.cur).seq len with run := .ready } := rfl

theorem State.retireG_eq (s : State) (len : Nat) (d : Reg) (w : Word) :
    s.retireG len d w = s.setCtx s.tile s.ctx { (s.cur.wr d w).seq len with run := .ready } := rfl

end Sys2Proof.Machine
end

