-- ==== Sys2Proof/Laws/Events.lean ====
section
/-! SUPPORT. What the shared operations of the events can do, each said once: doorbells, the completed number of an engine, what an access
covers, and the service of a channel log. -/

namespace Sys2Proof.Machine

/-! ### Doorbells (R321, R340) -/

/-- A doorbell or a pass moves the tail, counts a drop, or finds the tail that the other of the two has set. -/
theorem Queue.ring_cases (q : Queue) (pass : Bool) (w : Word) :
    q.ring pass w = { q with passed := q.passed && pass } ∧ w.extractLsb' 32 32 = q.seq ∧ w.extractLsb' 0 32 = q.tail ∧ (pass ∨ q.passed) ∨
    q.ring pass w = { q with seq := w.extractLsb' 32 32, tail := w.extractLsb' 0 32, passed := pass } ∧ q.state ≠ 2 ∨
    q.ring pass w = { q with drops := Nat.min (q.drops + 1) (2 ^ 32 - 1) } := by
  unfold Queue.ring
  dsimp only
  split
  · exact .inl ⟨rfl, ‹_ ∧ _›⟩
  · split
    · exact .inr (.inl ⟨rfl, (‹_ ∧ _› : _ ∧ _).1⟩)
    · exact .inr (.inr rfl)

/-- What it keeps. -/
theorem Queue.ring_keeps (q : Queue) (pass : Bool) (w : Word) :
    (q.ring pass w).ctl = q.ctl ∧ (q.ring pass w).base = q.base ∧ (q.ring pass w).units = q.units ∧ (q.ring pass w).owner = q.owner ∧
      (q.ring pass w).state = q.state ∧ (q.ring pass w).head = q.head ∧ (q.ring pass w).start = q.start ∧ (q.ring pass w).pend = q.pend ∧
      (q.ring pass w).former = q.former := by
  rcases q.ring_cases pass w with h | h | h
  · rw [h.1]; exact ⟨rfl, rfl, rfl, rfl, rfl, rfl, rfl, rfl, rfl⟩
  · rw [h.1]; exact ⟨rfl, rfl, rfl, rfl, rfl, rfl, rfl, rfl, rfl⟩
  · rw [h]; exact ⟨rfl, rfl, rfl, rfl, rfl, rfl, rfl, rfl, rfl⟩

/-! ### Engines (R239, R245) -/

@[simp] theorem Engine.advance_cmds (e : Engine) (n : Nat) : (e.advance n).cmds = e.cmds := rfl
@[simp] theorem Engine.advance_last (e : Engine) (n : Nat) : (e.advance n).last = e.last := rfl
@[simp] theorem Engine.advance_status (e : Engine) (n : Nat) : (e.advance n).status = e.status := rfl
@[simp] theorem Engine.advance_errs (e : Engine) (n : Nat) : (e.advance n).errs = e.errs := rfl

/-- In order, the number completed is the next one. -/
theorem Engine.advance_next (e : Engine) (h : e.beyond = []) : (e.advance (e.done + 1)).done = e.done + 1 ∧ (e.advance (e.done + 1)).beyond = [] := by
  simp [Engine.advance, h, advanceDone]

/-- Out of order it stays, and the command's number is kept above it. -/
theorem Engine.advance_later (e : Engine) (n : Nat) (h : e.beyond = []) (hn : e.done + 1 < n) :
    (e.advance n).done = e.done ∧ (e.advance n).beyond = [n] := by
  have h1 : ¬ e.done + 1 = n := by omega
  have h2 : e.done < n := by omega
  simp [Engine.advance, h, advanceDone, h1, h2]

@[simp] theorem Engine.settle_cmds (e : Engine) (k : Cmd) (code : Nat) (f : Flags) : (e.settle k code f).cmds = e.cmds := rfl

/-! ### Seals (R289) -/

@[simp] theorem Tile.dropSends_outq (x : Tile) : x.dropSends.outq = [] := rfl
@[simp] theorem Tile.dropSends_reports (x : Tile) : x.dropSends.reports = [] := rfl
@[simp] theorem Tile.dropSends_queue (x : Tile) : x.dropSends.mu.queue = [] := rfl
@[simp] theorem Tile.dropSends_ctxs (x : Tile) : x.dropSends.ctxs = x.ctxs := rfl
@[simp] theorem Tile.dropSends_land (x : Tile) : x.dropSends.land = x.land := rfl
@[simp] theorem Tile.keepNone_out (x : Tile) : x.keepNone.mu.out = [] := rfl

/-! ### Ports (R347, R356) -/

@[simp] theorem Port.silent_state (p : Port) : p.silent.state = .down := rfl
@[simp] theorem Port.silent_failed (p : Port) : p.silent.failed = p.failed := by
  unfold Port.silent Port.goDown; split <;> first | rfl | (split <;> rfl)
@[simp] theorem State.routesBack_ports (s : State) (n : Nat) : (s.routesBack n).ports = s.ports := rfl
@[simp] theorem State.routesBack_mem (s : State) (n : Nat) : (s.routesBack n).mem = s.mem := rfl

/-! ### What an access covers (R124, R188, R189) -/

/-- An access to the own scratchpad that is no release: one that writes follows the reads outstanding, every other nothing. -/
theorem State.coverTags_own (s : State) (p : Piece) (op : MemOp) (h : s.isOwn p = true) :
    s.coverTags p op false = if opWrites op then s.me.readTags s.ctx else [] := by
  simp [State.coverTags, h]

/-- An atomic that is injected covers whatever the context has outstanding, whatever its order. -/
theorem State.coverTags_atomic (s : State) (p : Piece) (op : MemOp) (rel : Bool) (h : s.isOwn p = false) (ha : opAtomic op = true) :
    s.coverTags p op rel = s.me.outTags s.ctx := by
  simp [State.coverTags, h, ha]

/-- A release covers whatever the context has outstanding. -/
@[simp] theorem State.coverTags_rel (s : State) (p : Piece) (op : MemOp) : s.coverTags p op true = s.me.outTags s.ctx := rfl

/-! ### Channel logs (R316) -/

/-- A logged flit other than a handler message is served at its tile, or kept to be tried again. -/
theorem State.serveLogged_cases (s : State) (t : Nat) (f : Flit) :
    (∃ b, s.serveTile t f = some (s.serveLogged t f, b)) ∨
    (s.serveTile t f = none ∧ s.serveLogged t f = s.modTile t fun x => { x with land := { x.land with logged := x.land.logged ++ [f] } }) := by
  unfold State.serveLogged
  cases h : s.serveTile t f with
  | none => exact .inr ⟨rfl, rfl⟩
  | some p => exact .inl ⟨p.2, rfl⟩

end Sys2Proof.Machine
end

