-- ==== Sys2Proof/Laws/Exec.lean ====
section
/-! SUPPORT. The arm of `exec` for each constructor, as an equation: proofs rewrite with these and never unfold `exec`. -/

namespace Sys2Proof.Machine

theorem exec_cMov (d : Reg) (a : Reg) (s : State) : exec (.cMov d a) s = execCMov d a s := rfl
theorem exec_cAdd (d : Reg) (a : Reg) (s : State) : exec (.cAdd d a) s = execCAdd d a s := rfl
theorem exec_cSub (d : Reg) (a : Reg) (s : State) : exec (.cSub d a) s = execCSub d a s := rfl
theorem exec_cAnd (d : Reg) (a : Reg) (s : State) : exec (.cAnd d a) s = execCAnd d a s := rfl
theorem exec_cOr (d : Reg) (a : Reg) (s : State) : exec (.cOr d a) s = execCOr d a s := rfl
theorem exec_cAddi (d : Reg) (imm : BitVec 8) (s : State) : exec (.cAddi d imm) s = execCAddi d imm s := rfl
theorem exec_cMovi (d : Reg) (imm : BitVec 8) (s : State) : exec (.cMovi d imm) s = execCMovi d imm s := rfl
theorem exec_cLdd (d : Reg) (a : Reg) (imm : BitVec 4) (s : State) : exec (.cLdd d a imm) s = execCLdd d a imm s := rfl
theorem exec_cStd (d : Reg) (a : Reg) (imm : BitVec 4) (s : State) : exec (.cStd d a imm) s = execCStd d a imm s := rfl
theorem exec_cBz (d : Reg) (off : BitVec 8) (s : State) : exec (.cBz d off) s = execCBz d off s := rfl
theorem exec_cBnz (d : Reg) (off : BitVec 8) (s : State) : exec (.cBnz d off) s = execCBnz d off s := rfl
theorem exec_cDone (s : State) : exec (.cDone) s = execCDone s := rfl
theorem exec_cYield (s : State) : exec (.cYield) s = execCYield s := rfl
theorem exec_cNop (s : State) : exec (.cNop) s = execCNop s := rfl
theorem exec_cRet (s : State) : exec (.cRet) s = execCRet s := rfl
theorem exec_cCommit (s : State) : exec (.cCommit) s = execCCommit s := rfl
theorem exec_add (d : Reg) (a : Reg) (b : Reg) (s : State) : exec (.add d a b) s = execAdd d a b s := rfl
theorem exec_sub (d : Reg) (a : Reg) (b : Reg) (s : State) : exec (.sub d a b) s = execSub d a b s := rfl
theorem exec_mul (d : Reg) (a : Reg) (b : Reg) (s : State) : exec (.mul d a b) s = execMul d a b s := rfl
theorem exec_mulh (d : Reg) (a : Reg) (b : Reg) (s : State) : exec (.mulh d a b) s = execMulh d a b s := rfl
theorem exec_mulhn (d : Reg) (a : Reg) (b : Reg) (s : State) : exec (.mulhn d a b) s = execMulhn d a b s := rfl
theorem exec_div (d : Reg) (a : Reg) (b : Reg) (s : State) : exec (.div d a b) s = execDiv d a b s := rfl
theorem exec_divn (d : Reg) (a : Reg) (b : Reg) (s : State) : exec (.divn d a b) s = execDivn d a b s := rfl
theorem exec_rem (d : Reg) (a : Reg) (b : Reg) (s : State) : exec (.rem d a b) s = execRem d a b s := rfl
theorem exec_remn (d : Reg) (a : Reg) (b : Reg) (s : State) : exec (.remn d a b) s = execRemn d a b s := rfl
theorem exec_and (d : Reg) (a : Reg) (b : Reg) (s : State) : exec (.and d a b) s = execAnd d a b s := rfl
theorem exec_or (d : Reg) (a : Reg) (b : Reg) (s : State) : exec (.or d a b) s = execOr d a b s := rfl
theorem exec_xor (d : Reg) (a : Reg) (b : Reg) (s : State) : exec (.xor d a b) s = execXor d a b s := rfl
theorem exec_andn (d : Reg) (a : Reg) (b : Reg) (s : State) : exec (.andn d a b) s = execAndn d a b s := rfl
theorem exec_orn (d : Reg) (a : Reg) (b : Reg) (s : State) : exec (.orn d a b) s = execOrn d a b s := rfl
theorem exec_shl (d : Reg) (a : Reg) (b : Reg) (s : State) : exec (.shl d a b) s = execShl d a b s := rfl
theorem exec_shr (d : Reg) (a : Reg) (b : Reg) (s : State) : exec (.shr d a b) s = execShr d a b s := rfl
theorem exec_sar (d : Reg) (a : Reg) (b : Reg) (s : State) : exec (.sar d a b) s = execSar d a b s := rfl
theorem exec_rol (d : Reg) (a : Reg) (b : Reg) (s : State) : exec (.rol d a b) s = execRol d a b s := rfl
theorem exec_min (d : Reg) (a : Reg) (b : Reg) (s : State) : exec (.min d a b) s = execMin d a b s := rfl
theorem exec_max (d : Reg) (a : Reg) (b : Reg) (s : State) : exec (.max d a b) s = execMax d a b s := rfl
theorem exec_minn (d : Reg) (a : Reg) (b : Reg) (s : State) : exec (.minn d a b) s = execMinn d a b s := rfl
theorem exec_maxn (d : Reg) (a : Reg) (b : Reg) (s : State) : exec (.maxn d a b) s = execMaxn d a b s := rfl
theorem exec_seq (d : Reg) (a : Reg) (b : Reg) (s : State) : exec (.seq d a b) s = execSeq d a b s := rfl
theorem exec_sne (d : Reg) (a : Reg) (b : Reg) (s : State) : exec (.sne d a b) s = execSne d a b s := rfl
theorem exec_slt (d : Reg) (a : Reg) (b : Reg) (s : State) : exec (.slt d a b) s = execSlt d a b s := rfl
theorem exec_sle (d : Reg) (a : Reg) (b : Reg) (s : State) : exec (.sle d a b) s = execSle d a b s := rfl
theorem exec_sltn (d : Reg) (a : Reg) (b : Reg) (s : State) : exec (.sltn d a b) s = execSltn d a b s := rfl
theorem exec_slen (d : Reg) (a : Reg) (b : Reg) (s : State) : exec (.slen d a b) s = execSlen d a b s := rfl
theorem exec_sel (d : Reg) (a : Reg) (b : Reg) (c : Reg) (s : State) : exec (.sel d a b c) s = execSel d a b c s := rfl
theorem exec_clz (d : Reg) (a : Reg) (s : State) : exec (.clz d a) s = execClz d a s := rfl
theorem exec_ctz (d : Reg) (a : Reg) (s : State) : exec (.ctz d a) s = execCtz d a s := rfl
theorem exec_popc (d : Reg) (a : Reg) (s : State) : exec (.popc d a) s = execPopc d a s := rfl
theorem exec_brev (d : Reg) (a : Reg) (s : State) : exec (.brev d a) s = execBrev d a s := rfl
theorem exec_muladd (d : Reg) (a : Reg) (b : Reg) (c : Reg) (s : State) : exec (.muladd d a b c) s = execMuladd d a b c s := rfl
theorem exec_padd (d : Reg) (a : Reg) (b : Reg) (s : State) : exec (.padd d a b) s = execPadd d a b s := rfl
theorem exec_psub (d : Reg) (a : Reg) (b : Reg) (s : State) : exec (.psub d a b) s = execPsub d a b s := rfl
theorem exec_ptag (d : Reg) (a : Reg) (b : Reg) (s : State) : exec (.ptag d a b) s = execPtag d a b s := rfl
theorem exec_pfmt (d : Reg) (a : Reg) (s : State) : exec (.pfmt d a) s = execPfmt d a s := rfl
theorem exec_bfx (d : Reg) (a : Reg) (c : Reg) (s : State) : exec (.bfx d a c) s = execBfx d a c s := rfl
theorem exec_bfxs (d : Reg) (a : Reg) (c : Reg) (s : State) : exec (.bfxs d a c) s = execBfxs d a c s := rfl
theorem exec_bfi (d : Reg) (a : Reg) (b : Reg) (c : Reg) (s : State) : exec (.bfi d a b c) s = execBfi d a b c s := rfl
theorem exec_addw (d : Reg) (a : Reg) (b : Reg) (s : State) : exec (.addw d a b) s = execAddw d a b s := rfl
theorem exec_subw (d : Reg) (a : Reg) (b : Reg) (s : State) : exec (.subw d a b) s = execSubw d a b s := rfl
theorem exec_mulw (d : Reg) (a : Reg) (b : Reg) (s : State) : exec (.mulw d a b) s = execMulw d a b s := rfl
theorem exec_shlw (d : Reg) (a : Reg) (b : Reg) (s : State) : exec (.shlw d a b) s = execShlw d a b s := rfl
theorem exec_shrw (d : Reg) (a : Reg) (b : Reg) (s : State) : exec (.shrw d a b) s = execShrw d a b s := rfl
theorem exec_sarw (d : Reg) (a : Reg) (b : Reg) (s : State) : exec (.sarw d a b) s = execSarw d a b s := rfl
theorem exec_addi (d : Reg) (a : Reg) (imm : BitVec 16) (s : State) : exec (.addi d a imm) s = execAddi d a imm s := rfl
theorem exec_andi (d : Reg) (a : Reg) (imm : BitVec 16) (s : State) : exec (.andi d a imm) s = execAndi d a imm s := rfl
theorem exec_ori (d : Reg) (a : Reg) (imm : BitVec 16) (s : State) : exec (.ori d a imm) s = execOri d a imm s := rfl
theorem exec_xori (d : Reg) (a : Reg) (imm : BitVec 16) (s : State) : exec (.xori d a imm) s = execXori d a imm s := rfl
theorem exec_slti (d : Reg) (a : Reg) (imm : BitVec 16) (s : State) : exec (.slti d a imm) s = execSlti d a imm s := rfl
theorem exec_sltni (d : Reg) (a : Reg) (imm : BitVec 16) (s : State) : exec (.sltni d a imm) s = execSltni d a imm s := rfl
theorem exec_shli (d : Reg) (a : Reg) (n : BitVec 6) (s : State) : exec (.shli d a n) s = execShli d a n s := rfl
theorem exec_shri (d : Reg) (a : Reg) (n : BitVec 6) (s : State) : exec (.shri d a n) s = execShri d a n s := rfl
theorem exec_sari (d : Reg) (a : Reg) (n : BitVec 6) (s : State) : exec (.sari d a n) s = execSari d a n s := rfl
theorem exec_roli (d : Reg) (a : Reg) (n : BitVec 6) (s : State) : exec (.roli d a n) s = execRoli d a n s := rfl
theorem exec_shliW (d : Reg) (a : Reg) (n : BitVec 5) (s : State) : exec (.shliW d a n) s = execShliW d a n s := rfl
theorem exec_shriW (d : Reg) (a : Reg) (n : BitVec 5) (s : State) : exec (.shriW d a n) s = execShriW d a n s := rfl
theorem exec_sariW (d : Reg) (a : Reg) (n : BitVec 5) (s : State) : exec (.sariW d a n) s = execSariW d a n s := rfl
theorem exec_roliW (d : Reg) (a : Reg) (n : BitVec 5) (s : State) : exec (.roliW d a n) s = execRoliW d a n s := rfl
theorem exec_movw (d : Reg) (imm : BitVec 16) (p : BitVec 2) (s : State) : exec (.movw d imm p) s = execMovw d imm p s := rfl
theorem exec_movk (d : Reg) (imm : BitVec 16) (p : BitVec 2) (s : State) : exec (.movk d imm p) s = execMovk d imm p s := rfl
theorem exec_movn (d : Reg) (imm : BitVec 16) (p : BitVec 2) (s : State) : exec (.movn d imm p) s = execMovn d imm p s := rfl
theorem exec_paddi (d : Reg) (a : Reg) (imm : BitVec 16) (s : State) : exec (.paddi d a imm) s = execPaddi d a imm s := rfl
theorem exec_adr (d : Reg) (off : BitVec 20) (s : State) : exec (.adr d off) s = execAdr d off s := rfl
theorem exec_fmoviF64H (d : Reg) (imm : BitVec 16) (s : State) : exec (.fmoviF64H d imm) s = execFmoviF64H d imm s := rfl
theorem exec_fmoviF32H (d : Reg) (imm : BitVec 16) (s : State) : exec (.fmoviF32H d imm) s = execFmoviF32H d imm s := rfl
theorem exec_fmoviF64Bf (d : Reg) (imm : BitVec 16) (s : State) : exec (.fmoviF64Bf d imm) s = execFmoviF64Bf d imm s := rfl
theorem exec_fmoviF32Bf (d : Reg) (imm : BitVec 16) (s : State) : exec (.fmoviF32Bf d imm) s = execFmoviF32Bf d imm s := rfl
theorem exec_b (off : BitVec 24) (s : State) : exec (.b off) s = execB off s := rfl
theorem exec_bl (off : BitVec 24) (s : State) : exec (.bl off) s = execBl off s := rfl
theorem exec_bcEq (x : Reg) (y : Reg) (off : BitVec 12) (s : State) : exec (.bcEq x y off) s = execBcEq x y off s := rfl
theorem exec_bcNe (x : Reg) (y : Reg) (off : BitVec 12) (s : State) : exec (.bcNe x y off) s = execBcNe x y off s := rfl
theorem exec_bcLt (x : Reg) (y : Reg) (off : BitVec 12) (s : State) : exec (.bcLt x y off) s = execBcLt x y off s := rfl
theorem exec_bcGe (x : Reg) (y : Reg) (off : BitVec 12) (s : State) : exec (.bcGe x y off) s = execBcGe x y off s := rfl
theorem exec_bcLtn (x : Reg) (y : Reg) (off : BitVec 12) (s : State) : exec (.bcLtn x y off) s = execBcLtn x y off s := rfl
theorem exec_bcGen (x : Reg) (y : Reg) (off : BitVec 12) (s : State) : exec (.bcGen x y off) s = execBcGen x y off s := rfl
theorem exec_bcAny (x : Reg) (y : Reg) (off : BitVec 12) (s : State) : exec (.bcAny x y off) s = execBcAny x y off s := rfl
theorem exec_bcNone (x : Reg) (y : Reg) (off : BitVec 12) (s : State) : exec (.bcNone x y off) s = execBcNone x y off s := rfl
theorem exec_fbcEq (p : Prec) (x : Reg) (y : Reg) (off : BitVec 12) (s : State) : exec (.fbcEq p x y off) s = execFbcEq p x y off s := rfl
theorem exec_fbcNe (p : Prec) (x : Reg) (y : Reg) (off : BitVec 12) (s : State) : exec (.fbcNe p x y off) s = execFbcNe p x y off s := rfl
theorem exec_fbcLt (p : Prec) (x : Reg) (y : Reg) (off : BitVec 12) (s : State) : exec (.fbcLt p x y off) s = execFbcLt p x y off s := rfl
theorem exec_fbcLe (p : Prec) (x : Reg) (y : Reg) (off : BitVec 12) (s : State) : exec (.fbcLe p x y off) s = execFbcLe p x y off s := rfl
theorem exec_fbcUn (p : Prec) (x : Reg) (y : Reg) (off : BitVec 12) (s : State) : exec (.fbcUn p x y off) s = execFbcUn p x y off s := rfl
theorem exec_fbcOrd (p : Prec) (x : Reg) (y : Reg) (off : BitVec 12) (s : State) : exec (.fbcOrd p x y off) s = execFbcOrd p x y off s := rfl
theorem exec_jr (a : Reg) (s : State) : exec (.jr a) s = execJr a s := rfl
theorem exec_jlr (d : Reg) (a : Reg) (s : State) : exec (.jlr d a) s = execJlr d a s := rfl
theorem exec_loop0 (c : Reg) (len : BitVec 16) (s : State) : exec (.loop0 c len) s = execLoop0 c len s := rfl
theorem exec_loop1 (c : Reg) (len : BitVec 16) (s : State) : exec (.loop1 c len) s = execLoop1 c len s := rfl
theorem exec_done (s : State) : exec (.done) s = execDone s := rfl
theorem exec_commit (s : State) : exec (.commit) s = execCommit s := rfl
theorem exec_yield (s : State) : exec (.yield) s = execYield s := rfl
theorem exec_abort (s : State) : exec (.abort) s = execAbort s := rfl
theorem exec_requeue (s : State) : exec (.requeue) s = execRequeue s := rfl
theorem exec_trap (e : BitVec 8) (s : State) : exec (.trap e) s = execTrap e s := rfl
theorem exec_tret (s : State) : exec (.tret) s = execTret s := rfl
theorem exec_nop (s : State) : exec (.nop) s = execNop s := rfl
theorem exec_waitf (a : Reg) (s : State) : exec (.waitf a) s = execWaitf a s := rfl
theorem exec_migrate (cls : BitVec 8) (a : Reg) (s : State) : exec (.migrate cls a) s = execMigrate cls a s := rfl
theorem exec_mfs (d : Reg) (e : StateReg) (s : State) : exec (.mfs d e) s = execMfs d e s := rfl
theorem exec_mts (e : StateReg) (a : Reg) (s : State) : exec (.mts e a) s = execMts e a s := rfl
theorem exec_ldbs (d : Reg) (a : Reg) (imm : BitVec 12) (s : State) : exec (.ldbs d a imm) s = execLdbs d a imm s := rfl
theorem exec_ldbz (d : Reg) (a : Reg) (imm : BitVec 12) (s : State) : exec (.ldbz d a imm) s = execLdbz d a imm s := rfl
theorem exec_ldhs (d : Reg) (a : Reg) (imm : BitVec 12) (s : State) : exec (.ldhs d a imm) s = execLdhs d a imm s := rfl
theorem exec_ldhz (d : Reg) (a : Reg) (imm : BitVec 12) (s : State) : exec (.ldhz d a imm) s = execLdhz d a imm s := rfl
theorem exec_ldws (d : Reg) (a : Reg) (imm : BitVec 12) (s : State) : exec (.ldws d a imm) s = execLdws d a imm s := rfl
theorem exec_ldwz (d : Reg) (a : Reg) (imm : BitVec 12) (s : State) : exec (.ldwz d a imm) s = execLdwz d a imm s := rfl
theorem exec_ldd (d : Reg) (a : Reg) (imm : BitVec 12) (s : State) : exec (.ldd d a imm) s = execLdd d a imm s := rfl
theorem exec_stb (d : Reg) (a : Reg) (imm : BitVec 12) (s : State) : exec (.stb d a imm) s = execStb d a imm s := rfl
theorem exec_sth (d : Reg) (a : Reg) (imm : BitVec 12) (s : State) : exec (.sth d a imm) s = execSth d a imm s := rfl
theorem exec_stw (d : Reg) (a : Reg) (imm : BitVec 12) (s : State) : exec (.stw d a imm) s = execStw d a imm s := rfl
theorem exec_std (d : Reg) (a : Reg) (imm : BitVec 12) (s : State) : exec (.std d a imm) s = execStd d a imm s := rfl
theorem exec_lddW (d : Reg) (a : Reg) (imm : BitVec 12) (s : State) : exec (.lddW d a imm) s = execLddW d a imm s := rfl
theorem exec_lddWc (d : Reg) (a : Reg) (imm : BitVec 12) (s : State) : exec (.lddWc d a imm) s = execLddWc d a imm s := rfl
theorem exec_lddT (d : Reg) (a : Reg) (imm : BitVec 12) (s : State) : exec (.lddT d a imm) s = execLddT d a imm s := rfl
theorem exec_lddTc (d : Reg) (a : Reg) (imm : BitVec 12) (s : State) : exec (.lddTc d a imm) s = execLddTc d a imm s := rfl
theorem exec_fetest (d : Reg) (a : Reg) (imm : BitVec 12) (s : State) : exec (.fetest d a imm) s = execFetest d a imm s := rfl
theorem exec_stdF (d : Reg) (a : Reg) (imm : BitVec 12) (s : State) : exec (.stdF d a imm) s = execStdF d a imm s := rfl
theorem exec_stdWf (d : Reg) (a : Reg) (imm : BitVec 12) (s : State) : exec (.stdWf d a imm) s = execStdWf d a imm s := rfl
theorem exec_feset (a : Reg) (imm : BitVec 12) (s : State) : exec (.feset a imm) s = execFeset a imm s := rfl
theorem exec_feclr (a : Reg) (imm : BitVec 12) (s : State) : exec (.feclr a imm) s = execFeclr a imm s := rfl
theorem exec_amoAdd (o : Order) (sz : AmoSize) (d : Reg) (a : Reg) (b : Reg) (s : State) : exec (.amoAdd o sz d a b) s = execAmoAdd o sz d a b s := rfl
theorem exec_amoAnd (o : Order) (sz : AmoSize) (d : Reg) (a : Reg) (b : Reg) (s : State) : exec (.amoAnd o sz d a b) s = execAmoAnd o sz d a b s := rfl
theorem exec_amoOr (o : Order) (sz : AmoSize) (d : Reg) (a : Reg) (b : Reg) (s : State) : exec (.amoOr o sz d a b) s = execAmoOr o sz d a b s := rfl
theorem exec_amoXor (o : Order) (sz : AmoSize) (d : Reg) (a : Reg) (b : Reg) (s : State) : exec (.amoXor o sz d a b) s = execAmoXor o sz d a b s := rfl
theorem exec_amoMin (o : Order) (sz : AmoSize) (d : Reg) (a : Reg) (b : Reg) (s : State) : exec (.amoMin o sz d a b) s = execAmoMin o sz d a b s := rfl
theorem exec_amoMax (o : Order) (sz : AmoSize) (d : Reg) (a : Reg) (b : Reg) (s : State) : exec (.amoMax o sz d a b) s = execAmoMax o sz d a b s := rfl
theorem exec_amoMinn (o : Order) (sz : AmoSize) (d : Reg) (a : Reg) (b : Reg) (s : State) : exec (.amoMinn o sz d a b) s = execAmoMinn o sz d a b s := rfl
theorem exec_amoMaxn (o : Order) (sz : AmoSize) (d : Reg) (a : Reg) (b : Reg) (s : State) : exec (.amoMaxn o sz d a b) s = execAmoMaxn o sz d a b s := rfl
theorem exec_amoSwap (o : Order) (sz : AmoSize) (d : Reg) (a : Reg) (b : Reg) (s : State) : exec (.amoSwap o sz d a b) s = execAmoSwap o sz d a b s := rfl
theorem exec_amoCas (o : Order) (sz : AmoSize) (d : Reg) (a : Reg) (b : Reg) (c : Reg) (s : State) : exec (.amoCas o sz d a b c) s = execAmoCas o sz d a b c s := rfl
theorem exec_amoFadd (o : Order) (sz : AmoSize) (d : Reg) (a : Reg) (b : Reg) (s : State) : exec (.amoFadd o sz d a b) s = execAmoFadd o sz d a b s := rfl
theorem exec_fence (sc : Scope) (s : State) : exec (.fence sc) s = execFence sc s := rfl
theorem exec_fenceAcq (sc : Scope) (s : State) : exec (.fenceAcq sc) s = execFenceAcq sc s := rfl
theorem exec_fenceRel (sc : Scope) (s : State) : exec (.fenceRel sc) s = execFenceRel sc s := rfl
theorem exec_fenceEng (s : State) : exec (.fenceEng) s = execFenceEng s := rfl
theorem exec_send (cls : BitVec 8) (a : Reg) (p : Reg) (n : BitVec 4) (s : State) : exec (.send cls a p n) s = execSend cls a p n s := rfl
theorem exec_sendx (cls : BitVec 8) (a : Reg) (b : Reg) (c : Reg) (s : State) : exec (.sendx cls a b c) s = execSendx cls a b c s := rfl
theorem exec_sendg (cls : BitVec 8) (a : Reg) (p : Reg) (n : BitVec 4) (s : State) : exec (.sendg cls a p n) s = execSendg cls a p n s := rfl
theorem exec_get (a : Reg) (b : Reg) (c : Reg) (s : State) : exec (.get a b c) s = execGet a b c s := rfl
theorem exec_getN (d : Reg) (a : Reg) (b : Reg) (c : Reg) (s : State) : exec (.getN d a b c) s = execGetN d a b c s := rfl
theorem exec_put (a : Reg) (b : Reg) (c : Reg) (s : State) : exec (.put a b c) s = execPut a b c s := rfl
theorem exec_putF (a : Reg) (b : Reg) (c : Reg) (s : State) : exec (.putF a b c) s = execPutF a b c s := rfl
theorem exec_putN (d : Reg) (a : Reg) (b : Reg) (c : Reg) (s : State) : exec (.putN d a b c) s = execPutN d a b c s := rfl
theorem exec_putFn (d : Reg) (a : Reg) (b : Reg) (c : Reg) (s : State) : exec (.putFn d a b c) s = execPutFn d a b c s := rfl
theorem exec_carm (a : Reg) (b : Reg) (c : Reg) (s : State) : exec (.carm a b c) s = execCarm a b c s := rfl
theorem exec_cadd (d : Reg) (a : Reg) (b : Reg) (s : State) : exec (.cadd d a b) s = execCadd d a b s := rfl
theorem exec_crd (d : Reg) (a : Reg) (s : State) : exec (.crd d a) s = execCrd d a s := rfl
theorem exec_cdis (a : Reg) (s : State) : exec (.cdis a) s = execCdis a s := rfl
theorem exec_cinc (a : Reg) (b : Reg) (c : Reg) (s : State) : exec (.cinc a b c) s = execCinc a b c s := rfl
theorem exec_msgld (d : Reg) (w : BitVec 5) (s : State) : exec (.msgld d w) s = execMsgld d w s := rfl
theorem exec_msghd (d : Reg) (h : BitVec 1) (s : State) : exec (.msghd d h) s = execMsghd d h s := rfl
theorem exec_msgid (d : Reg) (s : State) : exec (.msgid d) s = execMsgid d s := rfl
theorem exec_msglen (d : Reg) (s : State) : exec (.msglen d) s = execMsglen d s := rfl
theorem exec_rresv (d : Reg) (a : Reg) (b : Reg) (s : State) : exec (.rresv d a b) s = execRresv d a b s := rfl
theorem exec_rpubl (a : Reg) (b : Reg) (c : Reg) (s : State) : exec (.rpubl a b c) s = execRpubl a b c s := rfl
theorem exec_rhead (d : Reg) (a : Reg) (s : State) : exec (.rhead d a) s = execRhead d a s := rfl
theorem exec_rcons (a : Reg) (b : Reg) (s : State) : exec (.rcons a b) s = execRcons a b s := rfl
theorem exec_fadd (p : Prec) (r : Rnd) (d : Reg) (a : Reg) (b : Reg) (s : State) : exec (.fadd p r d a b) s = execFadd p r d a b s := rfl
theorem exec_fsub (p : Prec) (r : Rnd) (d : Reg) (a : Reg) (b : Reg) (s : State) : exec (.fsub p r d a b) s = execFsub p r d a b s := rfl
theorem exec_fmul (p : Prec) (r : Rnd) (d : Reg) (a : Reg) (b : Reg) (s : State) : exec (.fmul p r d a b) s = execFmul p r d a b s := rfl
theorem exec_fdiv (p : Prec) (r : Rnd) (d : Reg) (a : Reg) (b : Reg) (s : State) : exec (.fdiv p r d a b) s = execFdiv p r d a b s := rfl
theorem exec_fsqrt (p : Prec) (r : Rnd) (d : Reg) (a : Reg) (s : State) : exec (.fsqrt p r d a) s = execFsqrt p r d a s := rfl
theorem exec_fmin (p : Prec) (d : Reg) (a : Reg) (b : Reg) (s : State) : exec (.fmin p d a b) s = execFmin p d a b s := rfl
theorem exec_fmax (p : Prec) (d : Reg) (a : Reg) (b : Reg) (s : State) : exec (.fmax p d a b) s = execFmax p d a b s := rfl
theorem exec_fabs (p : Prec) (d : Reg) (a : Reg) (s : State) : exec (.fabs p d a) s = execFabs p d a s := rfl
theorem exec_fneg (p : Prec) (d : Reg) (a : Reg) (s : State) : exec (.fneg p d a) s = execFneg p d a s := rfl
theorem exec_fcpys (p : Prec) (d : Reg) (a : Reg) (b : Reg) (s : State) : exec (.fcpys p d a b) s = execFcpys p d a b s := rfl
theorem exec_ffma (p : Prec) (r : Rnd) (d : Reg) (a : Reg) (b : Reg) (c : Reg) (s : State) : exec (.ffma p r d a b c) s = execFfma p r d a b c s := rfl
theorem exec_ffms (p : Prec) (r : Rnd) (d : Reg) (a : Reg) (b : Reg) (c : Reg) (s : State) : exec (.ffms p r d a b c) s = execFfms p r d a b c s := rfl
theorem exec_fnfma (p : Prec) (r : Rnd) (d : Reg) (a : Reg) (b : Reg) (c : Reg) (s : State) : exec (.fnfma p r d a b c) s = execFnfma p r d a b c s := rfl
theorem exec_fnfms (p : Prec) (r : Rnd) (d : Reg) (a : Reg) (b : Reg) (c : Reg) (s : State) : exec (.fnfms p r d a b c) s = execFnfms p r d a b c s := rfl
theorem exec_feq (p : Prec) (d : Reg) (a : Reg) (b : Reg) (s : State) : exec (.feq p d a b) s = execFeq p d a b s := rfl
theorem exec_flt (p : Prec) (d : Reg) (a : Reg) (b : Reg) (s : State) : exec (.flt p d a b) s = execFlt p d a b s := rfl
theorem exec_fle (p : Prec) (d : Reg) (a : Reg) (b : Reg) (s : State) : exec (.fle p d a b) s = execFle p d a b s := rfl
theorem exec_fun (p : Prec) (d : Reg) (a : Reg) (b : Reg) (s : State) : exec (.fun p d a b) s = execFun p d a b s := rfl
theorem exec_fclass (p : Prec) (d : Reg) (a : Reg) (s : State) : exec (.fclass p d a) s = execFclass p d a s := rfl
theorem exec_fcvtp (p : Prec) (r : Rnd) (d : Reg) (a : Reg) (s : State) : exec (.fcvtp p r d a) s = execFcvtp p r d a s := rfl
theorem exec_ftos (p : Prec) (r : Rnd) (d : Reg) (a : Reg) (s : State) : exec (.ftos p r d a) s = execFtos p r d a s := rfl
theorem exec_fton (p : Prec) (r : Rnd) (d : Reg) (a : Reg) (s : State) : exec (.fton p r d a) s = execFton p r d a s := rfl
theorem exec_stof (p : Prec) (r : Rnd) (d : Reg) (a : Reg) (s : State) : exec (.stof p r d a) s = execStof p r d a s := rfl
theorem exec_ntof (p : Prec) (r : Rnd) (d : Reg) (a : Reg) (s : State) : exec (.ntof p r d a) s = execNtof p r d a s := rfl
theorem exec_frint (p : Prec) (r : Rnd) (d : Reg) (a : Reg) (s : State) : exec (.frint p r d a) s = execFrint p r d a s := rfl
theorem exec_vadd (t : ElemType) (z : Bool) (d : Reg) (a : Reg) (b : Reg) (k : KReg) (s : State) : exec (.vadd t z d a b k) s = execVadd t z d a b k s := rfl
theorem exec_vsub (t : ElemType) (z : Bool) (d : Reg) (a : Reg) (b : Reg) (k : KReg) (s : State) : exec (.vsub t z d a b k) s = execVsub t z d a b k s := rfl
theorem exec_vmul (t : ElemType) (z : Bool) (d : Reg) (a : Reg) (b : Reg) (k : KReg) (s : State) : exec (.vmul t z d a b k) s = execVmul t z d a b k s := rfl
theorem exec_vmin (t : ElemType) (z : Bool) (d : Reg) (a : Reg) (b : Reg) (k : KReg) (s : State) : exec (.vmin t z d a b k) s = execVmin t z d a b k s := rfl
theorem exec_vmax (t : ElemType) (z : Bool) (d : Reg) (a : Reg) (b : Reg) (k : KReg) (s : State) : exec (.vmax t z d a b k) s = execVmax t z d a b k s := rfl
theorem exec_vabs (t : ElemType) (z : Bool) (d : Reg) (a : Reg) (k : KReg) (s : State) : exec (.vabs t z d a k) s = execVabs t z d a k s := rfl
theorem exec_vneg (t : ElemType) (z : Bool) (d : Reg) (a : Reg) (k : KReg) (s : State) : exec (.vneg t z d a k) s = execVneg t z d a k s := rfl
theorem exec_vadds (t : ElemType) (z : Bool) (d : Reg) (a : Reg) (b : Reg) (k : KReg) (s : State) : exec (.vadds t z d a b k) s = execVadds t z d a b k s := rfl
theorem exec_vsubs (t : ElemType) (z : Bool) (d : Reg) (a : Reg) (b : Reg) (k : KReg) (s : State) : exec (.vsubs t z d a b k) s = execVsubs t z d a b k s := rfl
theorem exec_vmulh (t : ElemType) (z : Bool) (d : Reg) (a : Reg) (b : Reg) (k : KReg) (s : State) : exec (.vmulh t z d a b k) s = execVmulh t z d a b k s := rfl
theorem exec_vdiv (t : ElemType) (z : Bool) (d : Reg) (a : Reg) (b : Reg) (k : KReg) (s : State) : exec (.vdiv t z d a b k) s = execVdiv t z d a b k s := rfl
theorem exec_vsqrt (t : ElemType) (z : Bool) (d : Reg) (a : Reg) (k : KReg) (s : State) : exec (.vsqrt t z d a k) s = execVsqrt t z d a k s := rfl
theorem exec_vavg (t : ElemType) (z : Bool) (d : Reg) (a : Reg) (b : Reg) (k : KReg) (s : State) : exec (.vavg t z d a b k) s = execVavg t z d a b k s := rfl
theorem exec_vfma (t : ElemType) (z : Bool) (d : Reg) (a : Reg) (b : Reg) (k : KReg) (s : State) : exec (.vfma t z d a b k) s = execVfma t z d a b k s := rfl
theorem exec_vfms (t : ElemType) (z : Bool) (d : Reg) (a : Reg) (b : Reg) (k : KReg) (s : State) : exec (.vfms t z d a b k) s = execVfms t z d a b k s := rfl
theorem exec_vnfma (t : ElemType) (z : Bool) (d : Reg) (a : Reg) (b : Reg) (k : KReg) (s : State) : exec (.vnfma t z d a b k) s = execVnfma t z d a b k s := rfl
theorem exec_vmac (t : ElemType) (z : Bool) (d : Reg) (a : Reg) (b : Reg) (k : KReg) (s : State) : exec (.vmac t z d a b k) s = execVmac t z d a b k s := rfl
theorem exec_vdot2 (t : ElemType) (z : Bool) (d : Reg) (a : Reg) (b : Reg) (k : KReg) (s : State) : exec (.vdot2 t z d a b k) s = execVdot2 t z d a b k s := rfl
theorem exec_vdot4 (t : ElemType) (z : Bool) (d : Reg) (a : Reg) (b : Reg) (k : KReg) (s : State) : exec (.vdot4 t z d a b k) s = execVdot4 t z d a b k s := rfl
theorem exec_vdot4i (t : ElemType) (z : Bool) (d : Reg) (a : Reg) (b : Reg) (k : KReg) (s : State) : exec (.vdot4i t z d a b k) s = execVdot4i t z d a b k s := rfl
theorem exec_vand (t : ElemType) (z : Bool) (d : Reg) (a : Reg) (b : Reg) (k : KReg) (s : State) : exec (.vand t z d a b k) s = execVand t z d a b k s := rfl
theorem exec_vor (t : ElemType) (z : Bool) (d : Reg) (a : Reg) (b : Reg) (k : KReg) (s : State) : exec (.vor t z d a b k) s = execVor t z d a b k s := rfl
theorem exec_vxor (t : ElemType) (z : Bool) (d : Reg) (a : Reg) (b : Reg) (k : KReg) (s : State) : exec (.vxor t z d a b k) s = execVxor t z d a b k s := rfl
theorem exec_vandn (t : ElemType) (z : Bool) (d : Reg) (a : Reg) (b : Reg) (k : KReg) (s : State) : exec (.vandn t z d a b k) s = execVandn t z d a b k s := rfl
theorem exec_vshl (t : ElemType) (z : Bool) (d : Reg) (a : Reg) (b : Reg) (k : KReg) (s : State) : exec (.vshl t z d a b k) s = execVshl t z d a b k s := rfl
theorem exec_vshr (t : ElemType) (z : Bool) (d : Reg) (a : Reg) (b : Reg) (k : KReg) (s : State) : exec (.vshr t z d a b k) s = execVshr t z d a b k s := rfl
theorem exec_vsar (t : ElemType) (z : Bool) (d : Reg) (a : Reg) (b : Reg) (k : KReg) (s : State) : exec (.vsar t z d a b k) s = execVsar t z d a b k s := rfl
theorem exec_vrol (t : ElemType) (z : Bool) (d : Reg) (a : Reg) (b : Reg) (k : KReg) (s : State) : exec (.vrol t z d a b k) s = execVrol t z d a b k s := rfl
theorem exec_vnot (t : ElemType) (z : Bool) (d : Reg) (a : Reg) (k : KReg) (s : State) : exec (.vnot t z d a k) s = execVnot t z d a k s := rfl
theorem exec_vcmpEq (t : ElemType) (d : KReg) (a : Reg) (b : Reg) (k : KReg) (s : State) : exec (.vcmpEq t d a b k) s = execVcmpEq t d a b k s := rfl
theorem exec_vcmpNe (t : ElemType) (d : KReg) (a : Reg) (b : Reg) (k : KReg) (s : State) : exec (.vcmpNe t d a b k) s = execVcmpNe t d a b k s := rfl
theorem exec_vcmpLt (t : ElemType) (d : KReg) (a : Reg) (b : Reg) (k : KReg) (s : State) : exec (.vcmpLt t d a b k) s = execVcmpLt t d a b k s := rfl
theorem exec_vcmpLe (t : ElemType) (d : KReg) (a : Reg) (b : Reg) (k : KReg) (s : State) : exec (.vcmpLe t d a b k) s = execVcmpLe t d a b k s := rfl
theorem exec_vcmpGt (t : ElemType) (d : KReg) (a : Reg) (b : Reg) (k : KReg) (s : State) : exec (.vcmpGt t d a b k) s = execVcmpGt t d a b k s := rfl
theorem exec_vcmpGe (t : ElemType) (d : KReg) (a : Reg) (b : Reg) (k : KReg) (s : State) : exec (.vcmpGe t d a b k) s = execVcmpGe t d a b k s := rfl
theorem exec_vcmpUn (t : ElemType) (d : KReg) (a : Reg) (b : Reg) (k : KReg) (s : State) : exec (.vcmpUn t d a b k) s = execVcmpUn t d a b k s := rfl
theorem exec_vbcast (t : ElemType) (z : Bool) (d : Reg) (a : Reg) (k : KReg) (s : State) : exec (.vbcast t z d a k) s = execVbcast t z d a k s := rfl
theorem exec_vperm (t : ElemType) (z : Bool) (d : Reg) (a : Reg) (b : Reg) (k : KReg) (s : State) : exec (.vperm t z d a b k) s = execVperm t z d a b k s := rfl
theorem exec_vsel (t : ElemType) (d : Reg) (a : Reg) (b : Reg) (k : KReg) (s : State) : exec (.vsel t d a b k) s = execVsel t d a b k s := rfl
theorem exec_vext (t : ElemType) (d : Reg) (a : Reg) (b : Reg) (s : State) : exec (.vext t d a b) s = execVext t d a b s := rfl
theorem exec_vins (t : ElemType) (d : Reg) (a : Reg) (b : Reg) (s : State) : exec (.vins t d a b) s = execVins t d a b s := rfl
theorem exec_vzipl (t : ElemType) (z : Bool) (d : Reg) (a : Reg) (b : Reg) (k : KReg) (s : State) : exec (.vzipl t z d a b k) s = execVzipl t z d a b k s := rfl
theorem exec_vziph (t : ElemType) (z : Bool) (d : Reg) (a : Reg) (b : Reg) (k : KReg) (s : State) : exec (.vziph t z d a b k) s = execVziph t z d a b k s := rfl
theorem exec_vuzpe (t : ElemType) (z : Bool) (d : Reg) (a : Reg) (b : Reg) (k : KReg) (s : State) : exec (.vuzpe t z d a b k) s = execVuzpe t z d a b k s := rfl
theorem exec_vuzpo (t : ElemType) (z : Bool) (d : Reg) (a : Reg) (b : Reg) (k : KReg) (s : State) : exec (.vuzpo t z d a b k) s = execVuzpo t z d a b k s := rfl
theorem exec_viota (t : ElemType) (z : Bool) (d : Reg) (k : KReg) (s : State) : exec (.viota t z d k) s = execViota t z d k s := rfl
theorem exec_vcmprs (t : ElemType) (z : Bool) (d : Reg) (a : Reg) (k : KReg) (s : State) : exec (.vcmprs t z d a k) s = execVcmprs t z d a k s := rfl
theorem exec_vsldn (t : ElemType) (z : Bool) (d : Reg) (a : Reg) (b : Reg) (k : KReg) (s : State) : exec (.vsldn t z d a b k) s = execVsldn t z d a b k s := rfl
theorem exec_vcvt (hi : Bool) (sat : Bool) (r : VRnd) (t : ElemType) (src : ElemType) (z : Bool) (k : KReg) (d : Reg) (a : Reg) (s : State) : exec (.vcvt hi sat r t src z k d a) s = execVcvt hi sat r t src z k d a s := rfl
theorem exec_vrsum (t : ElemType) (d : Reg) (a : Reg) (k : KReg) (s : State) : exec (.vrsum t d a k) s = execVrsum t d a k s := rfl
theorem exec_vrsumt (t : ElemType) (d : Reg) (a : Reg) (k : KReg) (s : State) : exec (.vrsumt t d a k) s = execVrsumt t d a k s := rfl
theorem exec_vrmin (t : ElemType) (d : Reg) (a : Reg) (k : KReg) (s : State) : exec (.vrmin t d a k) s = execVrmin t d a k s := rfl
theorem exec_vrmax (t : ElemType) (d : Reg) (a : Reg) (k : KReg) (s : State) : exec (.vrmax t d a k) s = execVrmax t d a k s := rfl
theorem exec_vrand (t : ElemType) (d : Reg) (a : Reg) (k : KReg) (s : State) : exec (.vrand t d a k) s = execVrand t d a k s := rfl
theorem exec_vror (t : ElemType) (d : Reg) (a : Reg) (k : KReg) (s : State) : exec (.vror t d a k) s = execVror t d a k s := rfl
theorem exec_vrxor (t : ElemType) (d : Reg) (a : Reg) (k : KReg) (s : State) : exec (.vrxor t d a k) s = execVrxor t d a k s := rfl
theorem exec_vld (d : Reg) (a : Reg) (imm : BitVec 12) (s : State) : exec (.vld d a imm) s = execVld d a imm s := rfl
theorem exec_vldW (d : Reg) (a : Reg) (imm : BitVec 12) (s : State) : exec (.vldW d a imm) s = execVldW d a imm s := rfl
theorem exec_vldb (d : Reg) (a : Reg) (imm : BitVec 12) (s : State) : exec (.vldb d a imm) s = execVldb d a imm s := rfl
theorem exec_vst (d : Reg) (a : Reg) (imm : BitVec 12) (s : State) : exec (.vst d a imm) s = execVst d a imm s := rfl
theorem exec_vstF (d : Reg) (a : Reg) (imm : BitVec 12) (s : State) : exec (.vstF d a imm) s = execVstF d a imm s := rfl
theorem exec_vgath (t : ElemType) (z : Bool) (d : Reg) (a : Reg) (b : Reg) (k : KReg) (s : State) : exec (.vgath t z d a b k) s = execVgath t z d a b k s := rfl
theorem exec_vscat (t : ElemType) (d : Reg) (a : Reg) (b : Reg) (k : KReg) (s : State) : exec (.vscat t d a b k) s = execVscat t d a b k s := rfl
theorem exec_vscata (t : ElemType) (d : Reg) (a : Reg) (b : Reg) (k : KReg) (s : State) : exec (.vscata t d a b k) s = execVscata t d a b k s := rfl
theorem exec_vldt (t : ElemType) (z : Bool) (d : Reg) (a : Reg) (b : Reg) (k : KReg) (s : State) : exec (.vldt t z d a b k) s = execVldt t z d a b k s := rfl
theorem exec_vstq (t : ElemType) (sr : Bool) (d : Reg) (a : Reg) (b : Reg) (s : State) : exec (.vstq t sr d a b) s = execVstq t sr d a b s := rfl
theorem exec_kand (d : KReg) (a : KReg) (b : KReg) (s : State) : exec (.kand d a b) s = execKand d a b s := rfl
theorem exec_kor (d : KReg) (a : KReg) (b : KReg) (s : State) : exec (.kor d a b) s = execKor d a b s := rfl
theorem exec_kxor (d : KReg) (a : KReg) (b : KReg) (s : State) : exec (.kxor d a b) s = execKxor d a b s := rfl
theorem exec_kandn (d : KReg) (a : KReg) (b : KReg) (s : State) : exec (.kandn d a b) s = execKandn d a b s := rfl
theorem exec_knot (d : KReg) (a : KReg) (s : State) : exec (.knot d a) s = execKnot d a s := rfl
theorem exec_kfromg (d : KReg) (a : Reg) (s : State) : exec (.kfromg d a) s = execKfromg d a s := rfl
theorem exec_ktog (d : Reg) (a : KReg) (s : State) : exec (.ktog d a) s = execKtog d a s := rfl
theorem exec_kpopc (d : Reg) (a : KReg) (s : State) : exec (.kpopc d a) s = execKpopc d a s := rfl
theorem exec_kfirst (d : Reg) (a : KReg) (s : State) : exec (.kfirst d a) s = execKfirst d a s := rfl
theorem exec_mpost (d : Reg) (a : Reg) (s : State) : exec (.mpost d a) s = execMpost d a s := rfl
theorem exec_mseq (d : Reg) (s : State) : exec (.mseq d) s = execMseq d s := rfl
theorem exec_mwait (a : Reg) (s : State) : exec (.mwait a) s = execMwait a s := rfl
theorem exec_mstat (d : Reg) (a : Reg) (s : State) : exec (.mstat d a) s = execMstat d a s := rfl
theorem exec_cpost (d : Reg) (a : Reg) (s : State) : exec (.cpost d a) s = execCpost d a s := rfl
theorem exec_cseq (d : Reg) (s : State) : exec (.cseq d) s = execCseq d s := rfl
theorem exec_cwait (a : Reg) (s : State) : exec (.cwait a) s = execCwait a s := rfl
theorem exec_cstat (d : Reg) (a : Reg) (s : State) : exec (.cstat d a) s = execCstat d a s := rfl
theorem exec_txbeg (d : Reg) (a : Reg) (s : State) : exec (.txbeg d a) s = execTxbeg d a s := rfl
theorem exec_txcommit (d : Reg) (s : State) : exec (.txcommit d) s = execTxcommit d s := rfl
theorem exec_txend (d : Reg) (s : State) : exec (.txend d) s = execTxend d s := rfl
theorem exec_lkacq (d : Reg) (a : Reg) (b : Reg) (s : State) : exec (.lkacq d a b) s = execLkacq d a b s := rfl
theorem exec_lkacqm (d : Reg) (a : Reg) (b : Reg) (c : Reg) (s : State) : exec (.lkacqm d a b c) s = execLkacqm d a b c s := rfl
theorem exec_lktry (d : Reg) (a : Reg) (b : Reg) (s : State) : exec (.lktry d a b) s = execLktry d a b s := rfl
theorem exec_lkcvt (d : Reg) (a : Reg) (b : Reg) (s : State) : exec (.lkcvt d a b) s = execLkcvt d a b s := rfl
theorem exec_lkrel (d : Reg) (a : Reg) (s : State) : exec (.lkrel d a) s = execLkrel d a s := rfl
theorem exec_lkmat (d : Reg) (a : Reg) (s : State) : exec (.lkmat d a) s = execLkmat d a s := rfl
theorem exec_lease (d : Reg) (a : Reg) (b : Reg) (s : State) : exec (.lease d a b) s = execLease d a b s := rfl
theorem exec_leaser (d : Reg) (a : Reg) (s : State) : exec (.leaser d a) s = execLeaser d a s := rfl
theorem exec_lkqry (d : Reg) (a : Reg) (b : Reg) (s : State) : exec (.lkqry d a b) s = execLkqry d a b s := rfl
theorem exec_snap (d : Reg) (s : State) : exec (.snap d) s = execSnap d s := rfl
theorem exec_snapq (d : Reg) (a : Reg) (s : State) : exec (.snapq d a) s = execSnapq d a s := rfl
theorem exec_resumeq (d : Reg) (s : State) : exec (.resumeq d) s = execResumeq d s := rfl
theorem exec_trig (s : State) : exec (.trig) s = execTrig s := rfl
theorem exec_time (d : Reg) (s : State) : exec (.time d) s = execTime d s := rfl
theorem exec_cycle (d : Reg) (s : State) : exec (.cycle d) s = execCycle d s := rfl
theorem exec_xinv (a : Reg) (b : Reg) (s : State) : exec (.xinv a b) s = execXinv a b s := rfl
theorem exec_inject (a : Reg) (b : Reg) (s : State) : exec (.inject a b) s = execInject a b s := rfl
theorem exec_xinvComplete (t : Nat) (c : Nat) (s : State) : exec (.xinvComplete t c) s = execXinvComplete t c s := rfl
theorem exec_routerCycle (s : State) : exec (.routerCycle) s = execRouterCycle s := rfl
theorem exec_handlerMessageArrival (t : Nat) (s : State) : exec (.handlerMessageArrival t) s = execHandlerMessageArrival t s := rfl
theorem exec_localArrivalRetry (t : Nat) (s : State) : exec (.localArrivalRetry t) s = execLocalArrivalRetry t s := rfl
theorem exec_galleryRecordRead (t : Nat) (s : State) : exec (.galleryRecordRead t) s = execGalleryRecordRead t s := rfl
theorem exec_dispatch (t : Nat) (s : State) : exec (.dispatch t) s = execDispatch t s := rfl
theorem exec_hlimitExpiry (t : Nat) (c : Nat) (s : State) : exec (.hlimitExpiry t c) s = execHlimitExpiry t c s := rfl
theorem exec_ageReport (t : Nat) (p : Nat) (s : State) : exec (.ageReport t p) s = execAgeReport t p s := rfl
theorem exec_xlateResolution (s : State) : exec (.xlateResolution) s = execXlateResolution s := rfl
theorem exec_getRequest (n : Nat) (s : State) : exec (.getRequest n) s = execGetRequest n s := rfl
theorem exec_putRequest (n : Nat) (s : State) : exec (.putRequest n) s = execPutRequest n s := rfl
theorem exec_atomicRequest (n : Nat) (s : State) : exec (.atomicRequest n) s = execAtomicRequest n s := rfl
theorem exec_ringRequest (n : Nat) (s : State) : exec (.ringRequest n) s = execRingRequest n s := rfl
theorem exec_counterIncrement (t : Nat) (s : State) : exec (.counterIncrement t) s = execCounterIncrement t s := rfl
theorem exec_replyData (t : Nat) (s : State) : exec (.replyData t) s = execReplyData t s := rfl
theorem exec_replyStatus (t : Nat) (s : State) : exec (.replyStatus t) s = execReplyStatus t s := rfl
theorem exec_forwardedFlit (t : Nat) (s : State) : exec (.forwardedFlit t) s = execForwardedFlit t s := rfl
theorem exec_commitRoomWaitEnd (t : Nat) (c : Nat) (s : State) : exec (.commitRoomWaitEnd t c) s = execCommitRoomWaitEnd t c s := rfl
theorem exec_counterActionLaunch (t : Nat) (s : State) : exec (.counterActionLaunch t) s = execCounterActionLaunch t s := rfl
theorem exec_counterActionMpost (t : Nat) (s : State) : exec (.counterActionMpost t) s = execCounterActionMpost t s := rfl
theorem exec_counterActionCpost (t : Nat) (s : State) : exec (.counterActionCpost t) s = execCounterActionCpost t s := rfl
theorem exec_counterActionSend (t : Nat) (s : State) : exec (.counterActionSend t) s = execCounterActionSend t s := rfl
theorem exec_counterActionSetfull (t : Nat) (s : State) : exec (.counterActionSetfull t) s = execCounterActionSetfull t s := rfl
theorem exec_heldUpdateApply (t : Nat) (s : State) : exec (.heldUpdateApply t) s = execHeldUpdateApply t s := rfl
theorem exec_mmaBf16 (t : Nat) (s : State) : exec (.mmaBf16 t) s = execMmaBf16 t s := rfl
theorem exec_mmaF16 (t : Nat) (s : State) : exec (.mmaF16 t) s = execMmaF16 t s := rfl
theorem exec_mmaE4m3 (t : Nat) (s : State) : exec (.mmaE4m3 t) s = execMmaE4m3 t s := rfl
theorem exec_mmaE5m2 (t : Nat) (s : State) : exec (.mmaE5m2 t) s = execMmaE5m2 t s := rfl
theorem exec_mmaE4e5 (t : Nat) (s : State) : exec (.mmaE4e5 t) s = execMmaE4e5 t s := rfl
theorem exec_mmaMxf4 (t : Nat) (s : State) : exec (.mmaMxf4 t) s = execMmaMxf4 t s := rfl
theorem exec_mmaQ4o (t : Nat) (s : State) : exec (.mmaQ4o t) s = execMmaQ4o t s := rfl
theorem exec_mmaF32 (t : Nat) (s : State) : exec (.mmaF32 t) s = execMmaF32 t s := rfl
theorem exec_mmaF64 (t : Nat) (s : State) : exec (.mmaF64 t) s = execMmaF64 t s := rfl
theorem exec_mmaSpBf16 (t : Nat) (s : State) : exec (.mmaSpBf16 t) s = execMmaSpBf16 t s := rfl
theorem exec_mmaSpE4m3 (t : Nat) (s : State) : exec (.mmaSpE4m3 t) s = execMmaSpE4m3 t s := rfl
theorem exec_aclr (t : Nat) (s : State) : exec (.aclr t) s = execAclr t s := rfl
theorem exec_aload (t : Nat) (s : State) : exec (.aload t) s = execAload t s := rfl
theorem exec_astore (t : Nat) (s : State) : exec (.astore t) s = execAstore t s := rfl
theorem exec_aadd (t : Nat) (s : State) : exec (.aadd t) s = execAadd t s := rfl
theorem exec_mark (t : Nat) (s : State) : exec (.mark t) s = execMark t s := rfl
theorem exec_matrixCommandComplete (t : Nat) (s : State) : exec (.matrixCommandComplete t) s = execMatrixCommandComplete t s := rfl
theorem exec_copy1d (t : Nat) (n : Nat) (s : State) : exec (.copy1d t n) s = execCopy1d t n s := rfl
theorem exec_copy2d (t : Nat) (n : Nat) (s : State) : exec (.copy2d t n) s = execCopy2d t n s := rfl
theorem exec_fill (t : Nat) (n : Nat) (s : State) : exec (.fill t n) s = execFill t n s := rfl
theorem exec_gatherrows (t : Nat) (n : Nat) (s : State) : exec (.gatherrows t n) s = execGatherrows t n s := rfl
theorem exec_scatterrows (t : Nat) (n : Nat) (s : State) : exec (.scatterrows t n) s = execScatterrows t n s := rfl
theorem exec_copyCommandComplete (t : Nat) (n : Nat) (s : State) : exec (.copyCommandComplete t n) s = execCopyCommandComplete t n s := rfl
theorem exec_leaveGrant (die : Nat) (s : State) : exec (.leaveGrant die) s = execLeaveGrant die s := rfl
theorem exec_governorPowerCheck (die : Nat) (dieMw : Nat) (pkgMw : Nat) (s : State) : exec (.governorPowerCheck die dieMw pkgMw) s = execGovernorPowerCheck die dieMw pkgMw s := rfl
theorem exec_lockAcquireRequest (die : Nat) (s : State) : exec (.lockAcquireRequest die) s = execLockAcquireRequest die s := rfl
theorem exec_lockConvertRequest (die : Nat) (s : State) : exec (.lockConvertRequest die) s = execLockConvertRequest die s := rfl
theorem exec_lockReleaseRequest (die : Nat) (s : State) : exec (.lockReleaseRequest die) s = execLockReleaseRequest die s := rfl
theorem exec_lockCancelRequest (die : Nat) (s : State) : exec (.lockCancelRequest die) s = execLockCancelRequest die s := rfl
theorem exec_lockGrantArrival (t : Nat) (s : State) : exec (.lockGrantArrival t) s = execLockGrantArrival t s := rfl
theorem exec_woundArrival (t : Nat) (s : State) : exec (.woundArrival t) s = execWoundArrival t s := rfl
theorem exec_woundgraceExpiry (t : Nat) (slot : Nat) (s : State) : exec (.woundgraceExpiry t slot) s = execWoundgraceExpiry t slot s := rfl
theorem exec_txendConfirm (t : Nat) (c : Nat) (s : State) : exec (.txendConfirm t c) s = execTxendConfirm t c s := rfl
theorem exec_lkmatComplete (t : Nat) (c : Nat) (s : State) : exec (.lkmatComplete t c) s = execLkmatComplete t c s := rfl
theorem exec_leaseRequest (die : Nat) (s : State) : exec (.leaseRequest die) s = execLeaseRequest die s := rfl
theorem exec_leaseRecall (die : Nat) (s : State) : exec (.leaseRecall die) s = execLeaseRecall die s := rfl
theorem exec_leaseReleaseAtHome (die : Nat) (s : State) : exec (.leaseReleaseAtHome die) s = execLeaseReleaseAtHome die s := rfl
theorem exec_migratetile (q : Nat) (s : State) : exec (.migratetile q) s = execMigratetile q s := rfl
theorem exec_migrationStream (s : State) : exec (.migrationStream) s = execMigrationStream s := rfl
theorem exec_migrationRemap (s : State) : exec (.migrationRemap) s = execMigrationRemap s := rfl
theorem exec_migrationResume (s : State) : exec (.migrationResume) s = execMigrationResume s := rfl
theorem exec_forwardingEntryRetire (r : Nat) (s : State) : exec (.forwardingEntryRetire r) s = execForwardingEntryRetire r s := rfl
theorem exec_snapshotMarker (n : Nat) (s : State) : exec (.snapshotMarker n) s = execSnapshotMarker n s := rfl
theorem exec_backgroundBlockCopy (t : Nat) (s : State) : exec (.backgroundBlockCopy t) s = execBackgroundBlockCopy t s := rfl
theorem exec_snapshotCountReport (n : Nat) (s : State) : exec (.snapshotCountReport n) s = execSnapshotCountReport n s := rfl
theorem exec_snapshotDrain (grp : Nat) (s : State) : exec (.snapshotDrain grp) s = execSnapshotDrain grp s := rfl
theorem exec_snapqAnswer (s : State) : exec (.snapqAnswer) s = execSnapqAnswer s := rfl
theorem exec_rollbackStep (s : State) : exec (.rollbackStep) s = execRollbackStep s := rfl
theorem exec_sealComplete (pid : Nat) (s : State) : exec (.sealComplete pid) s = execSealComplete pid s := rfl
theorem exec_packageLoss (p : Nat) (s : State) : exec (.packageLoss p) s = execPackageLoss p s := rfl
theorem exec_doorbell (q : Nat) (s : State) : exec (.doorbell q) s = execDoorbell q s := rfl
theorem exec_reconcilePass (q : Nat) (s : State) : exec (.reconcilePass q) s = execReconcilePass q s := rfl
theorem exec_loadjob (q : Nat) (s : State) : exec (.loadjob q) s = execLoadjob q s := rfl
theorem exec_unloadjob (q : Nat) (s : State) : exec (.unloadjob q) s = execUnloadjob q s := rfl
theorem exec_unloadjobKeep (q : Nat) (s : State) : exec (.unloadjobKeep q) s = execUnloadjobKeep q s := rfl
theorem exec_launch (q : Nat) (s : State) : exec (.launch q) s = execLaunch q s := rfl
theorem exec_waittag (q : Nat) (s : State) : exec (.waittag q) s = execWaittag q s := rfl
theorem exec_signal (q : Nat) (s : State) : exec (.signal q) s = execSignal q s := rfl
theorem exec_snapshot (q : Nat) (s : State) : exec (.snapshot q) s = execSnapshot q s := rfl
theorem exec_rollbackLocal (q : Nat) (s : State) : exec (.rollbackLocal q) s = execRollbackLocal q s := rfl
theorem exec_rollbackRemote (q : Nat) (s : State) : exec (.rollbackRemote q) s = execRollbackRemote q s := rfl
theorem exec_rollbackParked (q : Nat) (s : State) : exec (.rollbackParked q) s = execRollbackParked q s := rfl
theorem exec_rollbackDiscard (q : Nat) (s : State) : exec (.rollbackDiscard q) s = execRollbackDiscard q s := rfl
theorem exec_partitionCreate (q : Nat) (s : State) : exec (.partitionCreate q) s = execPartitionCreate q s := rfl
theorem exec_partitionDestroy (q : Nat) (s : State) : exec (.partitionDestroy q) s = execPartitionDestroy q s := rfl
theorem exec_createq (q : Nat) (s : State) : exec (.createq q) s = execCreateq q s := rfl
theorem exec_destroyq (q : Nat) (s : State) : exec (.destroyq q) s = execDestroyq q s := rfl
theorem exec_attest (q : Nat) (s : State) : exec (.attest q) s = execAttest q s := rfl
theorem exec_injecterr (q : Nat) (s : State) : exec (.injecterr q) s = execInjecterr q s := rfl
theorem exec_launchSweep (pid : Nat) (s : State) : exec (.launchSweep pid) s = execLaunchSweep pid s := rfl
theorem exec_trigArrival (s : State) : exec (.trigArrival) s = execTrigArrival s := rfl
theorem exec_hostinRecord (mailbox : Nat) (rec : List Word) (s : State) : exec (.hostinRecord mailbox rec) s = execHostinRecord mailbox rec s := rfl
theorem exec_egressDelivery (s : State) : exec (.egressDelivery) s = execEgressDelivery s := rfl
theorem exec_linkFrameReceive (port : Nat) (frame : Frame) (s : State) : exec (.linkFrameReceive port frame) s = execLinkFrameReceive port frame s := rfl
theorem exec_frameAck (port : Nat) (ack : Ack) (s : State) : exec (.frameAck port ack) s = execFrameAck port ack s := rfl
theorem exec_frameRetryTimeout (port : Nat) (s : State) : exec (.frameRetryTimeout port) s = execFrameRetryTimeout port s := rfl
theorem exec_laneRetire (port : Nat) (out : Bool) (s : State) : exec (.laneRetire port out) s = execLaneRetire port out s := rfl
theorem exec_portDownSequenceReply (port : Nat) (seq : Nat) (s : State) : exec (.portDownSequenceReply port seq) s = execPortDownSequenceReply port seq s := rfl
theorem exec_routeTableUpdate (entries : List (Nat × Nat)) (s : State) : exec (.routeTableUpdate entries) s = execRouteTableUpdate entries s := rfl
theorem exec_laneTurnaround (port : Nat) (toOut : Bool) (s : State) : exec (.laneTurnaround port toOut) s = execLaneTurnaround port toOut s := rfl
theorem exec_laneRecalibration (port : Nat) (out : Bool) (result : Option Bool) (s : State) : exec (.laneRecalibration port out result) s = execLaneRecalibration port out result s := rfl
theorem exec_telemetrySample (dieMw : List Nat) (dieMilliC : List Nat) (s : State) : exec (.telemetrySample dieMw dieMilliC) s = execTelemetrySample dieMw dieMilliC s := rfl
theorem exec_hbmPatrolScrub (pa : Nat) (s : State) : exec (.hbmPatrolScrub pa) s = execHbmPatrolScrub pa s := rfl
theorem exec_sramScrub (t : Nat) (off : Nat) (s : State) : exec (.sramScrub t off) s = execSramScrub t off s := rfl
theorem exec_thermalLimit (die : Nat) (s : State) : exec (.thermalLimit die) s = execThermalLimit die s := rfl
theorem exec_powerRemoval (s : State) : exec (.powerRemoval) s = execPowerRemoval s := rfl
theorem exec_deviceReset (boot : Boot) (s : State) : exec (.deviceReset boot) s = execDeviceReset boot s := rfl
theorem exec_illegalInstruction (insn : Nat) (s : State) : exec (.illegalInstruction insn) s = execIllegalInstruction insn s := rfl
theorem exec_fetchFault (at_ : Addr) (unmapped : Bool) (s : State) : exec (.fetchFault at_ unmapped) s = execFetchFault at_ unmapped s := rfl
theorem exec_softError (key : Nat) (correctable : Bool) (s : State) : exec (.softError key correctable) s = execSoftError key correctable s := rfl
theorem exec_hostWrite (pa : Nat) (bytes : List Byte) (s : State) : exec (.hostWrite pa bytes) s = execHostWrite pa bytes s := rfl
theorem exec_egressRingConsumed (q : Nat) (n : Nat) (s : State) : exec (.egressRingConsumed q n) s = execEgressRingConsumed q n s := rfl
theorem exec_thermalLimitCleared (die : Nat) (s : State) : exec (.thermalLimitCleared die) s = execThermalLimitCleared die s := rfl
theorem exec_portTrained (port : Nat) (peer : Nat) (txl : Nat) (rxl : Nat) (s : State) : exec (.portTrained port peer txl rxl) s = execPortTrained port peer txl rxl s := rfl

end Sys2Proof.Machine
end

