-- ==== Sys2Proof/Laws/Memory.lean ====
section
/-! SUPPORT. The memory operations: each keeps the canonical form, and a byte written is read back while every other byte stays. -/

namespace Sys2Proof.Machine

/-! ### Canonical form -/

theorem memWfAbove_mono {lo hi : Nat} (h : lo ≤ hi) {m : List Host.Cell} (hm : memWfAbove hi m = true) : memWfAbove lo m = true := by
  cases m with
  | nil => rfl
  | cons c m =>
    simp only [memWfAbove, Bool.and_eq_true, decide_eq_true_eq] at hm ⊢
    exact ⟨⟨by omega, hm.1.2⟩, hm.2⟩

theorem memSet_wfAbove {lo : Nat} {m : List Host.Cell} (hm : memWfAbove lo m = true) {k : Nat} (hk : lo ≤ k) (v : Byte) :
    memWfAbove lo (memSet m k v) = true := by
  induction m generalizing lo with
  | nil =>
    simp only [memSet]
    split
    · rfl
    · simp only [memWfAbove, Bool.and_eq_true, decide_eq_true_eq, bne_iff_ne, ne_eq, and_true]
      exact ⟨hk, ‹_›⟩
  | cons c m ih =>
    obtain ⟨j, b⟩ := c
    simp only [memWfAbove, Bool.and_eq_true, decide_eq_true_eq, bne_iff_ne, ne_eq] at hm
    obtain ⟨⟨hj, hb⟩, hm⟩ := hm
    simp only [memSet]
    split
    · subst_vars
      split
      · exact memWfAbove_mono (by omega) hm
      · simp only [memWfAbove, Bool.and_eq_true, decide_eq_true_eq, bne_iff_ne, ne_eq]
        exact ⟨⟨hk, ‹_›⟩, hm⟩
    · split
      · split
        · simp only [memWfAbove, Bool.and_eq_true, decide_eq_true_eq, bne_iff_ne, ne_eq]
          exact ⟨⟨hj, hb⟩, hm⟩
        · simp only [memWfAbove, Bool.and_eq_true, decide_eq_true_eq, bne_iff_ne, ne_eq]
          exact ⟨⟨hk, ‹_›⟩, ⟨by omega, hb⟩, hm⟩
      · simp only [memWfAbove, Bool.and_eq_true, decide_eq_true_eq, bne_iff_ne, ne_eq]
        exact ⟨⟨hj, hb⟩, ih hm (by omega)⟩

@[simp] theorem memWf_nil : memWf [] = true := rfl

theorem memWf_memSet {m : List Host.Cell} (hm : memWf m = true) (k : Nat) (v : Byte) : memWf (memSet m k v) = true :=
  memSet_wfAbove hm (Nat.zero_le k) v

theorem memWf_memWrite {m : List Host.Cell} (hm : memWf m = true) (k : Nat) (bs : List Byte) : memWf (memWrite m k bs) = true := by
  induction bs generalizing m k with
  | nil => exact hm
  | cons b bs ih => exact ih (memWf_memSet hm k b) (k + 1)

theorem memWf_memFill {m : List Host.Cell} (hm : memWf m = true) (cells : List Host.Cell) : memWf (memFill m cells) = true := by
  induction cells generalizing m with
  | nil => exact hm
  | cons c cells ih => exact ih (memWf_memSet hm c.1 c.2)

theorem memWfAbove_filter {lo : Nat} {m : List Host.Cell} (hm : memWfAbove lo m = true) (p : Host.Cell → Bool) :
    memWfAbove lo (m.filter p) = true := by
  induction m generalizing lo with
  | nil => rfl
  | cons c m ih =>
    simp only [memWfAbove, Bool.and_eq_true, decide_eq_true_eq] at hm
    rw [List.filter_cons]
    split
    · simp only [memWfAbove, Bool.and_eq_true, decide_eq_true_eq]
      exact ⟨hm.1, ih hm.2⟩
    · exact memWfAbove_mono (by omega) (ih hm.2)

theorem memWf_memSlice {m : List Host.Cell} (hm : memWf m = true) (lo hi : Nat) : memWf (memSlice m lo hi) = true :=
  memWfAbove_filter hm _

theorem memWf_memReplace {m : List Host.Cell} (hm : memWf m = true) (lo hi : Nat) (cells : List Host.Cell) :
    memWf (memReplace m lo hi cells) = true :=
  memWf_memFill (memWfAbove_filter hm _) _

theorem memWf_memZero {m : List Host.Cell} (hm : memWf m = true) (lo hi : Nat) : memWf (memZero m lo hi) = true :=
  memWf_memReplace hm lo hi []

/-! ### Reading -/

/-- Below its first address a canonical memory reads zero. -/
theorem memGet_below {lo k : Nat} (h : k < lo) {m : List Host.Cell} (hm : memWfAbove lo m = true) : memGet m k = 0 := by
  cases m with
  | nil => rfl
  | cons c m =>
    simp only [memWfAbove, Bool.and_eq_true, decide_eq_true_eq] at hm
    simp only [memGet, if_neg (show ¬ k = c.1 by omega), if_pos (show k < c.1 by omega)]

theorem memGet_memSetAbove {lo : Nat} {m : List Host.Cell} (hm : memWfAbove lo m = true) (k : Nat) (v : Byte) (a : Nat) :
    memGet (memSet m k v) a = if a = k then v else memGet m a := by
  induction m generalizing lo with
  | nil =>
    by_cases hv : v = 0
    · simp [memSet, memGet, hv]
    · simp only [memSet, if_neg hv, memGet]
      split <;> simp
  | cons c m ih =>
    obtain ⟨j, b⟩ := c
    simp only [memWfAbove, Bool.and_eq_true, decide_eq_true_eq] at hm
    have low : ∀ x, x ≤ j → memGet m x = 0 := fun x hx => memGet_below (by omega) hm.2
    have ih := ih hm.2
    simp only [memSet]
    split
    · split
      · subst_vars
        simp only [memGet]
        split
        · rw [low a (by omega)]
        · split
          · exact low a (by omega)
          · rfl
      · subst_vars
        simp only [memGet]
        split <;> simp [*]
    · split
      · split
        · subst_vars
          simp only [memGet]
          repeat' split
          all_goals first | rfl | omega
        · simp only [memGet]
          repeat' split
          all_goals first | rfl | omega
      · simp only [memGet, ih]
        repeat' split
        all_goals first | rfl | omega

/-- A byte written is read back, and every other byte stays. -/
theorem memGet_memSet {m : List Host.Cell} (hm : memWf m = true) (k : Nat) (v : Byte) (a : Nat) :
    memGet (memSet m k v) a = if a = k then v else memGet m a :=
  memGet_memSetAbove hm k v a

@[simp] theorem memRead_length (m : List Host.Cell) (k n : Nat) : (memRead m k n).length = n := by
  induction n generalizing k with
  | zero => rfl
  | succ n ih => simp [memRead, ih]

/-! ### The operations of the state -/

@[simp] theorem State.write_mem (s : State) (k : Nat) (bs : List Byte) : (s.write k bs).mem = memWrite s.mem k bs := rfl

/-- A write keeps the canonical form. -/
theorem State.write_wf (s : State) (k : Nat) (bs : List Byte) (h : Memory.wf s.mem = true) : Memory.wf (s.write k bs).mem = true :=
  memWf_memWrite h k bs

end Sys2Proof.Machine
end

