-- ==== Sys2Proof/Laws/PerInstr.lean ====
section
/-! SUPPORT. What holds of each instruction as syntax, constructor by constructor: the bytes of its encoding decode to it. -/

set_option linter.unusedSimpArgs false
set_option Elab.async false

namespace Sys2Proof.Laws

namespace EncodeDecode

/-- Decoding the encoding of a well-formed instruction that has one gives the instruction back, with its length. -/
def Statement (i : Instr) : Prop :=
  i.wellFormed = true → encode i ≠ [] → ∀ rest : List Byte, decode (encodeBytes i ++ rest) = .ok (i, 2 * (encode i).length)

theorem of_long {i : Instr} {f : Fields} (hn : encodeNibbles i = none) (he : encodeFields i = some f)
    (hm : majorAssigned f.maj = true) (hd : decodeMajor f = some i) : Statement i := by
  intro hw _ rest
  simpa [encodeBytes, encode, hn, he, halfBytes] using decode_long rest hm hd hw

theorem of_short {i : Instr} {f : HalfFields} (hn : encodeNibbles i = some f) (ho : (f.op.extractLsb' 2 2 == 3) = false)
    (hd : decodeNibbles f = some i) : Statement i := by
  intro hw _ rest
  simpa [encodeBytes, encode, hn, halfBytes] using decode_short rest ho hd hw

theorem of_event {i : Instr} (hn : encodeNibbles i = none) (he : encodeFields i = none) : Statement i := by
  intro _ h; exact absurd (by simp [encode, hn, he]) h

theorem cMov (d : Reg) (a : Reg) : Statement (.cMov d a) :=
  of_short rfl (show ((0 : BitVec 4).extractLsb' 2 2 == 3) = false from by decide) rfl

theorem cAdd (d : Reg) (a : Reg) : Statement (.cAdd d a) :=
  of_short rfl (show ((1 : BitVec 4).extractLsb' 2 2 == 3) = false from by decide) rfl

theorem cSub (d : Reg) (a : Reg) : Statement (.cSub d a) :=
  of_short rfl (show ((2 : BitVec 4).extractLsb' 2 2 == 3) = false from by decide) rfl

theorem cAnd (d : Reg) (a : Reg) : Statement (.cAnd d a) :=
  of_short rfl (show ((3 : BitVec 4).extractLsb' 2 2 == 3) = false from by decide) rfl

theorem cOr (d : Reg) (a : Reg) : Statement (.cOr d a) :=
  of_short rfl (show ((4 : BitVec 4).extractLsb' 2 2 == 3) = false from by decide) rfl

theorem cAddi (d : Reg) (i : BitVec 8) : Statement (.cAddi d i) :=
  of_short rfl (show ((5 : BitVec 4).extractLsb' 2 2 == 3) = false from by decide) (congrArg (fun new => some (Instr.cAddi d new)) (join8 i))

theorem cMovi (d : Reg) (i : BitVec 8) : Statement (.cMovi d i) :=
  of_short rfl (show ((6 : BitVec 4).extractLsb' 2 2 == 3) = false from by decide) (congrArg (fun new => some (Instr.cMovi d new)) (join8 i))

theorem cLdd (d : Reg) (a : Reg) (i : BitVec 4) : Statement (.cLdd d a i) :=
  of_short rfl (show ((7 : BitVec 4).extractLsb' 2 2 == 3) = false from by decide) rfl

theorem cStd (d : Reg) (a : Reg) (i : BitVec 4) : Statement (.cStd d a i) :=
  of_short rfl (show ((8 : BitVec 4).extractLsb' 2 2 == 3) = false from by decide) rfl

theorem cBz (d : Reg) (off : BitVec 8) : Statement (.cBz d off) :=
  of_short rfl (show ((9 : BitVec 4).extractLsb' 2 2 == 3) = false from by decide) (congrArg (fun new => some (Instr.cBz d new)) (join8 off))

theorem cBnz (d : Reg) (off : BitVec 8) : Statement (.cBnz d off) :=
  of_short rfl (show ((10 : BitVec 4).extractLsb' 2 2 == 3) = false from by decide) (congrArg (fun new => some (Instr.cBnz d new)) (join8 off))

theorem cDone : Statement (.cDone) :=
  of_short rfl (show ((11 : BitVec 4).extractLsb' 2 2 == 3) = false from by decide) rfl

theorem cYield : Statement (.cYield) :=
  of_short rfl (show ((11 : BitVec 4).extractLsb' 2 2 == 3) = false from by decide) rfl

theorem cNop : Statement (.cNop) :=
  of_short rfl (show ((11 : BitVec 4).extractLsb' 2 2 == 3) = false from by decide) rfl

theorem cRet : Statement (.cRet) :=
  of_short rfl (show ((11 : BitVec 4).extractLsb' 2 2 == 3) = false from by decide) rfl

theorem cCommit : Statement (.cCommit) :=
  of_short rfl (show ((11 : BitVec 4).extractLsb' 2 2 == 3) = false from by decide) rfl

theorem add (d : Reg) (a : Reg) (b : Reg) : Statement (.add d a b) :=
  of_long rfl rfl rfl rfl

theorem sub (d : Reg) (a : Reg) (b : Reg) : Statement (.sub d a b) :=
  of_long rfl rfl rfl rfl

theorem mul (d : Reg) (a : Reg) (b : Reg) : Statement (.mul d a b) :=
  of_long rfl rfl rfl rfl

theorem mulh (d : Reg) (a : Reg) (b : Reg) : Statement (.mulh d a b) :=
  of_long rfl rfl rfl rfl

theorem mulhn (d : Reg) (a : Reg) (b : Reg) : Statement (.mulhn d a b) :=
  of_long rfl rfl rfl rfl

theorem div (d : Reg) (a : Reg) (b : Reg) : Statement (.div d a b) :=
  of_long rfl rfl rfl rfl

theorem divn (d : Reg) (a : Reg) (b : Reg) : Statement (.divn d a b) :=
  of_long rfl rfl rfl rfl

theorem rem (d : Reg) (a : Reg) (b : Reg) : Statement (.rem d a b) :=
  of_long rfl rfl rfl rfl

theorem remn (d : Reg) (a : Reg) (b : Reg) : Statement (.remn d a b) :=
  of_long rfl rfl rfl rfl

theorem and (d : Reg) (a : Reg) (b : Reg) : Statement (.and d a b) :=
  of_long rfl rfl rfl rfl

theorem or (d : Reg) (a : Reg) (b : Reg) : Statement (.or d a b) :=
  of_long rfl rfl rfl rfl

theorem xor (d : Reg) (a : Reg) (b : Reg) : Statement (.xor d a b) :=
  of_long rfl rfl rfl rfl

theorem andn (d : Reg) (a : Reg) (b : Reg) : Statement (.andn d a b) :=
  of_long rfl rfl rfl rfl

theorem orn (d : Reg) (a : Reg) (b : Reg) : Statement (.orn d a b) :=
  of_long rfl rfl rfl rfl

theorem shl (d : Reg) (a : Reg) (b : Reg) : Statement (.shl d a b) :=
  of_long rfl rfl rfl rfl

theorem shr (d : Reg) (a : Reg) (b : Reg) : Statement (.shr d a b) :=
  of_long rfl rfl rfl rfl

theorem sar (d : Reg) (a : Reg) (b : Reg) : Statement (.sar d a b) :=
  of_long rfl rfl rfl rfl

theorem rol (d : Reg) (a : Reg) (b : Reg) : Statement (.rol d a b) :=
  of_long rfl rfl rfl rfl

theorem min (d : Reg) (a : Reg) (b : Reg) : Statement (.min d a b) :=
  of_long rfl rfl rfl rfl

theorem max (d : Reg) (a : Reg) (b : Reg) : Statement (.max d a b) :=
  of_long rfl rfl rfl rfl

theorem minn (d : Reg) (a : Reg) (b : Reg) : Statement (.minn d a b) :=
  of_long rfl rfl rfl rfl

theorem maxn (d : Reg) (a : Reg) (b : Reg) : Statement (.maxn d a b) :=
  of_long rfl rfl rfl rfl

theorem seq (d : Reg) (a : Reg) (b : Reg) : Statement (.seq d a b) :=
  of_long rfl rfl rfl rfl

theorem sne (d : Reg) (a : Reg) (b : Reg) : Statement (.sne d a b) :=
  of_long rfl rfl rfl rfl

theorem slt (d : Reg) (a : Reg) (b : Reg) : Statement (.slt d a b) :=
  of_long rfl rfl rfl rfl

theorem sle (d : Reg) (a : Reg) (b : Reg) : Statement (.sle d a b) :=
  of_long rfl rfl rfl rfl

theorem sltn (d : Reg) (a : Reg) (b : Reg) : Statement (.sltn d a b) :=
  of_long rfl rfl rfl rfl

theorem slen (d : Reg) (a : Reg) (b : Reg) : Statement (.slen d a b) :=
  of_long rfl rfl rfl rfl

theorem sel (d : Reg) (a : Reg) (b : Reg) (c : Reg) : Statement (.sel d a b c) :=
  of_long rfl rfl rfl rfl

theorem clz (d : Reg) (a : Reg) : Statement (.clz d a) :=
  of_long rfl rfl rfl rfl

theorem ctz (d : Reg) (a : Reg) : Statement (.ctz d a) :=
  of_long rfl rfl rfl rfl

theorem popc (d : Reg) (a : Reg) : Statement (.popc d a) :=
  of_long rfl rfl rfl rfl

theorem brev (d : Reg) (a : Reg) : Statement (.brev d a) :=
  of_long rfl rfl rfl rfl

theorem muladd (d : Reg) (a : Reg) (b : Reg) (c : Reg) : Statement (.muladd d a b c) :=
  of_long rfl rfl rfl rfl

theorem padd (d : Reg) (a : Reg) (b : Reg) : Statement (.padd d a b) :=
  of_long rfl rfl rfl rfl

theorem psub (d : Reg) (a : Reg) (b : Reg) : Statement (.psub d a b) :=
  of_long rfl rfl rfl rfl

theorem ptag (d : Reg) (a : Reg) (b : Reg) : Statement (.ptag d a b) :=
  of_long rfl rfl rfl rfl

theorem pfmt (d : Reg) (a : Reg) : Statement (.pfmt d a) :=
  of_long rfl rfl rfl rfl

theorem bfx (d : Reg) (a : Reg) (c : Reg) : Statement (.bfx d a c) :=
  of_long rfl rfl rfl rfl

theorem bfxs (d : Reg) (a : Reg) (c : Reg) : Statement (.bfxs d a c) :=
  of_long rfl rfl rfl rfl

theorem bfi (d : Reg) (a : Reg) (b : Reg) (c : Reg) : Statement (.bfi d a b c) :=
  of_long rfl rfl rfl rfl

theorem addw (d : Reg) (a : Reg) (b : Reg) : Statement (.addw d a b) :=
  of_long rfl rfl rfl rfl

theorem subw (d : Reg) (a : Reg) (b : Reg) : Statement (.subw d a b) :=
  of_long rfl rfl rfl rfl

theorem mulw (d : Reg) (a : Reg) (b : Reg) : Statement (.mulw d a b) :=
  of_long rfl rfl rfl rfl

theorem shlw (d : Reg) (a : Reg) (b : Reg) : Statement (.shlw d a b) :=
  of_long rfl rfl rfl rfl

theorem shrw (d : Reg) (a : Reg) (b : Reg) : Statement (.shrw d a b) :=
  of_long rfl rfl rfl rfl

theorem sarw (d : Reg) (a : Reg) (b : Reg) : Statement (.sarw d a b) :=
  of_long rfl rfl rfl rfl

theorem addi (d : Reg) (a : Reg) (i : BitVec 16) : Statement (.addi d a i) :=
  of_long rfl rfl rfl (congrArg (fun new => some (Instr.addi d a new)) (join16 i))

theorem andi (d : Reg) (a : Reg) (i : BitVec 16) : Statement (.andi d a i) :=
  of_long rfl rfl rfl (congrArg (fun new => some (Instr.andi d a new)) (join16 i))

theorem ori (d : Reg) (a : Reg) (i : BitVec 16) : Statement (.ori d a i) :=
  of_long rfl rfl rfl (congrArg (fun new => some (Instr.ori d a new)) (join16 i))

theorem xori (d : Reg) (a : Reg) (i : BitVec 16) : Statement (.xori d a i) :=
  of_long rfl rfl rfl (congrArg (fun new => some (Instr.xori d a new)) (join16 i))

theorem slti (d : Reg) (a : Reg) (i : BitVec 16) : Statement (.slti d a i) :=
  of_long rfl rfl rfl (congrArg (fun new => some (Instr.slti d a new)) (join16 i))

theorem sltni (d : Reg) (a : Reg) (i : BitVec 16) : Statement (.sltni d a i) :=
  of_long rfl rfl rfl (congrArg (fun new => some (Instr.sltni d a new)) (join16 i))

theorem shli (d : Reg) (a : Reg) (n : BitVec 6) : Statement (.shli d a n) :=
  of_long rfl rfl rfl (by
    show decShi ⟨0x00, 0#2 ++ n.extractLsb' 4 2, n.extractLsb' 0 4, 0x07, d, a⟩ = some (.shli d a n)
    simp only [decShi, extract_hi, extract_lo, shi_kind, shi_zero, join6, need, Option.bind_some, BitVec.toNat_ofNat, Nat.reducePow, Nat.reduceMod, beq_self_eq_true, Bool.and_self, Bool.not_false, if_true] <;> rfl)

theorem shri (d : Reg) (a : Reg) (n : BitVec 6) : Statement (.shri d a n) :=
  of_long rfl rfl rfl (by
    show decShi ⟨0x00, 1#2 ++ n.extractLsb' 4 2, n.extractLsb' 0 4, 0x07, d, a⟩ = some (.shri d a n)
    simp only [decShi, extract_hi, extract_lo, shi_kind, shi_zero, join6, need, Option.bind_some, BitVec.toNat_ofNat, Nat.reducePow, Nat.reduceMod, beq_self_eq_true, Bool.and_self, Bool.not_false, if_true] <;> rfl)

theorem sari (d : Reg) (a : Reg) (n : BitVec 6) : Statement (.sari d a n) :=
  of_long rfl rfl rfl (by
    show decShi ⟨0x00, 2#2 ++ n.extractLsb' 4 2, n.extractLsb' 0 4, 0x07, d, a⟩ = some (.sari d a n)
    simp only [decShi, extract_hi, extract_lo, shi_kind, shi_zero, join6, need, Option.bind_some, BitVec.toNat_ofNat, Nat.reducePow, Nat.reduceMod, beq_self_eq_true, Bool.and_self, Bool.not_false, if_true] <;> rfl)

theorem roli (d : Reg) (a : Reg) (n : BitVec 6) : Statement (.roli d a n) :=
  of_long rfl rfl rfl (by
    show decShi ⟨0x00, 3#2 ++ n.extractLsb' 4 2, n.extractLsb' 0 4, 0x07, d, a⟩ = some (.roli d a n)
    simp only [decShi, extract_hi, extract_lo, shi_kind, shi_zero, join6, need, Option.bind_some, BitVec.toNat_ofNat, Nat.reducePow, Nat.reduceMod, beq_self_eq_true, Bool.and_self, Bool.not_false, if_true] <;> rfl)

theorem shliW (d : Reg) (a : Reg) (n : BitVec 5) : Statement (.shliW d a n) :=
  of_long rfl rfl rfl (by
    show decShi ⟨0x01, 0#2 ++ 0#1 ++ n.extractLsb' 4 1, n.extractLsb' 0 4, 0x07, d, a⟩ = some (.shliW d a n)
    simp only [decShi, extract_hi, extract_lo, shi_kind, shi_zero, join5, need, Option.bind_some, BitVec.toNat_ofNat, Nat.reducePow, Nat.reduceMod, beq_self_eq_true, Bool.and_self, Bool.not_false, if_true] <;> rfl)

theorem shriW (d : Reg) (a : Reg) (n : BitVec 5) : Statement (.shriW d a n) :=
  of_long rfl rfl rfl (by
    show decShi ⟨0x01, 1#2 ++ 0#1 ++ n.extractLsb' 4 1, n.extractLsb' 0 4, 0x07, d, a⟩ = some (.shriW d a n)
    simp only [decShi, extract_hi, extract_lo, shi_kind, shi_zero, join5, need, Option.bind_some, BitVec.toNat_ofNat, Nat.reducePow, Nat.reduceMod, beq_self_eq_true, Bool.and_self, Bool.not_false, if_true] <;> rfl)

theorem sariW (d : Reg) (a : Reg) (n : BitVec 5) : Statement (.sariW d a n) :=
  of_long rfl rfl rfl (by
    show decShi ⟨0x01, 2#2 ++ 0#1 ++ n.extractLsb' 4 1, n.extractLsb' 0 4, 0x07, d, a⟩ = some (.sariW d a n)
    simp only [decShi, extract_hi, extract_lo, shi_kind, shi_zero, join5, need, Option.bind_some, BitVec.toNat_ofNat, Nat.reducePow, Nat.reduceMod, beq_self_eq_true, Bool.and_self, Bool.not_false, if_true] <;> rfl)

theorem roliW (d : Reg) (a : Reg) (n : BitVec 5) : Statement (.roliW d a n) :=
  of_long rfl rfl rfl (by
    show decShi ⟨0x01, 3#2 ++ 0#1 ++ n.extractLsb' 4 1, n.extractLsb' 0 4, 0x07, d, a⟩ = some (.roliW d a n)
    simp only [decShi, extract_hi, extract_lo, shi_kind, shi_zero, join5, need, Option.bind_some, BitVec.toNat_ofNat, Nat.reducePow, Nat.reduceMod, beq_self_eq_true, Bool.and_self, Bool.not_false, if_true] <;> rfl)

theorem movw (d : Reg) (i : BitVec 16) (p : BitVec 2) : Statement (.movw d i p) :=
  of_long rfl rfl rfl (by
    simp only [decodeMajor, extract_hi, extract_lo, join16, Fields.imm16, need, Option.bind_some, BitVec.toNat_ofNat, Nat.reducePow, Nat.reduceMod, beq_self_eq_true, Bool.and_self, Bool.not_false, if_true] <;> rfl)

theorem movk (d : Reg) (i : BitVec 16) (p : BitVec 2) : Statement (.movk d i p) :=
  of_long rfl rfl rfl (by
    simp only [decodeMajor, extract_hi, extract_lo, join16, Fields.imm16, need, Option.bind_some, BitVec.toNat_ofNat, Nat.reducePow, Nat.reduceMod, beq_self_eq_true, Bool.and_self, Bool.not_false, if_true] <;> rfl)

theorem movn (d : Reg) (i : BitVec 16) (p : BitVec 2) : Statement (.movn d i p) :=
  of_long rfl rfl rfl (by
    simp only [decodeMajor, extract_hi, extract_lo, join16, Fields.imm16, need, Option.bind_some, BitVec.toNat_ofNat, Nat.reducePow, Nat.reduceMod, beq_self_eq_true, Bool.and_self, Bool.not_false, if_true] <;> rfl)

theorem paddi (d : Reg) (a : Reg) (i : BitVec 16) : Statement (.paddi d a i) :=
  of_long rfl rfl rfl (congrArg (fun new => some (Instr.paddi d a new)) (join16 i))

theorem adr (d : Reg) (off : BitVec 20) : Statement (.adr d off) :=
  of_long rfl rfl rfl (congrArg (fun new => some (Instr.adr d new)) (join20 off))

theorem fmoviF64H (d : Reg) (i : BitVec 16) : Statement (.fmoviF64H d i) :=
  of_long rfl rfl rfl (congrArg (fun new => some (Instr.fmoviF64H d new)) (join16 i))

theorem fmoviF32H (d : Reg) (i : BitVec 16) : Statement (.fmoviF32H d i) :=
  of_long rfl rfl rfl (congrArg (fun new => some (Instr.fmoviF32H d new)) (join16 i))

theorem fmoviF64Bf (d : Reg) (i : BitVec 16) : Statement (.fmoviF64Bf d i) :=
  of_long rfl rfl rfl (congrArg (fun new => some (Instr.fmoviF64Bf d new)) (join16 i))

theorem fmoviF32Bf (d : Reg) (i : BitVec 16) : Statement (.fmoviF32Bf d i) :=
  of_long rfl rfl rfl (congrArg (fun new => some (Instr.fmoviF32Bf d new)) (join16 i))

theorem b (off : BitVec 24) : Statement (.b off) :=
  of_long rfl rfl rfl (congrArg (fun new => some (Instr.b new)) (join24 off))

theorem bl (off : BitVec 24) : Statement (.bl off) :=
  of_long rfl rfl rfl (congrArg (fun new => some (Instr.bl new)) (join24 off))

theorem bcEq (x : Reg) (y : Reg) (off : BitVec 12) : Statement (.bcEq x y off) :=
  of_long rfl rfl rfl (congrArg (fun new => some (Instr.bcEq x y new)) (join12 off))

theorem bcNe (x : Reg) (y : Reg) (off : BitVec 12) : Statement (.bcNe x y off) :=
  of_long rfl rfl rfl (congrArg (fun new => some (Instr.bcNe x y new)) (join12 off))

theorem bcLt (x : Reg) (y : Reg) (off : BitVec 12) : Statement (.bcLt x y off) :=
  of_long rfl rfl rfl (congrArg (fun new => some (Instr.bcLt x y new)) (join12 off))

theorem bcGe (x : Reg) (y : Reg) (off : BitVec 12) : Statement (.bcGe x y off) :=
  of_long rfl rfl rfl (congrArg (fun new => some (Instr.bcGe x y new)) (join12 off))

theorem bcLtn (x : Reg) (y : Reg) (off : BitVec 12) : Statement (.bcLtn x y off) :=
  of_long rfl rfl rfl (congrArg (fun new => some (Instr.bcLtn x y new)) (join12 off))

theorem bcGen (x : Reg) (y : Reg) (off : BitVec 12) : Statement (.bcGen x y off) :=
  of_long rfl rfl rfl (congrArg (fun new => some (Instr.bcGen x y new)) (join12 off))

theorem bcAny (x : Reg) (y : Reg) (off : BitVec 12) : Statement (.bcAny x y off) :=
  of_long rfl rfl rfl (congrArg (fun new => some (Instr.bcAny x y new)) (join12 off))

theorem bcNone (x : Reg) (y : Reg) (off : BitVec 12) : Statement (.bcNone x y off) :=
  of_long rfl rfl rfl (congrArg (fun new => some (Instr.bcNone x y new)) (join12 off))

theorem fbcEq (p : Prec) (x : Reg) (y : Reg) (off : BitVec 12) : Statement (.fbcEq p x y off) :=
  of_long rfl rfl rfl (by
    show decFbc ⟨off.extractLsb' 4 8, off.extractLsb' 0 4, p.bit ++ 0#3, 0x13, x, y⟩ = some (.fbcEq p x y off)
    simp only [decFbc, extract_hi, extract_lo, Prec.ofBit_bit, Fields.imm12, join12, need, Option.bind_some, BitVec.toNat_ofNat, Nat.reducePow, Nat.reduceMod, beq_self_eq_true, Bool.and_self, Bool.not_false, if_true] <;> rfl)

theorem fbcNe (p : Prec) (x : Reg) (y : Reg) (off : BitVec 12) : Statement (.fbcNe p x y off) :=
  of_long rfl rfl rfl (by
    show decFbc ⟨off.extractLsb' 4 8, off.extractLsb' 0 4, p.bit ++ 1#3, 0x13, x, y⟩ = some (.fbcNe p x y off)
    simp only [decFbc, extract_hi, extract_lo, Prec.ofBit_bit, Fields.imm12, join12, need, Option.bind_some, BitVec.toNat_ofNat, Nat.reducePow, Nat.reduceMod, beq_self_eq_true, Bool.and_self, Bool.not_false, if_true] <;> rfl)

theorem fbcLt (p : Prec) (x : Reg) (y : Reg) (off : BitVec 12) : Statement (.fbcLt p x y off) :=
  of_long rfl rfl rfl (by
    show decFbc ⟨off.extractLsb' 4 8, off.extractLsb' 0 4, p.bit ++ 2#3, 0x13, x, y⟩ = some (.fbcLt p x y off)
    simp only [decFbc, extract_hi, extract_lo, Prec.ofBit_bit, Fields.imm12, join12, need, Option.bind_some, BitVec.toNat_ofNat, Nat.reducePow, Nat.reduceMod, beq_self_eq_true, Bool.and_self, Bool.not_false, if_true] <;> rfl)

theorem fbcLe (p : Prec) (x : Reg) (y : Reg) (off : BitVec 12) : Statement (.fbcLe p x y off) :=
  of_long rfl rfl rfl (by
    show decFbc ⟨off.extractLsb' 4 8, off.extractLsb' 0 4, p.bit ++ 3#3, 0x13, x, y⟩ = some (.fbcLe p x y off)
    simp only [decFbc, extract_hi, extract_lo, Prec.ofBit_bit, Fields.imm12, join12, need, Option.bind_some, BitVec.toNat_ofNat, Nat.reducePow, Nat.reduceMod, beq_self_eq_true, Bool.and_self, Bool.not_false, if_true] <;> rfl)

theorem fbcUn (p : Prec) (x : Reg) (y : Reg) (off : BitVec 12) : Statement (.fbcUn p x y off) :=
  of_long rfl rfl rfl (by
    show decFbc ⟨off.extractLsb' 4 8, off.extractLsb' 0 4, p.bit ++ 4#3, 0x13, x, y⟩ = some (.fbcUn p x y off)
    simp only [decFbc, extract_hi, extract_lo, Prec.ofBit_bit, Fields.imm12, join12, need, Option.bind_some, BitVec.toNat_ofNat, Nat.reducePow, Nat.reduceMod, beq_self_eq_true, Bool.and_self, Bool.not_false, if_true] <;> rfl)

theorem fbcOrd (p : Prec) (x : Reg) (y : Reg) (off : BitVec 12) : Statement (.fbcOrd p x y off) :=
  of_long rfl rfl rfl (by
    show decFbc ⟨off.extractLsb' 4 8, off.extractLsb' 0 4, p.bit ++ 5#3, 0x13, x, y⟩ = some (.fbcOrd p x y off)
    simp only [decFbc, extract_hi, extract_lo, Prec.ofBit_bit, Fields.imm12, join12, need, Option.bind_some, BitVec.toNat_ofNat, Nat.reducePow, Nat.reduceMod, beq_self_eq_true, Bool.and_self, Bool.not_false, if_true] <;> rfl)

theorem jr (a : Reg) : Statement (.jr a) :=
  of_long rfl rfl rfl rfl

theorem jlr (d : Reg) (a : Reg) : Statement (.jlr d a) :=
  of_long rfl rfl rfl rfl

theorem loop0 (c : Reg) (len : BitVec 16) : Statement (.loop0 c len) :=
  of_long rfl rfl rfl (congrArg (fun new => some (Instr.loop0 c new)) (join16 len))

theorem loop1 (c : Reg) (len : BitVec 16) : Statement (.loop1 c len) :=
  of_long rfl rfl rfl (congrArg (fun new => some (Instr.loop1 c new)) (join16 len))

theorem done : Statement (.done) :=
  of_long rfl rfl rfl rfl

theorem commit : Statement (.commit) :=
  of_long rfl rfl rfl rfl

theorem yield : Statement (.yield) :=
  of_long rfl rfl rfl rfl

theorem abort : Statement (.abort) :=
  of_long rfl rfl rfl rfl

theorem requeue : Statement (.requeue) :=
  of_long rfl rfl rfl rfl

theorem trap (e : BitVec 8) : Statement (.trap e) :=
  of_long rfl rfl rfl (congrArg (fun new => some (Instr.trap new)) (join8 e))

theorem tret : Statement (.tret) :=
  of_long rfl rfl rfl rfl

theorem nop : Statement (.nop) :=
  of_long rfl rfl rfl rfl

theorem waitf (a : Reg) : Statement (.waitf a) :=
  of_long rfl rfl rfl rfl

theorem migrate (cls : BitVec 8) (a : Reg) : Statement (.migrate cls a) :=
  of_long rfl rfl rfl (congrArg (fun new => some (Instr.migrate new a)) (join8 cls))

theorem mfs (d : Reg) (e : StateReg) : Statement (.mfs d e) :=
  of_long rfl rfl rfl (by
    show decCtrl ⟨0x20, e.index.extractLsb' 4 4, e.index.extractLsb' 0 4, 0x16, d, 0⟩ = some (.mfs d e)
    simp only [decCtrl, Fields.e, join8, StateReg.ofIndex_index, need, Option.bind_some, BitVec.toNat_ofNat, Nat.reducePow, Nat.reduceMod, beq_self_eq_true, Bool.and_self, Bool.not_false, if_true] <;> rfl)

theorem mts (e : StateReg) (a : Reg) : Statement (.mts e a) :=
  of_long rfl rfl rfl (by
    show decCtrl ⟨0x21, e.index.extractLsb' 4 4, e.index.extractLsb' 0 4, 0x16, 0, a⟩ = some (.mts e a)
    simp only [decCtrl, Fields.e, join8, StateReg.ofIndex_index, need, Option.bind_some, BitVec.toNat_ofNat, Nat.reducePow, Nat.reduceMod, beq_self_eq_true, Bool.and_self, Bool.not_false, if_true] <;> rfl)

theorem ldbs (d : Reg) (a : Reg) (i : BitVec 12) : Statement (.ldbs d a i) :=
  of_long rfl rfl rfl (congrArg (fun new => some (Instr.ldbs d a new)) (join12 i))

theorem ldbz (d : Reg) (a : Reg) (i : BitVec 12) : Statement (.ldbz d a i) :=
  of_long rfl rfl rfl (congrArg (fun new => some (Instr.ldbz d a new)) (join12 i))

theorem ldhs (d : Reg) (a : Reg) (i : BitVec 12) : Statement (.ldhs d a i) :=
  of_long rfl rfl rfl (congrArg (fun new => some (Instr.ldhs d a new)) (join12 i))

theorem ldhz (d : Reg) (a : Reg) (i : BitVec 12) : Statement (.ldhz d a i) :=
  of_long rfl rfl rfl (congrArg (fun new => some (Instr.ldhz d a new)) (join12 i))

theorem ldws (d : Reg) (a : Reg) (i : BitVec 12) : Statement (.ldws d a i) :=
  of_long rfl rfl rfl (congrArg (fun new => some (Instr.ldws d a new)) (join12 i))

theorem ldwz (d : Reg) (a : Reg) (i : BitVec 12) : Statement (.ldwz d a i) :=
  of_long rfl rfl rfl (congrArg (fun new => some (Instr.ldwz d a new)) (join12 i))

theorem ldd (d : Reg) (a : Reg) (i : BitVec 12) : Statement (.ldd d a i) :=
  of_long rfl rfl rfl (congrArg (fun new => some (Instr.ldd d a new)) (join12 i))

theorem stb (d : Reg) (a : Reg) (i : BitVec 12) : Statement (.stb d a i) :=
  of_long rfl rfl rfl (congrArg (fun new => some (Instr.stb d a new)) (join12 i))

theorem sth (d : Reg) (a : Reg) (i : BitVec 12) : Statement (.sth d a i) :=
  of_long rfl rfl rfl (congrArg (fun new => some (Instr.sth d a new)) (join12 i))

theorem stw (d : Reg) (a : Reg) (i : BitVec 12) : Statement (.stw d a i) :=
  of_long rfl rfl rfl (congrArg (fun new => some (Instr.stw d a new)) (join12 i))

theorem std (d : Reg) (a : Reg) (i : BitVec 12) : Statement (.std d a i) :=
  of_long rfl rfl rfl (congrArg (fun new => some (Instr.std d a new)) (join12 i))

theorem lddW (d : Reg) (a : Reg) (i : BitVec 12) : Statement (.lddW d a i) :=
  of_long rfl rfl rfl (congrArg (fun new => some (Instr.lddW d a new)) (join12 i))

theorem lddWc (d : Reg) (a : Reg) (i : BitVec 12) : Statement (.lddWc d a i) :=
  of_long rfl rfl rfl (congrArg (fun new => some (Instr.lddWc d a new)) (join12 i))

theorem lddT (d : Reg) (a : Reg) (i : BitVec 12) : Statement (.lddT d a i) :=
  of_long rfl rfl rfl (congrArg (fun new => some (Instr.lddT d a new)) (join12 i))

theorem lddTc (d : Reg) (a : Reg) (i : BitVec 12) : Statement (.lddTc d a i) :=
  of_long rfl rfl rfl (congrArg (fun new => some (Instr.lddTc d a new)) (join12 i))

theorem fetest (d : Reg) (a : Reg) (i : BitVec 12) : Statement (.fetest d a i) :=
  of_long rfl rfl rfl (congrArg (fun new => some (Instr.fetest d a new)) (join12 i))

theorem stdF (d : Reg) (a : Reg) (i : BitVec 12) : Statement (.stdF d a i) :=
  of_long rfl rfl rfl (congrArg (fun new => some (Instr.stdF d a new)) (join12 i))

theorem stdWf (d : Reg) (a : Reg) (i : BitVec 12) : Statement (.stdWf d a i) :=
  of_long rfl rfl rfl (congrArg (fun new => some (Instr.stdWf d a new)) (join12 i))

theorem feset (a : Reg) (i : BitVec 12) : Statement (.feset a i) :=
  of_long rfl rfl rfl (congrArg (fun new => some (Instr.feset a new)) (join12 i))

theorem feclr (a : Reg) (i : BitVec 12) : Statement (.feclr a i) :=
  of_long rfl rfl rfl (congrArg (fun new => some (Instr.feclr a new)) (join12 i))

theorem amoAdd (o : Order) (sz : AmoSize) (d : Reg) (a : Reg) (b : Reg) : Statement (.amoAdd o sz d a b) :=
  of_long rfl rfl rfl (by
    show decAmo ⟨o.code ++ sz.bit ++ 0#5, 0, b, 0x1C, d, a⟩ = some (.amoAdd o sz d a b)
    simp only [decAmo, Fields.op5, extract_lo, amo_order, amo_size, Order.ofCode_code, AmoSize.ofBit_bit, need, Option.bind_some, BitVec.toNat_ofNat, Nat.reducePow, Nat.reduceMod, beq_self_eq_true, Bool.and_self, Bool.not_false, if_true] <;> rfl)

theorem amoAnd (o : Order) (sz : AmoSize) (d : Reg) (a : Reg) (b : Reg) : Statement (.amoAnd o sz d a b) :=
  of_long rfl rfl rfl (by
    show decAmo ⟨o.code ++ sz.bit ++ 1#5, 0, b, 0x1C, d, a⟩ = some (.amoAnd o sz d a b)
    simp only [decAmo, Fields.op5, extract_lo, amo_order, amo_size, Order.ofCode_code, AmoSize.ofBit_bit, need, Option.bind_some, BitVec.toNat_ofNat, Nat.reducePow, Nat.reduceMod, beq_self_eq_true, Bool.and_self, Bool.not_false, if_true] <;> rfl)

theorem amoOr (o : Order) (sz : AmoSize) (d : Reg) (a : Reg) (b : Reg) : Statement (.amoOr o sz d a b) :=
  of_long rfl rfl rfl (by
    show decAmo ⟨o.code ++ sz.bit ++ 2#5, 0, b, 0x1C, d, a⟩ = some (.amoOr o sz d a b)
    simp only [decAmo, Fields.op5, extract_lo, amo_order, amo_size, Order.ofCode_code, AmoSize.ofBit_bit, need, Option.bind_some, BitVec.toNat_ofNat, Nat.reducePow, Nat.reduceMod, beq_self_eq_true, Bool.and_self, Bool.not_false, if_true] <;> rfl)

theorem amoXor (o : Order) (sz : AmoSize) (d : Reg) (a : Reg) (b : Reg) : Statement (.amoXor o sz d a b) :=
  of_long rfl rfl rfl (by
    show decAmo ⟨o.code ++ sz.bit ++ 3#5, 0, b, 0x1C, d, a⟩ = some (.amoXor o sz d a b)
    simp only [decAmo, Fields.op5, extract_lo, amo_order, amo_size, Order.ofCode_code, AmoSize.ofBit_bit, need, Option.bind_some, BitVec.toNat_ofNat, Nat.reducePow, Nat.reduceMod, beq_self_eq_true, Bool.and_self, Bool.not_false, if_true] <;> rfl)

theorem amoMin (o : Order) (sz : AmoSize) (d : Reg) (a : Reg) (b : Reg) : Statement (.amoMin o sz d a b) :=
  of_long rfl rfl rfl (by
    show decAmo ⟨o.code ++ sz.bit ++ 4#5, 0, b, 0x1C, d, a⟩ = some (.amoMin o sz d a b)
    simp only [decAmo, Fields.op5, extract_lo, amo_order, amo_size, Order.ofCode_code, AmoSize.ofBit_bit, need, Option.bind_some, BitVec.toNat_ofNat, Nat.reducePow, Nat.reduceMod, beq_self_eq_true, Bool.and_self, Bool.not_false, if_true] <;> rfl)

theorem amoMax (o : Order) (sz : AmoSize) (d : Reg) (a : Reg) (b : Reg) : Statement (.amoMax o sz d a b) :=
  of_long rfl rfl rfl (by
    show decAmo ⟨o.code ++ sz.bit ++ 5#5, 0, b, 0x1C, d, a⟩ = some (.amoMax o sz d a b)
    simp only [decAmo, Fields.op5, extract_lo, amo_order, amo_size, Order.ofCode_code, AmoSize.ofBit_bit, need, Option.bind_some, BitVec.toNat_ofNat, Nat.reducePow, Nat.reduceMod, beq_self_eq_true, Bool.and_self, Bool.not_false, if_true] <;> rfl)

theorem amoMinn (o : Order) (sz : AmoSize) (d : Reg) (a : Reg) (b : Reg) : Statement (.amoMinn o sz d a b) :=
  of_long rfl rfl rfl (by
    show decAmo ⟨o.code ++ sz.bit ++ 6#5, 0, b, 0x1C, d, a⟩ = some (.amoMinn o sz d a b)
    simp only [decAmo, Fields.op5, extract_lo, amo_order, amo_size, Order.ofCode_code, AmoSize.ofBit_bit, need, Option.bind_some, BitVec.toNat_ofNat, Nat.reducePow, Nat.reduceMod, beq_self_eq_true, Bool.and_self, Bool.not_false, if_true] <;> rfl)

theorem amoMaxn (o : Order) (sz : AmoSize) (d : Reg) (a : Reg) (b : Reg) : Statement (.amoMaxn o sz d a b) :=
  of_long rfl rfl rfl (by
    show decAmo ⟨o.code ++ sz.bit ++ 7#5, 0, b, 0x1C, d, a⟩ = some (.amoMaxn o sz d a b)
    simp only [decAmo, Fields.op5, extract_lo, amo_order, amo_size, Order.ofCode_code, AmoSize.ofBit_bit, need, Option.bind_some, BitVec.toNat_ofNat, Nat.reducePow, Nat.reduceMod, beq_self_eq_true, Bool.and_self, Bool.not_false, if_true] <;> rfl)

theorem amoSwap (o : Order) (sz : AmoSize) (d : Reg) (a : Reg) (b : Reg) : Statement (.amoSwap o sz d a b) :=
  of_long rfl rfl rfl (by
    show decAmo ⟨o.code ++ sz.bit ++ 8#5, 0, b, 0x1C, d, a⟩ = some (.amoSwap o sz d a b)
    simp only [decAmo, Fields.op5, extract_lo, amo_order, amo_size, Order.ofCode_code, AmoSize.ofBit_bit, need, Option.bind_some, BitVec.toNat_ofNat, Nat.reducePow, Nat.reduceMod, beq_self_eq_true, Bool.and_self, Bool.not_false, if_true] <;> rfl)

theorem amoCas (o : Order) (sz : AmoSize) (d : Reg) (a : Reg) (b : Reg) (c : Reg) : Statement (.amoCas o sz d a b c) :=
  of_long rfl rfl rfl (by
    show decAmo ⟨o.code ++ sz.bit ++ 9#5, c, b, 0x1C, d, a⟩ = some (.amoCas o sz d a b c)
    simp only [decAmo, Fields.op5, extract_lo, amo_order, amo_size, Order.ofCode_code, AmoSize.ofBit_bit, need, Option.bind_some, BitVec.toNat_ofNat, Nat.reducePow, Nat.reduceMod, beq_self_eq_true, Bool.and_self, Bool.not_false, if_true] <;> rfl)

theorem amoFadd (o : Order) (sz : AmoSize) (d : Reg) (a : Reg) (b : Reg) : Statement (.amoFadd o sz d a b) :=
  of_long rfl rfl rfl (by
    show decAmo ⟨o.code ++ sz.bit ++ 10#5, 0, b, 0x1C, d, a⟩ = some (.amoFadd o sz d a b)
    simp only [decAmo, Fields.op5, extract_lo, amo_order, amo_size, Order.ofCode_code, AmoSize.ofBit_bit, need, Option.bind_some, BitVec.toNat_ofNat, Nat.reducePow, Nat.reduceMod, beq_self_eq_true, Bool.and_self, Bool.not_false, if_true] <;> rfl)

theorem fence (sc : Scope) : Statement (.fence sc) :=
  of_long rfl rfl rfl (by
    show decFence ⟨0x00, 0, sc.code, 0x1D, 0, 0⟩ = some (.fence sc)
    simp only [decFence, Scope.ofCode_code, need, Option.bind_some, BitVec.toNat_ofNat, Nat.reducePow, Nat.reduceMod, beq_self_eq_true, Bool.and_self, Bool.not_false, if_true] <;> rfl)

theorem fenceAcq (sc : Scope) : Statement (.fenceAcq sc) :=
  of_long rfl rfl rfl (by
    show decFence ⟨0x01, 0, sc.code, 0x1D, 0, 0⟩ = some (.fenceAcq sc)
    simp only [decFence, Scope.ofCode_code, need, Option.bind_some, BitVec.toNat_ofNat, Nat.reducePow, Nat.reduceMod, beq_self_eq_true, Bool.and_self, Bool.not_false, if_true] <;> rfl)

theorem fenceRel (sc : Scope) : Statement (.fenceRel sc) :=
  of_long rfl rfl rfl (by
    show decFence ⟨0x02, 0, sc.code, 0x1D, 0, 0⟩ = some (.fenceRel sc)
    simp only [decFence, Scope.ofCode_code, need, Option.bind_some, BitVec.toNat_ofNat, Nat.reducePow, Nat.reduceMod, beq_self_eq_true, Bool.and_self, Bool.not_false, if_true] <;> rfl)

theorem fenceEng : Statement (.fenceEng) :=
  of_long rfl rfl rfl rfl

theorem send (cls : BitVec 8) (a : Reg) (p : Reg) (n : BitVec 4) : Statement (.send cls a p n) :=
  of_long rfl rfl rfl rfl

theorem sendx (cls : BitVec 8) (a : Reg) (b : Reg) (c : Reg) : Statement (.sendx cls a b c) :=
  of_long rfl rfl rfl rfl

theorem sendg (cls : BitVec 8) (a : Reg) (p : Reg) (n : BitVec 4) : Statement (.sendg cls a p n) :=
  of_long rfl rfl rfl rfl

theorem get (a : Reg) (b : Reg) (c : Reg) : Statement (.get a b c) :=
  of_long rfl rfl rfl rfl

theorem getN (d : Reg) (a : Reg) (b : Reg) (c : Reg) : Statement (.getN d a b c) :=
  of_long rfl rfl rfl rfl

theorem put (a : Reg) (b : Reg) (c : Reg) : Statement (.put a b c) :=
  of_long rfl rfl rfl rfl

theorem putF (a : Reg) (b : Reg) (c : Reg) : Statement (.putF a b c) :=
  of_long rfl rfl rfl rfl

theorem putN (d : Reg) (a : Reg) (b : Reg) (c : Reg) : Statement (.putN d a b c) :=
  of_long rfl rfl rfl rfl

theorem putFn (d : Reg) (a : Reg) (b : Reg) (c : Reg) : Statement (.putFn d a b c) :=
  of_long rfl rfl rfl rfl

theorem carm (a : Reg) (b : Reg) (c : Reg) : Statement (.carm a b c) :=
  of_long rfl rfl rfl rfl

theorem cadd (d : Reg) (a : Reg) (b : Reg) : Statement (.cadd d a b) :=
  of_long rfl rfl rfl rfl

theorem crd (d : Reg) (a : Reg) : Statement (.crd d a) :=
  of_long rfl rfl rfl rfl

theorem cdis (a : Reg) : Statement (.cdis a) :=
  of_long rfl rfl rfl rfl

theorem cinc (a : Reg) (b : Reg) (c : Reg) : Statement (.cinc a b c) :=
  of_long rfl rfl rfl rfl

theorem msgld (d : Reg) (w : BitVec 5) : Statement (.msgld d w) :=
  of_long rfl rfl rfl (by
    show decMsg ⟨0x00, 0#3 ++ w.extractLsb' 4 1, w.extractLsb' 0 4, 0x26, d, 0⟩ = some (.msgld d w)
    simp only [decMsg, extract_hi, extract_lo, join5, need, Option.bind_some, BitVec.toNat_ofNat, Nat.reducePow, Nat.reduceMod, beq_self_eq_true, Bool.and_self, Bool.not_false, if_true] <;> rfl)

theorem msghd (d : Reg) (h : BitVec 1) : Statement (.msghd d h) :=
  of_long rfl rfl rfl (by
    show decMsg ⟨0x01, 0, 0#3 ++ h, 0x26, d, 0⟩ = some (.msghd d h)
    simp only [decMsg, extract_hi, extract_lo, join5, need, Option.bind_some, BitVec.toNat_ofNat, Nat.reducePow, Nat.reduceMod, beq_self_eq_true, Bool.and_self, Bool.not_false, if_true] <;> rfl)

theorem msgid (d : Reg) : Statement (.msgid d) :=
  of_long rfl rfl rfl rfl

theorem msglen (d : Reg) : Statement (.msglen d) :=
  of_long rfl rfl rfl rfl

theorem rresv (d : Reg) (a : Reg) (b : Reg) : Statement (.rresv d a b) :=
  of_long rfl rfl rfl rfl

theorem rpubl (a : Reg) (b : Reg) (c : Reg) : Statement (.rpubl a b c) :=
  of_long rfl rfl rfl rfl

theorem rhead (d : Reg) (a : Reg) : Statement (.rhead d a) :=
  of_long rfl rfl rfl rfl

theorem rcons (a : Reg) (b : Reg) : Statement (.rcons a b) :=
  of_long rfl rfl rfl rfl

theorem fadd (p : Prec) (r : Rnd) (d : Reg) (a : Reg) (b : Reg) : Statement (.fadd p r d a b) :=
  of_long rfl rfl rfl (by
    show decFop ⟨p.bit ++ r.code ++ 0#5, 0, b, 0x28, d, a⟩ = some (.fadd p r d a b)
    simp only [decFop, Fields.op5, extract_lo, fop_prec, fop_rnd, Prec.ofBit_bit, Rnd.ofCode_code, need, Option.bind_some, BitVec.toNat_ofNat, Nat.reducePow, Nat.reduceMod, beq_self_eq_true, Bool.and_self, Bool.not_false, if_true] <;> rfl)

theorem fsub (p : Prec) (r : Rnd) (d : Reg) (a : Reg) (b : Reg) : Statement (.fsub p r d a b) :=
  of_long rfl rfl rfl (by
    show decFop ⟨p.bit ++ r.code ++ 1#5, 0, b, 0x28, d, a⟩ = some (.fsub p r d a b)
    simp only [decFop, Fields.op5, extract_lo, fop_prec, fop_rnd, Prec.ofBit_bit, Rnd.ofCode_code, need, Option.bind_some, BitVec.toNat_ofNat, Nat.reducePow, Nat.reduceMod, beq_self_eq_true, Bool.and_self, Bool.not_false, if_true] <;> rfl)

theorem fmul (p : Prec) (r : Rnd) (d : Reg) (a : Reg) (b : Reg) : Statement (.fmul p r d a b) :=
  of_long rfl rfl rfl (by
    show decFop ⟨p.bit ++ r.code ++ 2#5, 0, b, 0x28, d, a⟩ = some (.fmul p r d a b)
    simp only [decFop, Fields.op5, extract_lo, fop_prec, fop_rnd, Prec.ofBit_bit, Rnd.ofCode_code, need, Option.bind_some, BitVec.toNat_ofNat, Nat.reducePow, Nat.reduceMod, beq_self_eq_true, Bool.and_self, Bool.not_false, if_true] <;> rfl)

theorem fdiv (p : Prec) (r : Rnd) (d : Reg) (a : Reg) (b : Reg) : Statement (.fdiv p r d a b) :=
  of_long rfl rfl rfl (by
    show decFop ⟨p.bit ++ r.code ++ 3#5, 0, b, 0x28, d, a⟩ = some (.fdiv p r d a b)
    simp only [decFop, Fields.op5, extract_lo, fop_prec, fop_rnd, Prec.ofBit_bit, Rnd.ofCode_code, need, Option.bind_some, BitVec.toNat_ofNat, Nat.reducePow, Nat.reduceMod, beq_self_eq_true, Bool.and_self, Bool.not_false, if_true] <;> rfl)

theorem fsqrt (p : Prec) (r : Rnd) (d : Reg) (a : Reg) : Statement (.fsqrt p r d a) :=
  of_long rfl rfl rfl (by
    show decFop ⟨p.bit ++ r.code ++ 4#5, 0, 0, 0x28, d, a⟩ = some (.fsqrt p r d a)
    simp only [decFop, Fields.op5, extract_lo, fop_prec, fop_rnd, Prec.ofBit_bit, Rnd.ofCode_code, need, Option.bind_some, BitVec.toNat_ofNat, Nat.reducePow, Nat.reduceMod, beq_self_eq_true, Bool.and_self, Bool.not_false, if_true] <;> rfl)

theorem fmin (p : Prec) (d : Reg) (a : Reg) (b : Reg) : Statement (.fmin p d a b) :=
  of_long rfl rfl rfl (by
    show decFop ⟨p.bit ++ 0#2 ++ 5#5, 0, b, 0x28, d, a⟩ = some (.fmin p d a b)
    simp only [decFop, Fields.op5, extract_lo, fop_prec, fop_rnd, Prec.ofBit_bit, Rnd.ofCode_code, need, Option.bind_some, BitVec.toNat_ofNat, Nat.reducePow, Nat.reduceMod, beq_self_eq_true, Bool.and_self, Bool.not_false, if_true] <;> rfl)

theorem fmax (p : Prec) (d : Reg) (a : Reg) (b : Reg) : Statement (.fmax p d a b) :=
  of_long rfl rfl rfl (by
    show decFop ⟨p.bit ++ 0#2 ++ 6#5, 0, b, 0x28, d, a⟩ = some (.fmax p d a b)
    simp only [decFop, Fields.op5, extract_lo, fop_prec, fop_rnd, Prec.ofBit_bit, Rnd.ofCode_code, need, Option.bind_some, BitVec.toNat_ofNat, Nat.reducePow, Nat.reduceMod, beq_self_eq_true, Bool.and_self, Bool.not_false, if_true] <;> rfl)

theorem fabs (p : Prec) (d : Reg) (a : Reg) : Statement (.fabs p d a) :=
  of_long rfl rfl rfl (by
    show decFop ⟨p.bit ++ 0#2 ++ 7#5, 0, 0, 0x28, d, a⟩ = some (.fabs p d a)
    simp only [decFop, Fields.op5, extract_lo, fop_prec, fop_rnd, Prec.ofBit_bit, Rnd.ofCode_code, need, Option.bind_some, BitVec.toNat_ofNat, Nat.reducePow, Nat.reduceMod, beq_self_eq_true, Bool.and_self, Bool.not_false, if_true] <;> rfl)

theorem fneg (p : Prec) (d : Reg) (a : Reg) : Statement (.fneg p d a) :=
  of_long rfl rfl rfl (by
    show decFop ⟨p.bit ++ 0#2 ++ 8#5, 0, 0, 0x28, d, a⟩ = some (.fneg p d a)
    simp only [decFop, Fields.op5, extract_lo, fop_prec, fop_rnd, Prec.ofBit_bit, Rnd.ofCode_code, need, Option.bind_some, BitVec.toNat_ofNat, Nat.reducePow, Nat.reduceMod, beq_self_eq_true, Bool.and_self, Bool.not_false, if_true] <;> rfl)

theorem fcpys (p : Prec) (d : Reg) (a : Reg) (b : Reg) : Statement (.fcpys p d a b) :=
  of_long rfl rfl rfl (by
    show decFop ⟨p.bit ++ 0#2 ++ 9#5, 0, b, 0x28, d, a⟩ = some (.fcpys p d a b)
    simp only [decFop, Fields.op5, extract_lo, fop_prec, fop_rnd, Prec.ofBit_bit, Rnd.ofCode_code, need, Option.bind_some, BitVec.toNat_ofNat, Nat.reducePow, Nat.reduceMod, beq_self_eq_true, Bool.and_self, Bool.not_false, if_true] <;> rfl)

theorem ffma (p : Prec) (r : Rnd) (d : Reg) (a : Reg) (b : Reg) (c : Reg) : Statement (.ffma p r d a b c) :=
  of_long rfl rfl rfl (by
    show decFop ⟨p.bit ++ r.code ++ 10#5, c, b, 0x28, d, a⟩ = some (.ffma p r d a b c)
    simp only [decFop, Fields.op5, extract_lo, fop_prec, fop_rnd, Prec.ofBit_bit, Rnd.ofCode_code, need, Option.bind_some, BitVec.toNat_ofNat, Nat.reducePow, Nat.reduceMod, beq_self_eq_true, Bool.and_self, Bool.not_false, if_true] <;> rfl)

theorem ffms (p : Prec) (r : Rnd) (d : Reg) (a : Reg) (b : Reg) (c : Reg) : Statement (.ffms p r d a b c) :=
  of_long rfl rfl rfl (by
    show decFop ⟨p.bit ++ r.code ++ 11#5, c, b, 0x28, d, a⟩ = some (.ffms p r d a b c)
    simp only [decFop, Fields.op5, extract_lo, fop_prec, fop_rnd, Prec.ofBit_bit, Rnd.ofCode_code, need, Option.bind_some, BitVec.toNat_ofNat, Nat.reducePow, Nat.reduceMod, beq_self_eq_true, Bool.and_self, Bool.not_false, if_true] <;> rfl)

theorem fnfma (p : Prec) (r : Rnd) (d : Reg) (a : Reg) (b : Reg) (c : Reg) : Statement (.fnfma p r d a b c) :=
  of_long rfl rfl rfl (by
    show decFop ⟨p.bit ++ r.code ++ 12#5, c, b, 0x28, d, a⟩ = some (.fnfma p r d a b c)
    simp only [decFop, Fields.op5, extract_lo, fop_prec, fop_rnd, Prec.ofBit_bit, Rnd.ofCode_code, need, Option.bind_some, BitVec.toNat_ofNat, Nat.reducePow, Nat.reduceMod, beq_self_eq_true, Bool.and_self, Bool.not_false, if_true] <;> rfl)

theorem fnfms (p : Prec) (r : Rnd) (d : Reg) (a : Reg) (b : Reg) (c : Reg) : Statement (.fnfms p r d a b c) :=
  of_long rfl rfl rfl (by
    show decFop ⟨p.bit ++ r.code ++ 13#5, c, b, 0x28, d, a⟩ = some (.fnfms p r d a b c)
    simp only [decFop, Fields.op5, extract_lo, fop_prec, fop_rnd, Prec.ofBit_bit, Rnd.ofCode_code, need, Option.bind_some, BitVec.toNat_ofNat, Nat.reducePow, Nat.reduceMod, beq_self_eq_true, Bool.and_self, Bool.not_false, if_true] <;> rfl)

theorem feq (p : Prec) (d : Reg) (a : Reg) (b : Reg) : Statement (.feq p d a b) :=
  of_long rfl rfl rfl (by
    show decFop ⟨p.bit ++ 0#2 ++ 14#5, 0, b, 0x28, d, a⟩ = some (.feq p d a b)
    simp only [decFop, Fields.op5, extract_lo, fop_prec, fop_rnd, Prec.ofBit_bit, Rnd.ofCode_code, need, Option.bind_some, BitVec.toNat_ofNat, Nat.reducePow, Nat.reduceMod, beq_self_eq_true, Bool.and_self, Bool.not_false, if_true] <;> rfl)

theorem flt (p : Prec) (d : Reg) (a : Reg) (b : Reg) : Statement (.flt p d a b) :=
  of_long rfl rfl rfl (by
    show decFop ⟨p.bit ++ 0#2 ++ 15#5, 0, b, 0x28, d, a⟩ = some (.flt p d a b)
    simp only [decFop, Fields.op5, extract_lo, fop_prec, fop_rnd, Prec.ofBit_bit, Rnd.ofCode_code, need, Option.bind_some, BitVec.toNat_ofNat, Nat.reducePow, Nat.reduceMod, beq_self_eq_true, Bool.and_self, Bool.not_false, if_true] <;> rfl)

theorem fle (p : Prec) (d : Reg) (a : Reg) (b : Reg) : Statement (.fle p d a b) :=
  of_long rfl rfl rfl (by
    show decFop ⟨p.bit ++ 0#2 ++ 16#5, 0, b, 0x28, d, a⟩ = some (.fle p d a b)
    simp only [decFop, Fields.op5, extract_lo, fop_prec, fop_rnd, Prec.ofBit_bit, Rnd.ofCode_code, need, Option.bind_some, BitVec.toNat_ofNat, Nat.reducePow, Nat.reduceMod, beq_self_eq_true, Bool.and_self, Bool.not_false, if_true] <;> rfl)

end EncodeDecode

theorem EncodeDecode.fun (p : Prec) (d : Reg) (a : Reg) (b : Reg) : EncodeDecode.Statement (.fun p d a b) :=
  EncodeDecode.of_long rfl rfl rfl (by
    show decFop ⟨p.bit ++ 0#2 ++ 17#5, 0, b, 0x28, d, a⟩ = some (.fun p d a b)
    simp only [decFop, Fields.op5, extract_lo, fop_prec, fop_rnd, Prec.ofBit_bit, Rnd.ofCode_code, need, Option.bind_some, BitVec.toNat_ofNat, Nat.reducePow, Nat.reduceMod, beq_self_eq_true, Bool.and_self, Bool.not_false, if_true] <;> rfl)

namespace EncodeDecode

theorem fclass (p : Prec) (d : Reg) (a : Reg) : Statement (.fclass p d a) :=
  of_long rfl rfl rfl (by
    show decFop ⟨p.bit ++ 0#2 ++ 18#5, 0, 0, 0x28, d, a⟩ = some (.fclass p d a)
    simp only [decFop, Fields.op5, extract_lo, fop_prec, fop_rnd, Prec.ofBit_bit, Rnd.ofCode_code, need, Option.bind_some, BitVec.toNat_ofNat, Nat.reducePow, Nat.reduceMod, beq_self_eq_true, Bool.and_self, Bool.not_false, if_true] <;> rfl)

theorem fcvtp (p : Prec) (r : Rnd) (d : Reg) (a : Reg) : Statement (.fcvtp p r d a) :=
  of_long rfl rfl rfl (by
    show decFop ⟨p.bit ++ r.code ++ 19#5, 0, 0, 0x28, d, a⟩ = some (.fcvtp p r d a)
    simp only [decFop, Fields.op5, extract_lo, fop_prec, fop_rnd, Prec.ofBit_bit, Rnd.ofCode_code, need, Option.bind_some, BitVec.toNat_ofNat, Nat.reducePow, Nat.reduceMod, beq_self_eq_true, Bool.and_self, Bool.not_false, if_true] <;> rfl)

theorem ftos (p : Prec) (r : Rnd) (d : Reg) (a : Reg) : Statement (.ftos p r d a) :=
  of_long rfl rfl rfl (by
    show decFop ⟨p.bit ++ r.code ++ 20#5, 0, 0, 0x28, d, a⟩ = some (.ftos p r d a)
    simp only [decFop, Fields.op5, extract_lo, fop_prec, fop_rnd, Prec.ofBit_bit, Rnd.ofCode_code, need, Option.bind_some, BitVec.toNat_ofNat, Nat.reducePow, Nat.reduceMod, beq_self_eq_true, Bool.and_self, Bool.not_false, if_true] <;> rfl)

theorem fton (p : Prec) (r : Rnd) (d : Reg) (a : Reg) : Statement (.fton p r d a) :=
  of_long rfl rfl rfl (by
    show decFop ⟨p.bit ++ r.code ++ 21#5, 0, 0, 0x28, d, a⟩ = some (.fton p r d a)
    simp only [decFop, Fields.op5, extract_lo, fop_prec, fop_rnd, Prec.ofBit_bit, Rnd.ofCode_code, need, Option.bind_some, BitVec.toNat_ofNat, Nat.reducePow, Nat.reduceMod, beq_self_eq_true, Bool.and_self, Bool.not_false, if_true] <;> rfl)

theorem stof (p : Prec) (r : Rnd) (d : Reg) (a : Reg) : Statement (.stof p r d a) :=
  of_long rfl rfl rfl (by
    show decFop ⟨p.bit ++ r.code ++ 22#5, 0, 0, 0x28, d, a⟩ = some (.stof p r d a)
    simp only [decFop, Fields.op5, extract_lo, fop_prec, fop_rnd, Prec.ofBit_bit, Rnd.ofCode_code, need, Option.bind_some, BitVec.toNat_ofNat, Nat.reducePow, Nat.reduceMod, beq_self_eq_true, Bool.and_self, Bool.not_false, if_true] <;> rfl)

theorem ntof (p : Prec) (r : Rnd) (d : Reg) (a : Reg) : Statement (.ntof p r d a) :=
  of_long rfl rfl rfl (by
    show decFop ⟨p.bit ++ r.code ++ 23#5, 0, 0, 0x28, d, a⟩ = some (.ntof p r d a)
    simp only [decFop, Fields.op5, extract_lo, fop_prec, fop_rnd, Prec.ofBit_bit, Rnd.ofCode_code, need, Option.bind_some, BitVec.toNat_ofNat, Nat.reducePow, Nat.reduceMod, beq_self_eq_true, Bool.and_self, Bool.not_false, if_true] <;> rfl)

theorem frint (p : Prec) (r : Rnd) (d : Reg) (a : Reg) : Statement (.frint p r d a) :=
  of_long rfl rfl rfl (by
    show decFop ⟨p.bit ++ r.code ++ 24#5, 0, 0, 0x28, d, a⟩ = some (.frint p r d a)
    simp only [decFop, Fields.op5, extract_lo, fop_prec, fop_rnd, Prec.ofBit_bit, Rnd.ofCode_code, need, Option.bind_some, BitVec.toNat_ofNat, Nat.reducePow, Nat.reduceMod, beq_self_eq_true, Bool.and_self, Bool.not_false, if_true] <;> rfl)

theorem vadd (t : ElemType) (z : Bool) (d : Reg) (a : Reg) (b : Reg) (k : KReg) : Statement (.vadd t z d a b k) :=
  of_long rfl rfl rfl (by
    show decVari ⟨0#4 ++ t.code, BitVec.ofBool z ++ k, b, 0x30, d, a⟩ = some (.vadd t z d a b k)
    simp only [decVari, Fields.fn4, Fields.ty, Fields.z, Fields.k, extract_hi, extract_lo, ElemType.ofCode_code, ofBool_bit, need, Option.bind_some, BitVec.toNat_ofNat, Nat.reducePow, Nat.reduceMod, beq_self_eq_true, Bool.and_self, Bool.not_false, if_true] <;> rfl)

theorem vsub (t : ElemType) (z : Bool) (d : Reg) (a : Reg) (b : Reg) (k : KReg) : Statement (.vsub t z d a b k) :=
  of_long rfl rfl rfl (by
    show decVari ⟨1#4 ++ t.code, BitVec.ofBool z ++ k, b, 0x30, d, a⟩ = some (.vsub t z d a b k)
    simp only [decVari, Fields.fn4, Fields.ty, Fields.z, Fields.k, extract_hi, extract_lo, ElemType.ofCode_code, ofBool_bit, need, Option.bind_some, BitVec.toNat_ofNat, Nat.reducePow, Nat.reduceMod, beq_self_eq_true, Bool.and_self, Bool.not_false, if_true] <;> rfl)

theorem vmul (t : ElemType) (z : Bool) (d : Reg) (a : Reg) (b : Reg) (k : KReg) : Statement (.vmul t z d a b k) :=
  of_long rfl rfl rfl (by
    show decVari ⟨2#4 ++ t.code, BitVec.ofBool z ++ k, b, 0x30, d, a⟩ = some (.vmul t z d a b k)
    simp only [decVari, Fields.fn4, Fields.ty, Fields.z, Fields.k, extract_hi, extract_lo, ElemType.ofCode_code, ofBool_bit, need, Option.bind_some, BitVec.toNat_ofNat, Nat.reducePow, Nat.reduceMod, beq_self_eq_true, Bool.and_self, Bool.not_false, if_true] <;> rfl)

theorem vmin (t : ElemType) (z : Bool) (d : Reg) (a : Reg) (b : Reg) (k : KReg) : Statement (.vmin t z d a b k) :=
  of_long rfl rfl rfl (by
    show decVari ⟨3#4 ++ t.code, BitVec.ofBool z ++ k, b, 0x30, d, a⟩ = some (.vmin t z d a b k)
    simp only [decVari, Fields.fn4, Fields.ty, Fields.z, Fields.k, extract_hi, extract_lo, ElemType.ofCode_code, ofBool_bit, need, Option.bind_some, BitVec.toNat_ofNat, Nat.reducePow, Nat.reduceMod, beq_self_eq_true, Bool.and_self, Bool.not_false, if_true] <;> rfl)

theorem vmax (t : ElemType) (z : Bool) (d : Reg) (a : Reg) (b : Reg) (k : KReg) : Statement (.vmax t z d a b k) :=
  of_long rfl rfl rfl (by
    show decVari ⟨4#4 ++ t.code, BitVec.ofBool z ++ k, b, 0x30, d, a⟩ = some (.vmax t z d a b k)
    simp only [decVari, Fields.fn4, Fields.ty, Fields.z, Fields.k, extract_hi, extract_lo, ElemType.ofCode_code, ofBool_bit, need, Option.bind_some, BitVec.toNat_ofNat, Nat.reducePow, Nat.reduceMod, beq_self_eq_true, Bool.and_self, Bool.not_false, if_true] <;> rfl)

theorem vabs (t : ElemType) (z : Bool) (d : Reg) (a : Reg) (k : KReg) : Statement (.vabs t z d a k) :=
  of_long rfl rfl rfl (by
    show decVari ⟨5#4 ++ t.code, BitVec.ofBool z ++ k, 0, 0x30, d, a⟩ = some (.vabs t z d a k)
    simp only [decVari, Fields.fn4, Fields.ty, Fields.z, Fields.k, extract_hi, extract_lo, ElemType.ofCode_code, ofBool_bit, need, Option.bind_some, BitVec.toNat_ofNat, Nat.reducePow, Nat.reduceMod, beq_self_eq_true, Bool.and_self, Bool.not_false, if_true] <;> rfl)

theorem vneg (t : ElemType) (z : Bool) (d : Reg) (a : Reg) (k : KReg) : Statement (.vneg t z d a k) :=
  of_long rfl rfl rfl (by
    show decVari ⟨6#4 ++ t.code, BitVec.ofBool z ++ k, 0, 0x30, d, a⟩ = some (.vneg t z d a k)
    simp only [decVari, Fields.fn4, Fields.ty, Fields.z, Fields.k, extract_hi, extract_lo, ElemType.ofCode_code, ofBool_bit, need, Option.bind_some, BitVec.toNat_ofNat, Nat.reducePow, Nat.reduceMod, beq_self_eq_true, Bool.and_self, Bool.not_false, if_true] <;> rfl)

theorem vadds (t : ElemType) (z : Bool) (d : Reg) (a : Reg) (b : Reg) (k : KReg) : Statement (.vadds t z d a b k) :=
  of_long rfl rfl rfl (by
    show decVari ⟨7#4 ++ t.code, BitVec.ofBool z ++ k, b, 0x30, d, a⟩ = some (.vadds t z d a b k)
    simp only [decVari, Fields.fn4, Fields.ty, Fields.z, Fields.k, extract_hi, extract_lo, ElemType.ofCode_code, ofBool_bit, need, Option.bind_some, BitVec.toNat_ofNat, Nat.reducePow, Nat.reduceMod, beq_self_eq_true, Bool.and_self, Bool.not_false, if_true] <;> rfl)

theorem vsubs (t : ElemType) (z : Bool) (d : Reg) (a : Reg) (b : Reg) (k : KReg) : Statement (.vsubs t z d a b k) :=
  of_long rfl rfl rfl (by
    show decVari ⟨8#4 ++ t.code, BitVec.ofBool z ++ k, b, 0x30, d, a⟩ = some (.vsubs t z d a b k)
    simp only [decVari, Fields.fn4, Fields.ty, Fields.z, Fields.k, extract_hi, extract_lo, ElemType.ofCode_code, ofBool_bit, need, Option.bind_some, BitVec.toNat_ofNat, Nat.reducePow, Nat.reduceMod, beq_self_eq_true, Bool.and_self, Bool.not_false, if_true] <;> rfl)

theorem vmulh (t : ElemType) (z : Bool) (d : Reg) (a : Reg) (b : Reg) (k : KReg) : Statement (.vmulh t z d a b k) :=
  of_long rfl rfl rfl (by
    show decVari ⟨9#4 ++ t.code, BitVec.ofBool z ++ k, b, 0x30, d, a⟩ = some (.vmulh t z d a b k)
    simp only [decVari, Fields.fn4, Fields.ty, Fields.z, Fields.k, extract_hi, extract_lo, ElemType.ofCode_code, ofBool_bit, need, Option.bind_some, BitVec.toNat_ofNat, Nat.reducePow, Nat.reduceMod, beq_self_eq_true, Bool.and_self, Bool.not_false, if_true] <;> rfl)

theorem vdiv (t : ElemType) (z : Bool) (d : Reg) (a : Reg) (b : Reg) (k : KReg) : Statement (.vdiv t z d a b k) :=
  of_long rfl rfl rfl (by
    show decVari ⟨10#4 ++ t.code, BitVec.ofBool z ++ k, b, 0x30, d, a⟩ = some (.vdiv t z d a b k)
    simp only [decVari, Fields.fn4, Fields.ty, Fields.z, Fields.k, extract_hi, extract_lo, ElemType.ofCode_code, ofBool_bit, need, Option.bind_some, BitVec.toNat_ofNat, Nat.reducePow, Nat.reduceMod, beq_self_eq_true, Bool.and_self, Bool.not_false, if_true] <;> rfl)

theorem vsqrt (t : ElemType) (z : Bool) (d : Reg) (a : Reg) (k : KReg) : Statement (.vsqrt t z d a k) :=
  of_long rfl rfl rfl (by
    show decVari ⟨11#4 ++ t.code, BitVec.ofBool z ++ k, 0, 0x30, d, a⟩ = some (.vsqrt t z d a k)
    simp only [decVari, Fields.fn4, Fields.ty, Fields.z, Fields.k, extract_hi, extract_lo, ElemType.ofCode_code, ofBool_bit, need, Option.bind_some, BitVec.toNat_ofNat, Nat.reducePow, Nat.reduceMod, beq_self_eq_true, Bool.and_self, Bool.not_false, if_true] <;> rfl)

theorem vavg (t : ElemType) (z : Bool) (d : Reg) (a : Reg) (b : Reg) (k : KReg) : Statement (.vavg t z d a b k) :=
  of_long rfl rfl rfl (by
    show decVari ⟨12#4 ++ t.code, BitVec.ofBool z ++ k, b, 0x30, d, a⟩ = some (.vavg t z d a b k)
    simp only [decVari, Fields.fn4, Fields.ty, Fields.z, Fields.k, extract_hi, extract_lo, ElemType.ofCode_code, ofBool_bit, need, Option.bind_some, BitVec.toNat_ofNat, Nat.reducePow, Nat.reduceMod, beq_self_eq_true, Bool.and_self, Bool.not_false, if_true] <;> rfl)

theorem vfma (t : ElemType) (z : Bool) (d : Reg) (a : Reg) (b : Reg) (k : KReg) : Statement (.vfma t z d a b k) :=
  of_long rfl rfl rfl (by
    show decVfma ⟨0#4 ++ t.code, BitVec.ofBool z ++ k, b, 0x31, d, a⟩ = some (.vfma t z d a b k)
    simp only [decVfma, Fields.fn4, Fields.ty, Fields.z, Fields.k, extract_hi, extract_lo, ElemType.ofCode_code, ofBool_bit, need, Option.bind_some, BitVec.toNat_ofNat, Nat.reducePow, Nat.reduceMod, beq_self_eq_true, Bool.and_self, Bool.not_false, if_true] <;> rfl)

theorem vfms (t : ElemType) (z : Bool) (d : Reg) (a : Reg) (b : Reg) (k : KReg) : Statement (.vfms t z d a b k) :=
  of_long rfl rfl rfl (by
    show decVfma ⟨1#4 ++ t.code, BitVec.ofBool z ++ k, b, 0x31, d, a⟩ = some (.vfms t z d a b k)
    simp only [decVfma, Fields.fn4, Fields.ty, Fields.z, Fields.k, extract_hi, extract_lo, ElemType.ofCode_code, ofBool_bit, need, Option.bind_some, BitVec.toNat_ofNat, Nat.reducePow, Nat.reduceMod, beq_self_eq_true, Bool.and_self, Bool.not_false, if_true] <;> rfl)

theorem vnfma (t : ElemType) (z : Bool) (d : Reg) (a : Reg) (b : Reg) (k : KReg) : Statement (.vnfma t z d a b k) :=
  of_long rfl rfl rfl (by
    show decVfma ⟨2#4 ++ t.code, BitVec.ofBool z ++ k, b, 0x31, d, a⟩ = some (.vnfma t z d a b k)
    simp only [decVfma, Fields.fn4, Fields.ty, Fields.z, Fields.k, extract_hi, extract_lo, ElemType.ofCode_code, ofBool_bit, need, Option.bind_some, BitVec.toNat_ofNat, Nat.reducePow, Nat.reduceMod, beq_self_eq_true, Bool.and_self, Bool.not_false, if_true] <;> rfl)

theorem vmac (t : ElemType) (z : Bool) (d : Reg) (a : Reg) (b : Reg) (k : KReg) : Statement (.vmac t z d a b k) :=
  of_long rfl rfl rfl (by
    show decVfma ⟨3#4 ++ t.code, BitVec.ofBool z ++ k, b, 0x31, d, a⟩ = some (.vmac t z d a b k)
    simp only [decVfma, Fields.fn4, Fields.ty, Fields.z, Fields.k, extract_hi, extract_lo, ElemType.ofCode_code, ofBool_bit, need, Option.bind_some, BitVec.toNat_ofNat, Nat.reducePow, Nat.reduceMod, beq_self_eq_true, Bool.and_self, Bool.not_false, if_true] <;> rfl)

theorem vdot2 (t : ElemType) (z : Bool) (d : Reg) (a : Reg) (b : Reg) (k : KReg) : Statement (.vdot2 t z d a b k) :=
  of_long rfl rfl rfl (by
    show decVfma ⟨4#4 ++ t.code, BitVec.ofBool z ++ k, b, 0x31, d, a⟩ = some (.vdot2 t z d a b k)
    simp only [decVfma, Fields.fn4, Fields.ty, Fields.z, Fields.k, extract_hi, extract_lo, ElemType.ofCode_code, ofBool_bit, need, Option.bind_some, BitVec.toNat_ofNat, Nat.reducePow, Nat.reduceMod, beq_self_eq_true, Bool.and_self, Bool.not_false, if_true] <;> rfl)

theorem vdot4 (t : ElemType) (z : Bool) (d : Reg) (a : Reg) (b : Reg) (k : KReg) : Statement (.vdot4 t z d a b k) :=
  of_long rfl rfl rfl (by
    show decVfma ⟨5#4 ++ t.code, BitVec.ofBool z ++ k, b, 0x31, d, a⟩ = some (.vdot4 t z d a b k)
    simp only [decVfma, Fields.fn4, Fields.ty, Fields.z, Fields.k, extract_hi, extract_lo, ElemType.ofCode_code, ofBool_bit, need, Option.bind_some, BitVec.toNat_ofNat, Nat.reducePow, Nat.reduceMod, beq_self_eq_true, Bool.and_self, Bool.not_false, if_true] <;> rfl)

theorem vdot4i (t : ElemType) (z : Bool) (d : Reg) (a : Reg) (b : Reg) (k : KReg) : Statement (.vdot4i t z d a b k) :=
  of_long rfl rfl rfl (by
    show decVfma ⟨6#4 ++ t.code, BitVec.ofBool z ++ k, b, 0x31, d, a⟩ = some (.vdot4i t z d a b k)
    simp only [decVfma, Fields.fn4, Fields.ty, Fields.z, Fields.k, extract_hi, extract_lo, ElemType.ofCode_code, ofBool_bit, need, Option.bind_some, BitVec.toNat_ofNat, Nat.reducePow, Nat.reduceMod, beq_self_eq_true, Bool.and_self, Bool.not_false, if_true] <;> rfl)

theorem vand (t : ElemType) (z : Bool) (d : Reg) (a : Reg) (b : Reg) (k : KReg) : Statement (.vand t z d a b k) :=
  of_long rfl rfl rfl (by
    show decVlog ⟨0#4 ++ t.code, BitVec.ofBool z ++ k, b, 0x32, d, a⟩ = some (.vand t z d a b k)
    simp only [decVlog, Fields.fn4, Fields.ty, Fields.z, Fields.k, extract_hi, extract_lo, ElemType.ofCode_code, ofBool_bit, need, Option.bind_some, BitVec.toNat_ofNat, Nat.reducePow, Nat.reduceMod, beq_self_eq_true, Bool.and_self, Bool.not_false, if_true] <;> rfl)

theorem vor (t : ElemType) (z : Bool) (d : Reg) (a : Reg) (b : Reg) (k : KReg) : Statement (.vor t z d a b k) :=
  of_long rfl rfl rfl (by
    show decVlog ⟨1#4 ++ t.code, BitVec.ofBool z ++ k, b, 0x32, d, a⟩ = some (.vor t z d a b k)
    simp only [decVlog, Fields.fn4, Fields.ty, Fields.z, Fields.k, extract_hi, extract_lo, ElemType.ofCode_code, ofBool_bit, need, Option.bind_some, BitVec.toNat_ofNat, Nat.reducePow, Nat.reduceMod, beq_self_eq_true, Bool.and_self, Bool.not_false, if_true] <;> rfl)

theorem vxor (t : ElemType) (z : Bool) (d : Reg) (a : Reg) (b : Reg) (k : KReg) : Statement (.vxor t z d a b k) :=
  of_long rfl rfl rfl (by
    show decVlog ⟨2#4 ++ t.code, BitVec.ofBool z ++ k, b, 0x32, d, a⟩ = some (.vxor t z d a b k)
    simp only [decVlog, Fields.fn4, Fields.ty, Fields.z, Fields.k, extract_hi, extract_lo, ElemType.ofCode_code, ofBool_bit, need, Option.bind_some, BitVec.toNat_ofNat, Nat.reducePow, Nat.reduceMod, beq_self_eq_true, Bool.and_self, Bool.not_false, if_true] <;> rfl)

theorem vandn (t : ElemType) (z : Bool) (d : Reg) (a : Reg) (b : Reg) (k : KReg) : Statement (.vandn t z d a b k) :=
  of_long rfl rfl rfl (by
    show decVlog ⟨3#4 ++ t.code, BitVec.ofBool z ++ k, b, 0x32, d, a⟩ = some (.vandn t z d a b k)
    simp only [decVlog, Fields.fn4, Fields.ty, Fields.z, Fields.k, extract_hi, extract_lo, ElemType.ofCode_code, ofBool_bit, need, Option.bind_some, BitVec.toNat_ofNat, Nat.reducePow, Nat.reduceMod, beq_self_eq_true, Bool.and_self, Bool.not_false, if_true] <;> rfl)

theorem vshl (t : ElemType) (z : Bool) (d : Reg) (a : Reg) (b : Reg) (k : KReg) : Statement (.vshl t z d a b k) :=
  of_long rfl rfl rfl (by
    show decVlog ⟨4#4 ++ t.code, BitVec.ofBool z ++ k, b, 0x32, d, a⟩ = some (.vshl t z d a b k)
    simp only [decVlog, Fields.fn4, Fields.ty, Fields.z, Fields.k, extract_hi, extract_lo, ElemType.ofCode_code, ofBool_bit, need, Option.bind_some, BitVec.toNat_ofNat, Nat.reducePow, Nat.reduceMod, beq_self_eq_true, Bool.and_self, Bool.not_false, if_true] <;> rfl)

theorem vshr (t : ElemType) (z : Bool) (d : Reg) (a : Reg) (b : Reg) (k : KReg) : Statement (.vshr t z d a b k) :=
  of_long rfl rfl rfl (by
    show decVlog ⟨5#4 ++ t.code, BitVec.ofBool z ++ k, b, 0x32, d, a⟩ = some (.vshr t z d a b k)
    simp only [decVlog, Fields.fn4, Fields.ty, Fields.z, Fields.k, extract_hi, extract_lo, ElemType.ofCode_code, ofBool_bit, need, Option.bind_some, BitVec.toNat_ofNat, Nat.reducePow, Nat.reduceMod, beq_self_eq_true, Bool.and_self, Bool.not_false, if_true] <;> rfl)

theorem vsar (t : ElemType) (z : Bool) (d : Reg) (a : Reg) (b : Reg) (k : KReg) : Statement (.vsar t z d a b k) :=
  of_long rfl rfl rfl (by
    show decVlog ⟨6#4 ++ t.code, BitVec.ofBool z ++ k, b, 0x32, d, a⟩ = some (.vsar t z d a b k)
    simp only [decVlog, Fields.fn4, Fields.ty, Fields.z, Fields.k, extract_hi, extract_lo, ElemType.ofCode_code, ofBool_bit, need, Option.bind_some, BitVec.toNat_ofNat, Nat.reducePow, Nat.reduceMod, beq_self_eq_true, Bool.and_self, Bool.not_false, if_true] <;> rfl)

theorem vrol (t : ElemType) (z : Bool) (d : Reg) (a : Reg) (b : Reg) (k : KReg) : Statement (.vrol t z d a b k) :=
  of_long rfl rfl rfl (by
    show decVlog ⟨7#4 ++ t.code, BitVec.ofBool z ++ k, b, 0x32, d, a⟩ = some (.vrol t z d a b k)
    simp only [decVlog, Fields.fn4, Fields.ty, Fields.z, Fields.k, extract_hi, extract_lo, ElemType.ofCode_code, ofBool_bit, need, Option.bind_some, BitVec.toNat_ofNat, Nat.reducePow, Nat.reduceMod, beq_self_eq_true, Bool.and_self, Bool.not_false, if_true] <;> rfl)

theorem vnot (t : ElemType) (z : Bool) (d : Reg) (a : Reg) (k : KReg) : Statement (.vnot t z d a k) :=
  of_long rfl rfl rfl (by
    show decVlog ⟨8#4 ++ t.code, BitVec.ofBool z ++ k, 0, 0x32, d, a⟩ = some (.vnot t z d a k)
    simp only [decVlog, Fields.fn4, Fields.ty, Fields.z, Fields.k, extract_hi, extract_lo, ElemType.ofCode_code, ofBool_bit, need, Option.bind_some, BitVec.toNat_ofNat, Nat.reducePow, Nat.reduceMod, beq_self_eq_true, Bool.and_self, Bool.not_false, if_true] <;> rfl)

theorem vcmpEq (t : ElemType) (d : KReg) (a : Reg) (b : Reg) (k : KReg) : Statement (.vcmpEq t d a b k) :=
  of_long rfl rfl rfl (by
    show decVcmp ⟨0#4 ++ t.code, 0#1 ++ k, b, 0x33, 0#1 ++ d, a⟩ = some (.vcmpEq t d a b k)
    simp only [decVcmp, Fields.fn4, Fields.ty, Fields.z, Fields.k, extract_hi, extract_lo, ElemType.ofCode_code, ofBool_bit, need, Option.bind_some, BitVec.toNat_ofNat, Nat.reducePow, Nat.reduceMod, beq_self_eq_true, Bool.and_self, Bool.not_false, if_true] <;> rfl)

theorem vcmpNe (t : ElemType) (d : KReg) (a : Reg) (b : Reg) (k : KReg) : Statement (.vcmpNe t d a b k) :=
  of_long rfl rfl rfl (by
    show decVcmp ⟨1#4 ++ t.code, 0#1 ++ k, b, 0x33, 0#1 ++ d, a⟩ = some (.vcmpNe t d a b k)
    simp only [decVcmp, Fields.fn4, Fields.ty, Fields.z, Fields.k, extract_hi, extract_lo, ElemType.ofCode_code, ofBool_bit, need, Option.bind_some, BitVec.toNat_ofNat, Nat.reducePow, Nat.reduceMod, beq_self_eq_true, Bool.and_self, Bool.not_false, if_true] <;> rfl)

theorem vcmpLt (t : ElemType) (d : KReg) (a : Reg) (b : Reg) (k : KReg) : Statement (.vcmpLt t d a b k) :=
  of_long rfl rfl rfl (by
    show decVcmp ⟨2#4 ++ t.code, 0#1 ++ k, b, 0x33, 0#1 ++ d, a⟩ = some (.vcmpLt t d a b k)
    simp only [decVcmp, Fields.fn4, Fields.ty, Fields.z, Fields.k, extract_hi, extract_lo, ElemType.ofCode_code, ofBool_bit, need, Option.bind_some, BitVec.toNat_ofNat, Nat.reducePow, Nat.reduceMod, beq_self_eq_true, Bool.and_self, Bool.not_false, if_true] <;> rfl)

theorem vcmpLe (t : ElemType) (d : KReg) (a : Reg) (b : Reg) (k : KReg) : Statement (.vcmpLe t d a b k) :=
  of_long rfl rfl rfl (by
    show decVcmp ⟨3#4 ++ t.code, 0#1 ++ k, b, 0x33, 0#1 ++ d, a⟩ = some (.vcmpLe t d a b k)
    simp only [decVcmp, Fields.fn4, Fields.ty, Fields.z, Fields.k, extract_hi, extract_lo, ElemType.ofCode_code, ofBool_bit, need, Option.bind_some, BitVec.toNat_ofNat, Nat.reducePow, Nat.reduceMod, beq_self_eq_true, Bool.and_self, Bool.not_false, if_true] <;> rfl)

theorem vcmpGt (t : ElemType) (d : KReg) (a : Reg) (b : Reg) (k : KReg) : Statement (.vcmpGt t d a b k) :=
  of_long rfl rfl rfl (by
    show decVcmp ⟨4#4 ++ t.code, 0#1 ++ k, b, 0x33, 0#1 ++ d, a⟩ = some (.vcmpGt t d a b k)
    simp only [decVcmp, Fields.fn4, Fields.ty, Fields.z, Fields.k, extract_hi, extract_lo, ElemType.ofCode_code, ofBool_bit, need, Option.bind_some, BitVec.toNat_ofNat, Nat.reducePow, Nat.reduceMod, beq_self_eq_true, Bool.and_self, Bool.not_false, if_true] <;> rfl)

theorem vcmpGe (t : ElemType) (d : KReg) (a : Reg) (b : Reg) (k : KReg) : Statement (.vcmpGe t d a b k) :=
  of_long rfl rfl rfl (by
    show decVcmp ⟨5#4 ++ t.code, 0#1 ++ k, b, 0x33, 0#1 ++ d, a⟩ = some (.vcmpGe t d a b k)
    simp only [decVcmp, Fields.fn4, Fields.ty, Fields.z, Fields.k, extract_hi, extract_lo, ElemType.ofCode_code, ofBool_bit, need, Option.bind_some, BitVec.toNat_ofNat, Nat.reducePow, Nat.reduceMod, beq_self_eq_true, Bool.and_self, Bool.not_false, if_true] <;> rfl)

theorem vcmpUn (t : ElemType) (d : KReg) (a : Reg) (b : Reg) (k : KReg) : Statement (.vcmpUn t d a b k) :=
  of_long rfl rfl rfl (by
    show decVcmp ⟨6#4 ++ t.code, 0#1 ++ k, b, 0x33, 0#1 ++ d, a⟩ = some (.vcmpUn t d a b k)
    simp only [decVcmp, Fields.fn4, Fields.ty, Fields.z, Fields.k, extract_hi, extract_lo, ElemType.ofCode_code, ofBool_bit, need, Option.bind_some, BitVec.toNat_ofNat, Nat.reducePow, Nat.reduceMod, beq_self_eq_true, Bool.and_self, Bool.not_false, if_true] <;> rfl)

theorem vbcast (t : ElemType) (z : Bool) (d : Reg) (a : Reg) (k : KReg) : Statement (.vbcast t z d a k) :=
  of_long rfl rfl rfl (by
    show decVprm ⟨0#4 ++ t.code, BitVec.ofBool z ++ k, 0, 0x34, d, a⟩ = some (.vbcast t z d a k)
    simp only [decVprm, Fields.fn4, Fields.ty, Fields.z, Fields.k, extract_hi, extract_lo, ElemType.ofCode_code, ofBool_bit, need, Option.bind_some, BitVec.toNat_ofNat, Nat.reducePow, Nat.reduceMod, beq_self_eq_true, Bool.and_self, Bool.not_false, if_true] <;> rfl)

theorem vperm (t : ElemType) (z : Bool) (d : Reg) (a : Reg) (b : Reg) (k : KReg) : Statement (.vperm t z d a b k) :=
  of_long rfl rfl rfl (by
    show decVprm ⟨1#4 ++ t.code, BitVec.ofBool z ++ k, b, 0x34, d, a⟩ = some (.vperm t z d a b k)
    simp only [decVprm, Fields.fn4, Fields.ty, Fields.z, Fields.k, extract_hi, extract_lo, ElemType.ofCode_code, ofBool_bit, need, Option.bind_some, BitVec.toNat_ofNat, Nat.reducePow, Nat.reduceMod, beq_self_eq_true, Bool.and_self, Bool.not_false, if_true] <;> rfl)

theorem vsel (t : ElemType) (d : Reg) (a : Reg) (b : Reg) (k : KReg) : Statement (.vsel t d a b k) :=
  of_long rfl rfl rfl (by
    show decVprm ⟨2#4 ++ t.code, 0#1 ++ k, b, 0x34, d, a⟩ = some (.vsel t d a b k)
    simp only [decVprm, Fields.fn4, Fields.ty, Fields.z, Fields.k, extract_hi, extract_lo, ElemType.ofCode_code, ofBool_bit, need, Option.bind_some, BitVec.toNat_ofNat, Nat.reducePow, Nat.reduceMod, beq_self_eq_true, Bool.and_self, Bool.not_false, if_true] <;> rfl)

theorem vext (t : ElemType) (d : Reg) (a : Reg) (b : Reg) : Statement (.vext t d a b) :=
  of_long rfl rfl rfl (by
    show decVprm ⟨3#4 ++ t.code, 0#1 ++ 0#3, b, 0x34, d, a⟩ = some (.vext t d a b)
    simp only [decVprm, Fields.fn4, Fields.ty, Fields.z, Fields.k, extract_hi, extract_lo, ElemType.ofCode_code, ofBool_bit, need, Option.bind_some, BitVec.toNat_ofNat, Nat.reducePow, Nat.reduceMod, beq_self_eq_true, Bool.and_self, Bool.not_false, if_true] <;> rfl)

theorem vins (t : ElemType) (d : Reg) (a : Reg) (b : Reg) : Statement (.vins t d a b) :=
  of_long rfl rfl rfl (by
    show decVprm ⟨4#4 ++ t.code, 0#1 ++ 0#3, b, 0x34, d, a⟩ = some (.vins t d a b)
    simp only [decVprm, Fields.fn4, Fields.ty, Fields.z, Fields.k, extract_hi, extract_lo, ElemType.ofCode_code, ofBool_bit, need, Option.bind_some, BitVec.toNat_ofNat, Nat.reducePow, Nat.reduceMod, beq_self_eq_true, Bool.and_self, Bool.not_false, if_true] <;> rfl)

theorem vzipl (t : ElemType) (z : Bool) (d : Reg) (a : Reg) (b : Reg) (k : KReg) : Statement (.vzipl t z d a b k) :=
  of_long rfl rfl rfl (by
    show decVprm ⟨5#4 ++ t.code, BitVec.ofBool z ++ k, b, 0x34, d, a⟩ = some (.vzipl t z d a b k)
    simp only [decVprm, Fields.fn4, Fields.ty, Fields.z, Fields.k, extract_hi, extract_lo, ElemType.ofCode_code, ofBool_bit, need, Option.bind_some, BitVec.toNat_ofNat, Nat.reducePow, Nat.reduceMod, beq_self_eq_true, Bool.and_self, Bool.not_false, if_true] <;> rfl)

theorem vziph (t : ElemType) (z : Bool) (d : Reg) (a : Reg) (b : Reg) (k : KReg) : Statement (.vziph t z d a b k) :=
  of_long rfl rfl rfl (by
    show decVprm ⟨6#4 ++ t.code, BitVec.ofBool z ++ k, b, 0x34, d, a⟩ = some (.vziph t z d a b k)
    simp only [decVprm, Fields.fn4, Fields.ty, Fields.z, Fields.k, extract_hi, extract_lo, ElemType.ofCode_code, ofBool_bit, need, Option.bind_some, BitVec.toNat_ofNat, Nat.reducePow, Nat.reduceMod, beq_self_eq_true, Bool.and_self, Bool.not_false, if_true] <;> rfl)

theorem vuzpe (t : ElemType) (z : Bool) (d : Reg) (a : Reg) (b : Reg) (k : KReg) : Statement (.vuzpe t z d a b k) :=
  of_long rfl rfl rfl (by
    show decVprm ⟨7#4 ++ t.code, BitVec.ofBool z ++ k, b, 0x34, d, a⟩ = some (.vuzpe t z d a b k)
    simp only [decVprm, Fields.fn4, Fields.ty, Fields.z, Fields.k, extract_hi, extract_lo, ElemType.ofCode_code, ofBool_bit, need, Option.bind_some, BitVec.toNat_ofNat, Nat.reducePow, Nat.reduceMod, beq_self_eq_true, Bool.and_self, Bool.not_false, if_true] <;> rfl)

theorem vuzpo (t : ElemType) (z : Bool) (d : Reg) (a : Reg) (b : Reg) (k : KReg) : Statement (.vuzpo t z d a b k) :=
  of_long rfl rfl rfl (by
    show decVprm ⟨8#4 ++ t.code, BitVec.ofBool z ++ k, b, 0x34, d, a⟩ = some (.vuzpo t z d a b k)
    simp only [decVprm, Fields.fn4, Fields.ty, Fields.z, Fields.k, extract_hi, extract_lo, ElemType.ofCode_code, ofBool_bit, need, Option.bind_some, BitVec.toNat_ofNat, Nat.reducePow, Nat.reduceMod, beq_self_eq_true, Bool.and_self, Bool.not_false, if_true] <;> rfl)

theorem viota (t : ElemType) (z : Bool) (d : Reg) (k : KReg) : Statement (.viota t z d k) :=
  of_long rfl rfl rfl (by
    show decVprm ⟨9#4 ++ t.code, BitVec.ofBool z ++ k, 0, 0x34, d, 0⟩ = some (.viota t z d k)
    simp only [decVprm, Fields.fn4, Fields.ty, Fields.z, Fields.k, extract_hi, extract_lo, ElemType.ofCode_code, ofBool_bit, need, Option.bind_some, BitVec.toNat_ofNat, Nat.reducePow, Nat.reduceMod, beq_self_eq_true, Bool.and_self, Bool.not_false, if_true] <;> rfl)

theorem vcmprs (t : ElemType) (z : Bool) (d : Reg) (a : Reg) (k : KReg) : Statement (.vcmprs t z d a k) :=
  of_long rfl rfl rfl (by
    show decVprm ⟨10#4 ++ t.code, BitVec.ofBool z ++ k, 0, 0x34, d, a⟩ = some (.vcmprs t z d a k)
    simp only [decVprm, Fields.fn4, Fields.ty, Fields.z, Fields.k, extract_hi, extract_lo, ElemType.ofCode_code, ofBool_bit, need, Option.bind_some, BitVec.toNat_ofNat, Nat.reducePow, Nat.reduceMod, beq_self_eq_true, Bool.and_self, Bool.not_false, if_true] <;> rfl)

theorem vsldn (t : ElemType) (z : Bool) (d : Reg) (a : Reg) (b : Reg) (k : KReg) : Statement (.vsldn t z d a b k) :=
  of_long rfl rfl rfl (by
    show decVprm ⟨11#4 ++ t.code, BitVec.ofBool z ++ k, b, 0x34, d, a⟩ = some (.vsldn t z d a b k)
    simp only [decVprm, Fields.fn4, Fields.ty, Fields.z, Fields.k, extract_hi, extract_lo, ElemType.ofCode_code, ofBool_bit, need, Option.bind_some, BitVec.toNat_ofNat, Nat.reducePow, Nat.reduceMod, beq_self_eq_true, Bool.and_self, Bool.not_false, if_true] <;> rfl)

theorem vcvt (hi : Bool) (sat : Bool) (r : VRnd) (t : ElemType) (s : ElemType) (z : Bool) (k : KReg) (d : Reg) (a : Reg) : Statement (.vcvt hi sat r t s z k d a) :=
  of_long rfl rfl rfl (by
    show decVcvt ⟨BitVec.ofBool hi ++ BitVec.ofBool sat ++ r.code ++ t.code, BitVec.ofBool z ++ k, s.code, 0x35, d, a⟩ = some (.vcvt hi sat r t s z k d a)
    simp only [decVcvt, Fields.ty, Fields.z, Fields.k, extract_hi, extract_lo, vcvt_hi, vcvt_sat, vcvt_rnd, ElemType.ofCode_code, VRnd.ofCode_code, ofBool_bit, need, Option.bind_some, BitVec.toNat_ofNat, Nat.reducePow, Nat.reduceMod, beq_self_eq_true, Bool.and_self, Bool.not_false, if_true] <;> rfl)

theorem vrsum (t : ElemType) (d : Reg) (a : Reg) (k : KReg) : Statement (.vrsum t d a k) :=
  of_long rfl rfl rfl (by
    show decVred ⟨0#4 ++ t.code, 0#1 ++ k, 0, 0x36, d, a⟩ = some (.vrsum t d a k)
    simp only [decVred, Fields.fn4, Fields.ty, Fields.z, Fields.k, extract_hi, extract_lo, ElemType.ofCode_code, ofBool_bit, need, Option.bind_some, BitVec.toNat_ofNat, Nat.reducePow, Nat.reduceMod, beq_self_eq_true, Bool.and_self, Bool.not_false, if_true] <;> rfl)

theorem vrsumt (t : ElemType) (d : Reg) (a : Reg) (k : KReg) : Statement (.vrsumt t d a k) :=
  of_long rfl rfl rfl (by
    show decVred ⟨1#4 ++ t.code, 0#1 ++ k, 0, 0x36, d, a⟩ = some (.vrsumt t d a k)
    simp only [decVred, Fields.fn4, Fields.ty, Fields.z, Fields.k, extract_hi, extract_lo, ElemType.ofCode_code, ofBool_bit, need, Option.bind_some, BitVec.toNat_ofNat, Nat.reducePow, Nat.reduceMod, beq_self_eq_true, Bool.and_self, Bool.not_false, if_true] <;> rfl)

theorem vrmin (t : ElemType) (d : Reg) (a : Reg) (k : KReg) : Statement (.vrmin t d a k) :=
  of_long rfl rfl rfl (by
    show decVred ⟨2#4 ++ t.code, 0#1 ++ k, 0, 0x36, d, a⟩ = some (.vrmin t d a k)
    simp only [decVred, Fields.fn4, Fields.ty, Fields.z, Fields.k, extract_hi, extract_lo, ElemType.ofCode_code, ofBool_bit, need, Option.bind_some, BitVec.toNat_ofNat, Nat.reducePow, Nat.reduceMod, beq_self_eq_true, Bool.and_self, Bool.not_false, if_true] <;> rfl)

theorem vrmax (t : ElemType) (d : Reg) (a : Reg) (k : KReg) : Statement (.vrmax t d a k) :=
  of_long rfl rfl rfl (by
    show decVred ⟨3#4 ++ t.code, 0#1 ++ k, 0, 0x36, d, a⟩ = some (.vrmax t d a k)
    simp only [decVred, Fields.fn4, Fields.ty, Fields.z, Fields.k, extract_hi, extract_lo, ElemType.ofCode_code, ofBool_bit, need, Option.bind_some, BitVec.toNat_ofNat, Nat.reducePow, Nat.reduceMod, beq_self_eq_true, Bool.and_self, Bool.not_false, if_true] <;> rfl)

theorem vrand (t : ElemType) (d : Reg) (a : Reg) (k : KReg) : Statement (.vrand t d a k) :=
  of_long rfl rfl rfl (by
    show decVred ⟨4#4 ++ t.code, 0#1 ++ k, 0, 0x36, d, a⟩ = some (.vrand t d a k)
    simp only [decVred, Fields.fn4, Fields.ty, Fields.z, Fields.k, extract_hi, extract_lo, ElemType.ofCode_code, ofBool_bit, need, Option.bind_some, BitVec.toNat_ofNat, Nat.reducePow, Nat.reduceMod, beq_self_eq_true, Bool.and_self, Bool.not_false, if_true] <;> rfl)

theorem vror (t : ElemType) (d : Reg) (a : Reg) (k : KReg) : Statement (.vror t d a k) :=
  of_long rfl rfl rfl (by
    show decVred ⟨5#4 ++ t.code, 0#1 ++ k, 0, 0x36, d, a⟩ = some (.vror t d a k)
    simp only [decVred, Fields.fn4, Fields.ty, Fields.z, Fields.k, extract_hi, extract_lo, ElemType.ofCode_code, ofBool_bit, need, Option.bind_some, BitVec.toNat_ofNat, Nat.reducePow, Nat.reduceMod, beq_self_eq_true, Bool.and_self, Bool.not_false, if_true] <;> rfl)

theorem vrxor (t : ElemType) (d : Reg) (a : Reg) (k : KReg) : Statement (.vrxor t d a k) :=
  of_long rfl rfl rfl (by
    show decVred ⟨6#4 ++ t.code, 0#1 ++ k, 0, 0x36, d, a⟩ = some (.vrxor t d a k)
    simp only [decVred, Fields.fn4, Fields.ty, Fields.z, Fields.k, extract_hi, extract_lo, ElemType.ofCode_code, ofBool_bit, need, Option.bind_some, BitVec.toNat_ofNat, Nat.reducePow, Nat.reduceMod, beq_self_eq_true, Bool.and_self, Bool.not_false, if_true] <;> rfl)

theorem vld (d : Reg) (a : Reg) (i : BitVec 12) : Statement (.vld d a i) :=
  of_long rfl rfl rfl (congrArg (fun new => some (Instr.vld d a new)) (join12 i))

theorem vldW (d : Reg) (a : Reg) (i : BitVec 12) : Statement (.vldW d a i) :=
  of_long rfl rfl rfl (congrArg (fun new => some (Instr.vldW d a new)) (join12 i))

theorem vldb (d : Reg) (a : Reg) (i : BitVec 12) : Statement (.vldb d a i) :=
  of_long rfl rfl rfl (congrArg (fun new => some (Instr.vldb d a new)) (join12 i))

theorem vst (d : Reg) (a : Reg) (i : BitVec 12) : Statement (.vst d a i) :=
  of_long rfl rfl rfl (congrArg (fun new => some (Instr.vst d a new)) (join12 i))

theorem vstF (d : Reg) (a : Reg) (i : BitVec 12) : Statement (.vstF d a i) :=
  of_long rfl rfl rfl (congrArg (fun new => some (Instr.vstF d a new)) (join12 i))

theorem vgath (t : ElemType) (z : Bool) (d : Reg) (a : Reg) (b : Reg) (k : KReg) : Statement (.vgath t z d a b k) :=
  of_long rfl rfl rfl (by
    show decVgs ⟨0#4 ++ t.code, BitVec.ofBool z ++ k, b, 0x38, d, a⟩ = some (.vgath t z d a b k)
    simp only [decVgs, Fields.fn4, Fields.ty, Fields.z, Fields.k, extract_hi, extract_lo, ElemType.ofCode_code, ofBool_bit, need, Option.bind_some, BitVec.toNat_ofNat, Nat.reducePow, Nat.reduceMod, beq_self_eq_true, Bool.and_self, Bool.not_false, if_true] <;> rfl)

theorem vscat (t : ElemType) (d : Reg) (a : Reg) (b : Reg) (k : KReg) : Statement (.vscat t d a b k) :=
  of_long rfl rfl rfl (by
    show decVgs ⟨1#4 ++ t.code, 0#1 ++ k, b, 0x38, d, a⟩ = some (.vscat t d a b k)
    simp only [decVgs, Fields.fn4, Fields.ty, Fields.z, Fields.k, extract_hi, extract_lo, ElemType.ofCode_code, ofBool_bit, need, Option.bind_some, BitVec.toNat_ofNat, Nat.reducePow, Nat.reduceMod, beq_self_eq_true, Bool.and_self, Bool.not_false, if_true] <;> rfl)

theorem vscata (t : ElemType) (d : Reg) (a : Reg) (b : Reg) (k : KReg) : Statement (.vscata t d a b k) :=
  of_long rfl rfl rfl (by
    show decVgs ⟨2#4 ++ t.code, 0#1 ++ k, b, 0x38, d, a⟩ = some (.vscata t d a b k)
    simp only [decVgs, Fields.fn4, Fields.ty, Fields.z, Fields.k, extract_hi, extract_lo, ElemType.ofCode_code, ofBool_bit, need, Option.bind_some, BitVec.toNat_ofNat, Nat.reducePow, Nat.reduceMod, beq_self_eq_true, Bool.and_self, Bool.not_false, if_true] <;> rfl)

theorem vldt (t : ElemType) (z : Bool) (d : Reg) (a : Reg) (b : Reg) (k : KReg) : Statement (.vldt t z d a b k) :=
  of_long rfl rfl rfl (by
    show decVgs ⟨3#4 ++ t.code, BitVec.ofBool z ++ k, b, 0x38, d, a⟩ = some (.vldt t z d a b k)
    simp only [decVgs, Fields.fn4, Fields.ty, Fields.z, Fields.k, extract_hi, extract_lo, ElemType.ofCode_code, ofBool_bit, need, Option.bind_some, BitVec.toNat_ofNat, Nat.reducePow, Nat.reduceMod, beq_self_eq_true, Bool.and_self, Bool.not_false, if_true] <;> rfl)

theorem vstq (t : ElemType) (sr : Bool) (d : Reg) (a : Reg) (b : Reg) : Statement (.vstq t sr d a b) :=
  of_long rfl rfl rfl (by
    show decVgs ⟨4#4 ++ t.code, BitVec.ofBool sr ++ 0#3, b, 0x38, d, a⟩ = some (.vstq t sr d a b)
    simp only [decVgs, Fields.fn4, Fields.ty, Fields.z, Fields.k, extract_hi, extract_lo, ElemType.ofCode_code, ofBool_bit, need, Option.bind_some, BitVec.toNat_ofNat, Nat.reducePow, Nat.reduceMod, beq_self_eq_true, Bool.and_self, Bool.not_false, if_true] <;> rfl)

theorem kand (d : KReg) (a : KReg) (b : KReg) : Statement (.kand d a b) :=
  of_long rfl rfl rfl (by
    show decKop ⟨0x00, 0, 0#1 ++ b, 0x39, 0#1 ++ d, 0#1 ++ a⟩ = some (.kand d a b)
    simp only [decKop, kregOf_pad, need, Option.bind_some, BitVec.toNat_ofNat, Nat.reducePow, Nat.reduceMod, beq_self_eq_true, Bool.and_self, Bool.not_false, if_true] <;> rfl)

theorem kor (d : KReg) (a : KReg) (b : KReg) : Statement (.kor d a b) :=
  of_long rfl rfl rfl (by
    show decKop ⟨0x01, 0, 0#1 ++ b, 0x39, 0#1 ++ d, 0#1 ++ a⟩ = some (.kor d a b)
    simp only [decKop, kregOf_pad, need, Option.bind_some, BitVec.toNat_ofNat, Nat.reducePow, Nat.reduceMod, beq_self_eq_true, Bool.and_self, Bool.not_false, if_true] <;> rfl)

theorem kxor (d : KReg) (a : KReg) (b : KReg) : Statement (.kxor d a b) :=
  of_long rfl rfl rfl (by
    show decKop ⟨0x02, 0, 0#1 ++ b, 0x39, 0#1 ++ d, 0#1 ++ a⟩ = some (.kxor d a b)
    simp only [decKop, kregOf_pad, need, Option.bind_some, BitVec.toNat_ofNat, Nat.reducePow, Nat.reduceMod, beq_self_eq_true, Bool.and_self, Bool.not_false, if_true] <;> rfl)

theorem kandn (d : KReg) (a : KReg) (b : KReg) : Statement (.kandn d a b) :=
  of_long rfl rfl rfl (by
    show decKop ⟨0x03, 0, 0#1 ++ b, 0x39, 0#1 ++ d, 0#1 ++ a⟩ = some (.kandn d a b)
    simp only [decKop, kregOf_pad, need, Option.bind_some, BitVec.toNat_ofNat, Nat.reducePow, Nat.reduceMod, beq_self_eq_true, Bool.and_self, Bool.not_false, if_true] <;> rfl)

theorem knot (d : KReg) (a : KReg) : Statement (.knot d a) :=
  of_long rfl rfl rfl (by
    show decKop ⟨0x04, 0, 0, 0x39, 0#1 ++ d, 0#1 ++ a⟩ = some (.knot d a)
    simp only [decKop, kregOf_pad, need, Option.bind_some, BitVec.toNat_ofNat, Nat.reducePow, Nat.reduceMod, beq_self_eq_true, Bool.and_self, Bool.not_false, if_true] <;> rfl)

theorem kfromg (d : KReg) (a : Reg) : Statement (.kfromg d a) :=
  of_long rfl rfl rfl (by
    show decKop ⟨0x05, 0, 0, 0x39, 0#1 ++ d, a⟩ = some (.kfromg d a)
    simp only [decKop, kregOf_pad, need, Option.bind_some, BitVec.toNat_ofNat, Nat.reducePow, Nat.reduceMod, beq_self_eq_true, Bool.and_self, Bool.not_false, if_true] <;> rfl)

theorem ktog (d : Reg) (a : KReg) : Statement (.ktog d a) :=
  of_long rfl rfl rfl (by
    show decKop ⟨0x06, 0, 0, 0x39, d, 0#1 ++ a⟩ = some (.ktog d a)
    simp only [decKop, kregOf_pad, need, Option.bind_some, BitVec.toNat_ofNat, Nat.reducePow, Nat.reduceMod, beq_self_eq_true, Bool.and_self, Bool.not_false, if_true] <;> rfl)

theorem kpopc (d : Reg) (a : KReg) : Statement (.kpopc d a) :=
  of_long rfl rfl rfl (by
    show decKop ⟨0x07, 0, 0, 0x39, d, 0#1 ++ a⟩ = some (.kpopc d a)
    simp only [decKop, kregOf_pad, need, Option.bind_some, BitVec.toNat_ofNat, Nat.reducePow, Nat.reduceMod, beq_self_eq_true, Bool.and_self, Bool.not_false, if_true] <;> rfl)

theorem kfirst (d : Reg) (a : KReg) : Statement (.kfirst d a) :=
  of_long rfl rfl rfl (by
    show decKop ⟨0x08, 0, 0, 0x39, d, 0#1 ++ a⟩ = some (.kfirst d a)
    simp only [decKop, kregOf_pad, need, Option.bind_some, BitVec.toNat_ofNat, Nat.reducePow, Nat.reduceMod, beq_self_eq_true, Bool.and_self, Bool.not_false, if_true] <;> rfl)

theorem mpost (d : Reg) (a : Reg) : Statement (.mpost d a) :=
  of_long rfl rfl rfl rfl

theorem mseq (d : Reg) : Statement (.mseq d) :=
  of_long rfl rfl rfl rfl

theorem mwait (a : Reg) : Statement (.mwait a) :=
  of_long rfl rfl rfl rfl

theorem mstat (d : Reg) (a : Reg) : Statement (.mstat d a) :=
  of_long rfl rfl rfl rfl

theorem cpost (d : Reg) (a : Reg) : Statement (.cpost d a) :=
  of_long rfl rfl rfl rfl

theorem cseq (d : Reg) : Statement (.cseq d) :=
  of_long rfl rfl rfl rfl

theorem cwait (a : Reg) : Statement (.cwait a) :=
  of_long rfl rfl rfl rfl

theorem cstat (d : Reg) (a : Reg) : Statement (.cstat d a) :=
  of_long rfl rfl rfl rfl

theorem txbeg (d : Reg) (a : Reg) : Statement (.txbeg d a) :=
  of_long rfl rfl rfl rfl

theorem txcommit (d : Reg) : Statement (.txcommit d) :=
  of_long rfl rfl rfl rfl

theorem txend (d : Reg) : Statement (.txend d) :=
  of_long rfl rfl rfl rfl

theorem lkacq (d : Reg) (a : Reg) (b : Reg) : Statement (.lkacq d a b) :=
  of_long rfl rfl rfl rfl

theorem lkacqm (d : Reg) (a : Reg) (b : Reg) (c : Reg) : Statement (.lkacqm d a b c) :=
  of_long rfl rfl rfl rfl

theorem lktry (d : Reg) (a : Reg) (b : Reg) : Statement (.lktry d a b) :=
  of_long rfl rfl rfl rfl

theorem lkcvt (d : Reg) (a : Reg) (b : Reg) : Statement (.lkcvt d a b) :=
  of_long rfl rfl rfl rfl

theorem lkrel (d : Reg) (a : Reg) : Statement (.lkrel d a) :=
  of_long rfl rfl rfl rfl

theorem lkmat (d : Reg) (a : Reg) : Statement (.lkmat d a) :=
  of_long rfl rfl rfl rfl

theorem lease (d : Reg) (a : Reg) (b : Reg) : Statement (.lease d a b) :=
  of_long rfl rfl rfl rfl

theorem leaser (d : Reg) (a : Reg) : Statement (.leaser d a) :=
  of_long rfl rfl rfl rfl

theorem lkqry (d : Reg) (a : Reg) (b : Reg) : Statement (.lkqry d a b) :=
  of_long rfl rfl rfl rfl

theorem snap (d : Reg) : Statement (.snap d) :=
  of_long rfl rfl rfl rfl

theorem snapq (d : Reg) (a : Reg) : Statement (.snapq d a) :=
  of_long rfl rfl rfl rfl

theorem resumeq (d : Reg) : Statement (.resumeq d) :=
  of_long rfl rfl rfl rfl

theorem trig : Statement (.trig) :=
  of_long rfl rfl rfl rfl

theorem time (d : Reg) : Statement (.time d) :=
  of_long rfl rfl rfl rfl

theorem cycle (d : Reg) : Statement (.cycle d) :=
  of_long rfl rfl rfl rfl

theorem xinv (a : Reg) (b : Reg) : Statement (.xinv a b) :=
  of_long rfl rfl rfl rfl

theorem inject (a : Reg) (b : Reg) : Statement (.inject a b) :=
  of_long rfl rfl rfl rfl

theorem xinvComplete (t : Nat) (c : Nat) : Statement (.xinvComplete t c) :=
  of_event rfl rfl

theorem routerCycle : Statement (.routerCycle) :=
  of_event rfl rfl

theorem handlerMessageArrival (t : Nat) : Statement (.handlerMessageArrival t) :=
  of_event rfl rfl

theorem localArrivalRetry (t : Nat) : Statement (.localArrivalRetry t) :=
  of_event rfl rfl

theorem galleryRecordRead (t : Nat) : Statement (.galleryRecordRead t) :=
  of_event rfl rfl

theorem dispatch (t : Nat) : Statement (.dispatch t) :=
  of_event rfl rfl

theorem hlimitExpiry (t : Nat) (c : Nat) : Statement (.hlimitExpiry t c) :=
  of_event rfl rfl

theorem ageReport (t : Nat) (p : Nat) : Statement (.ageReport t p) :=
  of_event rfl rfl

theorem xlateResolution : Statement (.xlateResolution) :=
  of_event rfl rfl

theorem getRequest (n : Nat) : Statement (.getRequest n) :=
  of_event rfl rfl

theorem putRequest (n : Nat) : Statement (.putRequest n) :=
  of_event rfl rfl

theorem atomicRequest (n : Nat) : Statement (.atomicRequest n) :=
  of_event rfl rfl

theorem ringRequest (n : Nat) : Statement (.ringRequest n) :=
  of_event rfl rfl

theorem counterIncrement (t : Nat) : Statement (.counterIncrement t) :=
  of_event rfl rfl

theorem replyData (t : Nat) : Statement (.replyData t) :=
  of_event rfl rfl

theorem replyStatus (t : Nat) : Statement (.replyStatus t) :=
  of_event rfl rfl

theorem forwardedFlit (t : Nat) : Statement (.forwardedFlit t) :=
  of_event rfl rfl

theorem commitRoomWaitEnd (t : Nat) (c : Nat) : Statement (.commitRoomWaitEnd t c) :=
  of_event rfl rfl

theorem counterActionLaunch (t : Nat) : Statement (.counterActionLaunch t) :=
  of_event rfl rfl

theorem counterActionMpost (t : Nat) : Statement (.counterActionMpost t) :=
  of_event rfl rfl

theorem counterActionCpost (t : Nat) : Statement (.counterActionCpost t) :=
  of_event rfl rfl

theorem counterActionSend (t : Nat) : Statement (.counterActionSend t) :=
  of_event rfl rfl

theorem counterActionSetfull (t : Nat) : Statement (.counterActionSetfull t) :=
  of_event rfl rfl

theorem heldUpdateApply (t : Nat) : Statement (.heldUpdateApply t) :=
  of_event rfl rfl

theorem mmaBf16 (t : Nat) : Statement (.mmaBf16 t) :=
  of_event rfl rfl

theorem mmaF16 (t : Nat) : Statement (.mmaF16 t) :=
  of_event rfl rfl

theorem mmaE4m3 (t : Nat) : Statement (.mmaE4m3 t) :=
  of_event rfl rfl

theorem mmaE5m2 (t : Nat) : Statement (.mmaE5m2 t) :=
  of_event rfl rfl

theorem mmaE4e5 (t : Nat) : Statement (.mmaE4e5 t) :=
  of_event rfl rfl

theorem mmaMxf4 (t : Nat) : Statement (.mmaMxf4 t) :=
  of_event rfl rfl

theorem mmaQ4o (t : Nat) : Statement (.mmaQ4o t) :=
  of_event rfl rfl

theorem mmaF32 (t : Nat) : Statement (.mmaF32 t) :=
  of_event rfl rfl

theorem mmaF64 (t : Nat) : Statement (.mmaF64 t) :=
  of_event rfl rfl

theorem mmaSpBf16 (t : Nat) : Statement (.mmaSpBf16 t) :=
  of_event rfl rfl

theorem mmaSpE4m3 (t : Nat) : Statement (.mmaSpE4m3 t) :=
  of_event rfl rfl

theorem aclr (t : Nat) : Statement (.aclr t) :=
  of_event rfl rfl

theorem aload (t : Nat) : Statement (.aload t) :=
  of_event rfl rfl

theorem astore (t : Nat) : Statement (.astore t) :=
  of_event rfl rfl

theorem aadd (t : Nat) : Statement (.aadd t) :=
  of_event rfl rfl

theorem mark (t : Nat) : Statement (.mark t) :=
  of_event rfl rfl

theorem matrixCommandComplete (t : Nat) : Statement (.matrixCommandComplete t) :=
  of_event rfl rfl

theorem copy1d (t : Nat) (n : Nat) : Statement (.copy1d t n) :=
  of_event rfl rfl

theorem copy2d (t : Nat) (n : Nat) : Statement (.copy2d t n) :=
  of_event rfl rfl

theorem fill (t : Nat) (n : Nat) : Statement (.fill t n) :=
  of_event rfl rfl

theorem gatherrows (t : Nat) (n : Nat) : Statement (.gatherrows t n) :=
  of_event rfl rfl

theorem scatterrows (t : Nat) (n : Nat) : Statement (.scatterrows t n) :=
  of_event rfl rfl

theorem copyCommandComplete (t : Nat) (n : Nat) : Statement (.copyCommandComplete t n) :=
  of_event rfl rfl

theorem leaveGrant (die : Nat) : Statement (.leaveGrant die) :=
  of_event rfl rfl

theorem governorPowerCheck (die : Nat) (dieMw : Nat) (pkgMw : Nat) : Statement (.governorPowerCheck die dieMw pkgMw) :=
  of_event rfl rfl

theorem lockAcquireRequest (die : Nat) : Statement (.lockAcquireRequest die) :=
  of_event rfl rfl

theorem lockConvertRequest (die : Nat) : Statement (.lockConvertRequest die) :=
  of_event rfl rfl

theorem lockReleaseRequest (die : Nat) : Statement (.lockReleaseRequest die) :=
  of_event rfl rfl

theorem lockCancelRequest (die : Nat) : Statement (.lockCancelRequest die) :=
  of_event rfl rfl

theorem lockGrantArrival (t : Nat) : Statement (.lockGrantArrival t) :=
  of_event rfl rfl

theorem woundArrival (t : Nat) : Statement (.woundArrival t) :=
  of_event rfl rfl

theorem woundgraceExpiry (t : Nat) (slot : Nat) : Statement (.woundgraceExpiry t slot) :=
  of_event rfl rfl

theorem txendConfirm (t : Nat) (c : Nat) : Statement (.txendConfirm t c) :=
  of_event rfl rfl

theorem lkmatComplete (t : Nat) (c : Nat) : Statement (.lkmatComplete t c) :=
  of_event rfl rfl

theorem leaseRequest (die : Nat) : Statement (.leaseRequest die) :=
  of_event rfl rfl

theorem leaseRecall (die : Nat) : Statement (.leaseRecall die) :=
  of_event rfl rfl

theorem leaseReleaseAtHome (die : Nat) : Statement (.leaseReleaseAtHome die) :=
  of_event rfl rfl

theorem migratetile (q : Nat) : Statement (.migratetile q) :=
  of_event rfl rfl

theorem migrationStream : Statement (.migrationStream) :=
  of_event rfl rfl

theorem migrationRemap : Statement (.migrationRemap) :=
  of_event rfl rfl

theorem migrationResume : Statement (.migrationResume) :=
  of_event rfl rfl

theorem forwardingEntryRetire (r : Nat) : Statement (.forwardingEntryRetire r) :=
  of_event rfl rfl

theorem snapshotMarker (n : Nat) : Statement (.snapshotMarker n) :=
  of_event rfl rfl

theorem backgroundBlockCopy (t : Nat) : Statement (.backgroundBlockCopy t) :=
  of_event rfl rfl

theorem snapshotCountReport (n : Nat) : Statement (.snapshotCountReport n) :=
  of_event rfl rfl

theorem snapshotDrain (grp : Nat) : Statement (.snapshotDrain grp) :=
  of_event rfl rfl

theorem snapqAnswer : Statement (.snapqAnswer) :=
  of_event rfl rfl

theorem rollbackStep : Statement (.rollbackStep) :=
  of_event rfl rfl

theorem sealComplete (pid : Nat) : Statement (.sealComplete pid) :=
  of_event rfl rfl

theorem packageLoss (p : Nat) : Statement (.packageLoss p) :=
  of_event rfl rfl

theorem doorbell (q : Nat) : Statement (.doorbell q) :=
  of_event rfl rfl

theorem reconcilePass (q : Nat) : Statement (.reconcilePass q) :=
  of_event rfl rfl

theorem loadjob (q : Nat) : Statement (.loadjob q) :=
  of_event rfl rfl

theorem unloadjob (q : Nat) : Statement (.unloadjob q) :=
  of_event rfl rfl

theorem unloadjobKeep (q : Nat) : Statement (.unloadjobKeep q) :=
  of_event rfl rfl

theorem launch (q : Nat) : Statement (.launch q) :=
  of_event rfl rfl

theorem waittag (q : Nat) : Statement (.waittag q) :=
  of_event rfl rfl

theorem signal (q : Nat) : Statement (.signal q) :=
  of_event rfl rfl

theorem snapshot (q : Nat) : Statement (.snapshot q) :=
  of_event rfl rfl

theorem rollbackLocal (q : Nat) : Statement (.rollbackLocal q) :=
  of_event rfl rfl

theorem rollbackRemote (q : Nat) : Statement (.rollbackRemote q) :=
  of_event rfl rfl

theorem rollbackParked (q : Nat) : Statement (.rollbackParked q) :=
  of_event rfl rfl

theorem rollbackDiscard (q : Nat) : Statement (.rollbackDiscard q) :=
  of_event rfl rfl

theorem partitionCreate (q : Nat) : Statement (.partitionCreate q) :=
  of_event rfl rfl

theorem partitionDestroy (q : Nat) : Statement (.partitionDestroy q) :=
  of_event rfl rfl

theorem createq (q : Nat) : Statement (.createq q) :=
  of_event rfl rfl

theorem destroyq (q : Nat) : Statement (.destroyq q) :=
  of_event rfl rfl

theorem attest (q : Nat) : Statement (.attest q) :=
  of_event rfl rfl

theorem injecterr (q : Nat) : Statement (.injecterr q) :=
  of_event rfl rfl

theorem launchSweep (pid : Nat) : Statement (.launchSweep pid) :=
  of_event rfl rfl

theorem trigArrival : Statement (.trigArrival) :=
  of_event rfl rfl

theorem hostinRecord (mailbox : Nat) (rec : (List Word)) : Statement (.hostinRecord mailbox rec) :=
  of_event rfl rfl

theorem egressDelivery : Statement (.egressDelivery) :=
  of_event rfl rfl

theorem linkFrameReceive (port : Nat) (frame : Frame) : Statement (.linkFrameReceive port frame) :=
  of_event rfl rfl

theorem frameAck (port : Nat) (ack : Ack) : Statement (.frameAck port ack) :=
  of_event rfl rfl

theorem frameRetryTimeout (port : Nat) : Statement (.frameRetryTimeout port) :=
  of_event rfl rfl

theorem laneRetire (port : Nat) (out : Bool) : Statement (.laneRetire port out) :=
  of_event rfl rfl

theorem portDownSequenceReply (port : Nat) (seq : Nat) : Statement (.portDownSequenceReply port seq) :=
  of_event rfl rfl

theorem routeTableUpdate (entries : (List (Nat × Nat))) : Statement (.routeTableUpdate entries) :=
  of_event rfl rfl

theorem laneTurnaround (port : Nat) (toOut : Bool) : Statement (.laneTurnaround port toOut) :=
  of_event rfl rfl

theorem laneRecalibration (port : Nat) (out : Bool) (result : Option Bool) : Statement (.laneRecalibration port out result) :=
  of_event rfl rfl

theorem telemetrySample (dieMw : (List Nat)) (dieMilliC : (List Nat)) : Statement (.telemetrySample dieMw dieMilliC) :=
  of_event rfl rfl

theorem hbmPatrolScrub (pa : Nat) : Statement (.hbmPatrolScrub pa) :=
  of_event rfl rfl

theorem sramScrub (t : Nat) (off : Nat) : Statement (.sramScrub t off) :=
  of_event rfl rfl

theorem thermalLimit (die : Nat) : Statement (.thermalLimit die) :=
  of_event rfl rfl

theorem powerRemoval : Statement (.powerRemoval) :=
  of_event rfl rfl

theorem deviceReset (boot : Boot) : Statement (.deviceReset boot) :=
  of_event rfl rfl

theorem illegalInstruction (insn : Nat) : Statement (.illegalInstruction insn) :=
  of_event rfl rfl

theorem fetchFault (at_ : Addr) (unmapped : Bool) : Statement (.fetchFault at_ unmapped) :=
  of_event rfl rfl

theorem softError (key : Nat) (correctable : Bool) : Statement (.softError key correctable) :=
  of_event rfl rfl

theorem hostWrite (pa : Nat) (bytes : (List Byte)) : Statement (.hostWrite pa bytes) :=
  of_event rfl rfl

theorem egressRingConsumed (q : Nat) (n : Nat) : Statement (.egressRingConsumed q n) :=
  of_event rfl rfl

theorem thermalLimitCleared (die : Nat) : Statement (.thermalLimitCleared die) :=
  of_event rfl rfl

theorem portTrained (port : Nat) (peer : Nat) (txl : Nat) (rxl : Nat) : Statement (.portTrained port peer txl rxl) :=
  of_event rfl rfl

end EncodeDecode

end Sys2Proof.Laws
end

