-- ==== Sys2Proof/Tests/Slice0.lean ====
section
/-! SUPPORT. The model's own tests: words of the encoding tables decoded, ill-formed terms refused, single steps on a small state, and for each
statement with hypotheses a state and operands that meet them. -/

namespace Sys2Proof.Tests

open Sys2Proof.Machine Sys2Proof.Claims

set_option Elab.async false

/-! ### Decoding: words written out from the encoding tables (R139 to R156, R209, R216, R225, R247, R258) -/

/-- What the decoder reads from a 32-bit word, and from a 16-bit one. -/
noncomputable def long (w : Nat) : Option Instr := ((decode (leBytes 4 w)).toOption).map (·.1)
noncomputable def short (w : Nat) : Option Instr := ((decode (leBytes 2 w)).toOption).map (·.1)

-- from the assembled lines and field tables of spec/ 09 to 25
theorem test_decode_int : long 0x0005C034 = some (.add 3 4 5) := by decide +kernel
theorem test_decode_imm : long 0x7C00CD30 = some (.fmoviF64H 3 0x7C00) ∧ long 0x0025CC20 = some (.adr 2 0x00025) := by decide +kernel
theorem test_decode_branch : long 0xFF82D234 = some (.bcLt 3 4 (-8)) := by decide +kernel
theorem test_decode_control : long 0x0600D600 = some .tret ∧ long 0x1040D602 = some (.migrate 0x40 2) := by decide +kernel
theorem test_decode_loop : long 0x0018D560 = some (.loop0 6 24) := by decide +kernel
theorem test_decode_state_registers : long 0x210AD605 = some (.mts .utvec 5) := by decide +kernel
theorem test_decode_load : long 0x0026D834 = some (.ldd 3 4 2) := by decide +kernel
theorem test_decode_full_empty : long 0x0011DA54 = some (.lddWc 5 4 1) ∧ long 0x0000DB67 = some (.stdF 6 7 0) := by decide +kernel
theorem test_decode_amo : long 0x8005DC04 = some (.amoAdd .rel .d 0 4 5) ∧ long 0x6965DC34 = some (.amoCas .acq .w 3 4 5 6) := by decide +kernel
theorem test_decode_fence : long 0x0202DD00 = some (.fenceRel .die) := by decide +kernel
theorem test_decode_send : long 0x2103E029 = some (.send 0x21 9 2 3) ∧ long 0x4008E263 = some (.sendg 0x40 3 6 8) := by decide +kernel
theorem test_decode_transfer : long 0x0143E352 = some (.getN 5 2 3 4) ∧ long 0x0387E496 = some (.putFn 9 6 7 8) := by decide +kernel
theorem test_decode_counter : long 0x0443E502 = some (.cinc 2 3 4) := by decide +kernel
theorem test_decode_ring : long 0x0003E752 = some (.rresv 5 2 3) ∧ long 0x0303E702 = some (.rcons 2 3) := by decide +kernel
theorem test_decode_float : long 0x0A8AE889 = some (.ffma .d .fpm 8 9 10 8) ∧ long 0x9600E88E = some (.stof .s .fpm 8 14) := by decide +kernel
theorem test_decode_vfma : long 0x0A14F123 = some (.vfma .f32 false 2 3 4 1) := by decide +kernel
theorem test_decode_vari : long 0x0495F023 = some (.vadd .s32 true 2 3 5 1) := by decide +kernel
theorem test_decode_vlog : long 0x3014F223 = some (.vandn .s8 false 2 3 4 1) := by decide +kernel
theorem test_decode_vcmp : long 0x2A14F323 = some (.vcmpLt .f32 2 3 4 1) := by decide +kernel
theorem test_decode_vprm : long 0x0A90F424 = some (.vbcast .f32 true 2 4 1) := by decide +kernel
theorem test_decode_vcvt : long 0xD81AF523 = some (.vcvt true true .rtz .f16 .f32 false 1 2 3) := by decide +kernel
theorem test_decode_vred : long 0x1A10F632 = some (.vrsumt .f32 3 2 1) := by decide +kernel
theorem test_decode_vmem : long 0xFFF5F723 = some (.vstF 2 3 (-1)) := by decide +kernel
theorem test_decode_vgs : long 0x0A94F823 = some (.vgath .f32 true 2 3 4 1) := by decide +kernel
theorem test_decode_kop : long 0x0302F913 = some (.kandn 1 3 2) := by decide +kernel
theorem test_decode_engine : long 0x0300FC34 = some (.mstat 3 4) := by decide +kernel
theorem test_decode_lock : long 0x0303FD52 = some (.lkacq 5 2 3) ∧ long 0x0000FD67 = some (.txbeg 6 7) := by decide +kernel
theorem test_decode_system : long 0x0000FE50 = some (.snap 5) ∧ long 0x0500FE50 = some (.cycle 5) ∧ long 0x0804FE03 = some (.xinv 3 4) ∧
    long 0x0A03FE02 = some (.inject 2 3) := by decide +kernel
theorem test_decode_compressed : short 0x52FD = some (.cAddi 2 (-3)) ∧ short 0xB000 = some .cDone := by decide +kernel
theorem test_decode_reserved : short 0x0000 = none ∧ short 0xFF00 = none ∧ long 0x0120C783 = none := by decide +kernel

/-- R156: a reserved major opcode is named apart from a pattern that is none. -/
theorem test_decode_names : (match decode (leBytes 2 0xFF00) with | .error .illegalMajor => true | _ => false) = true ∧
    (match decode (leBytes 2 0x0000) with | .error .illegalPattern => true | _ => false) = true := by decide +kernel

/-! ### Terms that are no instructions (R142, R150, R173, R209, R216, R217, R223, R224) -/

/-- An ill-formed term for each check of `Instr.wellFormed`, refused. -/
theorem smoke_operands : Instr.wellFormed (.cMov 0 0) = false ∧ Instr.wellFormed (.loop0 4 0) = false ∧ Instr.wellFormed (.loop1 4 0) = false ∧
    Instr.wellFormed (.send 0x20 4 0 9) = false ∧ Instr.wellFormed (.send 0x20 4 14 3) = false ∧ Instr.wellFormed (.sendg 0x20 4 1 0) = false := by
  decide
theorem smoke_arithmetic_types : Instr.wellFormed (.vadd .e4m3 false 1 2 3 0) = false ∧ Instr.wellFormed (.vsub .e5m2 false 1 2 3 0) = false ∧
    Instr.wellFormed (.vmul .e4m3 false 1 2 3 0) = false ∧ Instr.wellFormed (.vmin .e5m2 false 1 2 3 0) = false ∧
    Instr.wellFormed (.vmax .e5m2 false 1 2 3 0) = false ∧ Instr.wellFormed (.vabs .n8 false 1 2 0) = false ∧
    Instr.wellFormed (.vneg .n64 false 1 2 0) = false ∧ Instr.wellFormed (.vadds .f16 false 1 2 3 0) = false ∧
    Instr.wellFormed (.vsubs .f64 false 1 2 3 0) = false ∧ Instr.wellFormed (.vmulh .f32 false 1 2 3 0) = false ∧
    Instr.wellFormed (.vdiv .e4m3 false 1 2 3 0) = false ∧ Instr.wellFormed (.vsqrt .s32 false 1 2 0) = false ∧
    Instr.wellFormed (.vavg .bf16 false 1 2 3 0) = false ∧ Instr.wellFormed (.vfma .s32 false 1 2 3 0) = false ∧
    Instr.wellFormed (.vfms .n8 false 1 2 3 0) = false ∧ Instr.wellFormed (.vnfma .e4m3 false 1 2 3 0) = false ∧
    Instr.wellFormed (.vmac .f32 false 1 2 3 0) = false ∧ Instr.wellFormed (.vdot2 .f32 false 1 2 3 0) = false ∧
    Instr.wellFormed (.vdot4 .f16 false 1 2 3 0) = false ∧ Instr.wellFormed (.vdot4i .s16 false 1 2 3 0) = false := by decide
theorem smoke_other_types : Instr.wellFormed (.vshl .f32 false 1 2 3 0) = false ∧ Instr.wellFormed (.vshr .f64 false 1 2 3 0) = false ∧
    Instr.wellFormed (.vsar .f16 false 1 2 3 0) = false ∧ Instr.wellFormed (.vrol .bf16 false 1 2 3 0) = false ∧
    Instr.wellFormed (.vcmpUn .s32 1 2 3 0) = false ∧ Instr.wellFormed (.viota .f32 false 1 0) = false ∧
    Instr.wellFormed (.vcvt true false .rne .f32 .s32 false 0 1 2) = false ∧ Instr.wellFormed (.vcvt false false .sr .f32 .f64 false 0 1 2) = false ∧
    Instr.wellFormed (.vgath .s16 false 1 2 3 0) = false ∧ Instr.wellFormed (.vscat .f16 1 2 3 0) = false ∧
    Instr.wellFormed (.vscata .s8 1 2 3 0) = false ∧ Instr.wellFormed (.vldt .f64 false 0 1 2 0) = false ∧
    Instr.wellFormed (.vldt .f32 false 2 1 2 0) = false ∧ Instr.wellFormed (.vstq .f64 false 0 1 2) = false ∧
    Instr.wellFormed (.vstq .f16 false 2 1 2) = false := by decide

/-! ### The small state of the tests -/

/-- The bits of a tile-space address of this package: tile and offset (R106). -/
def at1 (tile off : Nat) : Nat := 2 ^ 55 + 0x7FFE * 2 ^ 40 + tile * 2 ^ 28 + off
/-- An address in the running tile's own scratchpad. -/
def own (off : Nat) : Nat := at1 0xFFF off

/-- A job that owns every class and runs in group 1; partition 1 holds tiles 0 and 1. -/
def demoJob : Job :=
  { name := [], jobid := 0, accq := 0, classes := List.replicate 256 1, snapCap := false, autoroll := false, trapt := 1, srseed := 1, grace := 5,
    gallery := 0, galleryBytes := 0, hostq := [], ranges := [], windows := [], msgs := [], tags := [], lastTag := 0, digest := [], image := [],
    service := some 0x20, lost := 0, group := 1, areaAt := 0, area := 0, drain := 0 }
def demoPart : Partition :=
  { tiles := [0, 1], pkgs := [State.reset.pkg], asid := 1, quota := 0, used := 0, landing := 0, gallery := 0, shares := [], root := benchRoot,
    lastTag := 0, job := some demoJob, sealed_ := false, fault := false, sealedAt := 0, leaving := false, rename := [], absorbed := 0 }
/-- The first flit of a message of one flit for tile 0, and the message in the Landing that context 0 runs. -/
def demoHdr : Header :=
  { dpkg := 0, dtile := 0, cls := 0x20, prio := 1, colour := 0, nflit := 0, ftag := 3, kind := 0, spkg := 0, stile := 1, mseq := 9, origKind := 0 }
def demoEntry : Entry :=
  { key := 7, hdr := demoHdr, age := 2, words := [11, 12, 13, 14, 15, 16, 17, 18], present := [0], accept := 0, ready := 0, unread := false,
    golden := false, traps := 0, aged := false, hold := false, ctx := some 0, recNo := 0 }
def demoGroup : Group :=
  { id := 1, lastId := 0, colour := 0, snaps := [], past := [], rcount := 0, rsid := 0, replay := [], logging := false, logged := 0, node := .reset,
    dies := [0] }
/-- The running context: g2 a tile address of tile 1, g4 and g5 addresses in the own scratchpad and in tile 1's, g6 7, g7 -2, g8 the control
word of a field at 8 of 12 bits, g9 16, g10 4, g15 an even code address. -/
def demoCtx : Ctx :=
  { Ctx.reset with
    run := .ready, pc := 0x40, key := 7, cls := 0x20, prio := 1, ftag := 3, hlimit := 0
    g := #v[0, 0, BitVec.ofNat 64 (0x7FFE * 4096 + 1), 3, BitVec.ofNat 64 (own 0x100), BitVec.ofNat 64 (at1 1 0x200), 7, -2, 0x0C08, 16, 4,
            0x3FF8000000000000, 0, 0, BitVec.ofNat 64 (own 0x400), 0x80]
    k := #v[0, 0b101, 0, 0, 0, 0, 0, 0] }
/-- Tile 0 of a partition with tiles 0 and 1 runs `demoCtx` in context 0. -/
def demo : State :=
  let s := State.reset.withFetchWord 32 0x0005C034
  let s := s.modTile 0 fun x => { (x.setCtx 0 demoCtx) with
    land := { x.land with slots := [demoEntry], next := 8 }, regs := { x.regs with qdepth := 0x080808, jobid := 5 } }
  { s with vest := { s.vest with parts := [(1, demoPart)], groups := [demoGroup] } }
/-- The state with another running context. -/
def demoWith (f : Ctx → Ctx) : State := demo.setCtx 0 0 (f demo.cur)
/-- `f` of the next state, if there is one. -/
def after {α : Type} (o : Host.Outcome State Fault Refusal) (f : State → α) : Option α :=
  match o with
  | .next t => some (f t)
  | _ => none

/-! ### Single steps -/

-- R39: a zero divisor, and the most negative number by -1
theorem test_div_by_zero : after (exec (.div 1 6 0) demo) (fun t => (t.cur.rd 1, t.cur.pc)) = some (BitVec.allOnes 64, 0x44) := by decide +kernel
theorem test_rem_by_zero : after (exec (.rem 1 6 0) demo) (fun t => t.cur.rd 1) = some 7 := by decide +kernel
theorem test_div_overflow : after (exec (.div 1 2 7) (demoWith fun c => (c.wr 2 0x8000000000000000).wr 7 (-1))) (fun t => t.cur.rd 1)
    = some 0x8000000000000000 := by decide +kernel
-- R168, its worked example
theorem test_bfx : after (exec (.bfx 1 4 5) (demoWith fun c => (c.wr 4 0xABCD1234).wr 5 0x0C08)) (fun t => t.cur.rd 1) = some 0xD12 := by
  decide +kernel
theorem test_bfxs : after (exec (.bfxs 1 4 5) (demoWith fun c => (c.wr 4 0xABCD1234).wr 5 0x0C08)) (fun t => t.cur.rd 1)
    = some 0xFFFFFFFFFFFFFD12 := by decide +kernel
-- R136: g0 discards
theorem test_add_g0 : after (exec (.add 0 6 6) demo) (fun t => t.cur.rd 0) = some 0 := by decide +kernel
-- R189, R9: a store and its low bytes
theorem test_store_word : after (exec (.stw 7 4 1) demo) (fun t => (t.byteAt (poolBase 0 + 0x104), t.byteAt (poolBase 0 + 0x107), t.byteAt
    (poolBase 0 + 0x108))) = some (0xFE, 0xFF, 0) := by decide +kernel
theorem test_load_far : after (exec (.ldd 1 5 0) demo) (fun t => ((t.cur.run != .ready), t.me.mu.queue.length)) = some (true, 1) := by
  decide +kernel
-- R170: a link and its target; R109: an odd target
theorem test_jlr : after (exec (.jlr 15 15) demo) (fun t => (t.cur.rd 15, t.cur.pc)) = some (0x44, 0x80) := by decide +kernel
-- R174: a loop goes back at its end
theorem test_loop_back : after (exec .nop (demoWith fun c => { c with loop0 := ⟨true, 3, 0x20, 0x44⟩ })) (fun t => (t.cur.pc, t.cur.loop0.count))
    = some (0x20, 2) := by decide +kernel
-- R192: compare and swap
theorem test_cas_fails : after (exec (.amoCas .rlx .d 1 4 6 3) demo) (fun t => (t.cur.rd 1, t.byteAt (poolBase 0 + 0x100))) = some (0, 0) := by
  decide +kernel
-- R45, R183: 1.5 + 1.5 = 3
theorem test_fadd : after (exec (.fadd .d .rne 1 11 11) demo) (fun t => (t.cur.rd 1, t.cur.fpf)) = some (0x4008000000000000, 0) := by
  decide +kernel
-- R208: k1 = 0b101, zeroing
theorem test_vbcast : after (exec (.vbcast .s32 true 1 6 1) demo) (fun t => (lane 32 (t.cur.rv 1) 0, lane 32 (t.cur.rv 1) 1, lane 32 (t.cur.rv 1) 2))
    = some (7, 0, 7) := by decide +kernel
-- R195, R84: a send waits in the buffer
theorem test_send : after (exec (.send 0x21 2 6 2) demo) (fun t => t.cur.sends.map (·.words)) = some [[7, -2]] := by decide +kernel
-- R202: word 1 of the triggering message; beyond it 0
theorem test_msgld : after (exec (.msgld 1 1) demo) (fun t => t.cur.rd 1) = some 12 ∧ after (exec (.msgld 1 31) demo) (fun t => t.cur.rd 1) = some 0 := by
  decide +kernel
-- R83: DONE frees the message and the context
theorem test_done : after (exec .done demo) (fun t => (t.cur.run == .idle, t.me.land.slots.length)) = some (true, 0) := by decide +kernel
-- R138: a system register at job privilege
theorem test_privileged : after (exec (.mts .asid 6) demo) (fun t => t.cur.run == .ready) = some false := by decide +kernel
-- R179: TRAP with a vector
theorem test_trap : after (exec (.trap 9) (demoWith fun c => { c with ut := { c.ut with vec := 0x200 } })) (fun t => (t.cur.pc, t.cur.ut.pc, t.cur.ut.ucode))
    = some (0x200, 0x44, 9) := by decide +kernel
-- R201: arming goes on
theorem test_carm_fires : after (exec (.carm 0 6 12) demo) (fun t => t.cur.pc) = some 0x44 := by decide +kernel
-- R156: the first step after reset with a word placed runs it
theorem test_step : after (step (State.reset.withFetchWord 32 0x0005C034)) (fun t => t.cur.pc) = some 4 := by decide +kernel

/-! ### States and operands that meet the hypotheses of each statement -/

theorem witness_IntegerResults : intResult demo.cur.rd (.add 1 6 7) = some (1, 5) ∧ compressedResult demo.cur.rd (.cAdd 6 6) = some (6, 14) ∧
    demo.cur.rd 6 = BitVec.ofNat 64 (7 : Byte).toNat ∧ 256 ≤ (demo.cur.rd 4).toNat ∧ (controlOk 8 12 ∧ demo.cur.rd 8 = control 8 12) := by
  unfold controlOk; decide +kernel
/-- Legal fields at the ends of their ranges, and a word that is no legal control. -/
theorem witness_field_controls : controlOk 0 64 ∧ controlOk 63 1 ∧ controlOk 63 0 ∧ ¬ controlOk 63 2 ∧
    ∀ pos len : Nat, controlOk pos len → demo.cur.rd 7 ≠ control pos len := by
  refine ⟨?_, ?_, ?_, ?_, ?_⟩ <;> try (unfold controlOk; decide)
  intro pos len ⟨_, _, _⟩ h
  have h2 := congrArg BitVec.toNat h
  rw [show demo.cur.rd 7 = -2 from by decide +kernel] at h2
  simp only [Claims.control, BitVec.toNat_ofNat] at h2
  have h3 : BitVec.toNat (-2 : Word) = 2 ^ 64 - 2 := by decide
  omega
theorem witness_ImmediateResults : immResult demo.cur.rd demo.cur.pc (.addi 1 6 (-1)) = some (1, 6) ∧
    immResult demo.cur.rd demo.cur.pc (.adr 1 0x25) = some (1, 0x8A) := by decide +kernel
theorem witness_Branches : branchOf demo.cur.rd demo.cur.pc (.bcLt 7 6 4) = some (true, 0x48, 4) ∧
    branchOf demo.cur.rd demo.cur.pc (.cBz 6 4) = some (false, 0x48, 2) ∧ fbranchOf (.fbcEq .d 11 11 4) = some (.eq, .d, 11, 11, 4) := by
  decide +kernel
theorem witness_Jumps : (demo.cur.rd 15).toNat % 2 = 0 ∧ (demo.cur.rd 6).toNat % 2 = 1 ∧ ((demoWith fun c => c.wr 15 0x81).cur.rd 15).toNat % 2 = 1 := by
  decide +kernel
/-- A count of 0, the least and the greatest legal one, and the least illegal one. -/
theorem witness_LoopEntry : demo.cur.rd 0 = 0 ∧ (demo.cur.rd 6).toNat < 2 ^ 32 ∧ demo.cur.rd 6 ≠ 0 ∧
    ((demoWith fun c => c.wr 1 0xFFFFFFFF).cur.rd 1).toNat < 2 ^ 32 ∧ 2 ^ 32 ≤ ((demoWith fun c => c.wr 1 0x100000000).cur.rd 1).toNat := by
  decide +kernel
/-- A context with both loops ending at 0x80, level 1 the newer, with counts to choose. -/
def looping (n m : BitVec 32) (newer : Bool) : Ctx :=
  { demoCtx with loop0 := ⟨true, n, 0x20, 0x80⟩, loop1 := ⟨true, m, 0x40, 0x80⟩, newer1 := newer }
theorem witness_Loops : (looping 2 1 true).ut.act = false ∧ endsAt (looping 2 1 true).loop0 0x80 ∧ endsAt (looping 2 1 true).loop1 0x80 ∧
    (looping 2 1 true).loop1.count.toNat ≤ 1 ∧ 2 ≤ (looping 2 2 true).loop1.count.toNat ∧ ¬ endsAt (looping 2 2 true).loop0 0x82 ∧
    ¬ endsAt demoCtx.loop0 0x80 ∧ ¬ endsAt demoCtx.loop1 0x80 ∧ (looping 2 2 false).newer1 = false ∧ 2 ≤ (looping 2 2 false).loop0.count.toNat := by
  unfold endsAt; decide
theorem witness_one_loop : endsAt { looping 2 1 true with loop1 := .reset }.loop0 0x80 ∧ ¬ endsAt { looping 2 1 true with loop1 := .reset }.loop1 0x80 ∧
    endsAt { looping 1 1 true with loop0 := .reset }.loop1 0x80 ∧ ¬ endsAt { looping 1 1 true with loop0 := .reset }.loop0 0x80 := by
  unfold endsAt; decide
theorem witness_loops_in_a_trap : ({ demoCtx with ut := ⟨0x200, 0, true, 0, 0, 0⟩ } : Ctx).ut.act = true := rfl
theorem witness_StateRegisters : StateReg.privileged .fpm = false ∧ demo.cur.sys = false ∧ StateReg.privileged .asid = true ∧
    demo.cur.run = .ready ∧ mtsLegal demo .fpf (demo.cur.rd 6) ∧ ¬ mtsLegal demo .pc (demo.cur.rd 6) ∧ ¬ mtsLegal demo .fpm (demo.cur.rd 9) := by
  refine ⟨rfl, by decide +kernel, rfl, by decide +kernel, ?_, ?_, ?_⟩
  · unfold mtsLegal; decide +kernel
  · intro h; exact absurd h.1 (by decide)
  · intro h; exact absurd (h.2.1 4 (by decide) (by decide +kernel)) (by decide +kernel)
/-- A system register in a system handler. -/
theorem witness_system_register : (demoWith fun c => { c with sys := true }).cur.sys = true ∧
    mtsLegal (demoWith fun c => { c with sys := true }) .asid 7 := by
  refine ⟨by decide +kernel, ?_⟩; unfold mtsLegal; decide +kernel
theorem witness_HintsAndFences : demo.me.outTags demo.ctx = [] ∧ (∀ p ∈ demo.cur.posts, demo.me.postDone p = true) ∧
    (∃ p ∈ (demoWith fun c => { c with posts := [(true, 1)] }).cur.posts, (demoWith fun c => { c with posts := [(true, 1)] }).me.postDone p = false) := by
  refine ⟨by decide +kernel, by decide +kernel, ⟨(true, 1), by decide +kernel, by decide +kernel⟩⟩
/-- The state with one access of the running context outstanding. -/
def busy : State := demo.modTile 0 fun x => { x with mu := { x.mu with
  out := [{ tag := 0, ctx := 0, gen := 0, grs := [], pages := [], spots := [], get := none, reads := true, pc := 0x3C, msgid := 0, ftag := 3, lock := false }], nextTag := 1 } }
theorem witness_fence_waits : Scope.tile ≠ .context ∧ busy.me.outTags busy.ctx ≠ [] := by decide +kernel
theorem witness_HandlerEnds : Plain demo ∧ HasRoom demo (sendsOf demo) ∧
    HasRoom (demoWith fun c => { c with sends := [⟨0, 0x21, [0x7FFE001], [1, 2]⟩] })
      (sendsOf (demoWith fun c => { c with sends := [⟨0, 0x21, [0x7FFE001], [1, 2]⟩] })) := by
  refine ⟨⟨?_, ?_⟩, ?_, ?_⟩
  · decide +kernel
  · decide +kernel
  · unfold HasRoom; decide +kernel
  · unfold HasRoom; decide +kernel
theorem witness_RequeueReturnsTheMessage : demo.cur.committed = false ∧ demo.me.entry demo.cur.key = some demoEntry ∧ demo.me.land.spill = [] ∧
    demo.me.land.again = [] ∧ ((demo.me.land.slots.filter (·.key != demo.cur.key)).filter fun x => x.prio == demoEntry.prio).length <
      demo.me.regs.depth demoEntry.prio ∧ (demoWith fun c => { c with committed := true }).cur.committed = true := by decide +kernel
theorem witness_UserTraps : demo.cur.ut.act = false ∧ demo.cur.ut.vec = 0 ∧
    (demoWith fun c => { c with ut := ⟨0x200, 0, false, 0, 0, 0⟩ }).cur.ut.vec ≠ 0 ∧
    (demoWith fun c => { c with ut := ⟨0x200, 0, true, 0, 0, 0⟩ }).cur.ut.act = true := by decide +kernel
theorem witness_MigrateSendsTheContext : (demo.cur.rd 2).toNat < 2 ^ 27 ∧ demo.classOk demo.tile 0x21 = true ∧ demo.cur.loop0.act = false ∧
    demo.cur.loop1.act = false ∧ (demo.destOf demo.tile (demo.cur.rd 2)).toOption = some (0, 1) ∧ demo.cur.sends.length < 16 ∧
    demo.me.outq.length + 1 ≤ Config.outboundRoom ∧ 2 ^ 27 ≤ (demo.cur.rd 7).toNat ∧ demo.classOk demo.tile 0xFC = false := by decide +kernel

/-- The state with words written into tile 0's scratchpad, and with granules empty. -/
def holding (off : Nat) (ws : List Word) : State := demo.write (poolBase 0 + off) (ws.flatMap fun w => leBytes 8 w.toNat)
def drained (g : Nat) : State := { demo with empty := [g] }
/-- The granule of offset 0x100 of tile 0. -/
def gran : Nat := (poolBase 0 + 0x100) / 16

theorem witness_ReadAfterWrite : Memory.wf demo.mem = true := by decide +kernel
theorem witness_OwnLoads : loadOf demo.cur.rd (.ldd 1 4 2) = some (1, BitVec.ofNat 56 (own 0x110), 8, false, 4) ∧
    OwnAt demo (BitVec.ofNat 56 (own 0x110)) 8 8 ∧ Sound demo (ownKey demo (BitVec.ofNat 56 (own 0x110))) 8 := by
  unfold OwnAt Sound; decide +kernel
theorem witness_OwnStores : storeOf demo.cur.rd (.sth 7 4 (-1)) = some (-2, BitVec.ofNat 56 (own 0xFE), 2, 4) ∧
    OwnAt demo (BitVec.ofNat 56 (own 0xFE)) 2 2 ∧ Sound demo (ownKey demo (BitVec.ofNat 56 (own 0xFE))) 2 ∧ Memory.wf demo.mem = true := by
  unfold OwnAt Sound; decide +kernel
/-- The last doubleword of the scratchpad, and the one beyond it. -/
theorem witness_scratch_end : OwnAt demo (BitVec.ofNat 56 (own 0x1FFFF8)) 8 8 ∧ ¬ OwnAt demo (BitVec.ofNat 56 (own 0x1FFFFC)) 8 8 ∧
    demo.scratch 0 = 0x200000 := by
  unfold OwnAt; decide +kernel
theorem witness_OwnFullEmptyForms : feOf demo.cur.rd (.stdF 6 4 0) = some (.stdF, BitVec.ofNat 56 (own 0x100), 7, none) ∧
    OwnAt demo (BitVec.ofNat 56 (own 0x100)) 8 8 ∧ Sound demo (ownKey demo (BitVec.ofNat 56 (own 0x100))) 8 ∧ NoWaiters demo ∧
    demo.me.outTags demo.ctx = [] ∧ feGoes .stdF (demo.full gran) = true ∧ feGoes .lddW (demo.full gran) = true ∧
    granule (ownKey demo (BitVec.ofNat 56 (own 0x100))) = gran := by
  unfold OwnAt Sound NoWaiters; decide +kernel
theorem witness_FullEmptyOfEmptyOrFullGranules : (drained gran).full gran = false ∧
    ea ((drained gran).cur.rd 4) 8 0 = BitVec.ofNat 56 (own 0x100) ∧ OwnAt (drained gran) (BitVec.ofNat 56 (own 0x100)) 8 8 ∧
    feGoes .lddW ((drained gran).full gran) = false ∧ feGoes .stdWf (demo.full gran) = false ∧ (drained gran).cur.ut.vec = 0 ∧
    ((drained gran).setCtx 0 0 { demoCtx with ut := ⟨0x200, 0, false, 0, 0, 0⟩ }).cur.ut.vec ≠ 0 := by
  unfold OwnAt; decide +kernel
theorem witness_OwnAtomics : (amoOf demo.cur.rd (.amoCas .ar .w 1 4 6 3)).map (fun r => r.2.2.2) = some (1, BitVec.ofNat 56 (own 0x100), 7, 3) ∧
    OwnAt demo (BitVec.ofNat 56 (own 0x100)) 4 4 ∧ Sound demo (ownKey demo (BitVec.ofNat 56 (own 0x100))) 4 ∧ demo.me.outTags demo.ctx = [] := by
  unfold OwnAt Sound; decide +kernel
/-- A ring of four slots at 0x800 with two tickets reserved, none consumed, its descriptor at 0x100. -/
def ringState : State := { holding 0x100 [2, 0, BitVec.ofNat 64 (4 * 2 ^ 32 + 0x800), 0, 0, 0, 0, 0] with empty := [(poolBase 0 + 0x810) / 16] }
theorem witness_OwnRings : Memory.wf ringState.mem = true ∧ OwnAt ringState (adr (ringState.cur.rd 4)) 64 64 ∧
    Sound ringState (ownKey ringState (adr (ringState.cur.rd 4))) 64 ∧ NoWaiters ringState ∧
    (ringAt ringState (ownKey ringState (adr (ringState.cur.rd 4)))).ok = true ∧ (ringState.cur.rd 3).toNat = 3 ∧
    (ringAt ringState (ownKey ringState (adr (ringState.cur.rd 4)))).slots = 4 ∧ (ringState.cur.rd 9).toNat = 16 ∧
    ringState.fullRun (ringAt ringState (ownKey ringState (adr (ringState.cur.rd 4)))) 0 0 4 = 1 ∧ ringState.me.outTags ringState.ctx = [] := by
  unfold OwnAt Sound NoWaiters; decide +kernel
/-- RRESV of the two free slots, and RCONS of the one full slot. -/
theorem witness_ring_counts : (let r := ringAt ringState (ownKey ringState (adr (ringState.cur.rd 4)))
    (r.resv - r.head).toNat + 2 ≤ r.slots ∧ (r.resv - r.head).toNat + 3 > r.slots) ∧
    ((ringState.setCtx 0 0 (demoCtx.wr 1 1)).cur.rd 1).toNat ≤ 1 := by decide +kernel
theorem witness_OwnVectorAccesses : OwnAt demo (ea (demo.cur.rd 4) 64 (-1)) 64 64 ∧ Sound demo (ownKey demo (ea (demo.cur.rd 4) 64 (-1))) 64 ∧
    NoWaiters demo ∧ (∀ g ∈ granules (ownKey demo (ea (demo.cur.rd 4) 64 (-1))) 64, demo.full g = true) ∧ demo.me.outTags demo.ctx = [] := by
  unfold OwnAt Sound NoWaiters; decide +kernel
theorem witness_OwnGatherScatter : gsActive demo .s32 1 = [0, 2] ∧ (∀ i ∈ gsActive demo .s32 1, OwnAt demo (gsAddress demo .s32 4 3 i) 4 4 ∧
    Sound demo (ownKey demo (gsAddress demo .s32 4 3 i)) 4) ∧ demo.me.roomFor demo.ctx 0 = true := by
  unfold OwnAt Sound; decide +kernel
/-- The checks of an access: an odd address; a tile outside the partition; a set bit of [27:21]; a range past the end; a bad granule. -/
theorem witness_AccessChecks : accessOf demo.cur.rd (.ldws 1 6 0) = some (7, 4, 4) ∧ (7 : Addr).toNat % 4 ≠ 0 ∧
    inTileSpace (BitVec.ofNat 56 (at1 2 0)) = true ∧ demo.inPartition demo.tile (demo.pkgOf (tsPkg (BitVec.ofNat 56 (at1 2 0))))
      (demo.realTile demo.tile (tsTile (BitVec.ofNat 56 (at1 2 0)))) = false ∧
    demo.inPartition demo.tile (demo.pkgOf (tsPkg (BitVec.ofNat 56 (at1 1 0)))) (demo.realTile demo.tile (tsTile (BitVec.ofNat 56 (at1 1 0)))) = true ∧
    tsZero (BitVec.ofNat 56 (at1 1 0x200000)) = false ∧ demo.scratch 1 < tsOff (BitVec.ofNat 56 (at1 1 0x1FFFFC)) + 8 := by decide +kernel
theorem witness_uncorrectable : (({ demo with bad := [(poolBase 0 + 0x100, 16)] } : State).badIn (ownKey demo (BitVec.ofNat 56 (own 0x100))) 8) =
    some (poolBase 0 + 0x100) := by decide +kernel
theorem witness_FarRequests : loadOf demo.cur.rd (.ldd 1 5 0) = some (1, BitVec.ofNat 56 (at1 1 0x200), 8, false, 4) ∧
    storeOf demo.cur.rd (.std 6 5 0) = some (7, BitVec.ofNat 56 (at1 1 0x200), 8, 4) ∧ inTileSpace (BitVec.ofNat 56 (at1 1 0x200)) = true ∧
    demo.pkgOf (tsPkg (BitVec.ofNat 56 (at1 1 0x200))) = demo.pkg ∧ demo.realTile demo.tile (tsTile (BitVec.ofNat 56 (at1 1 0x200))) = 1 ∧
    demo.inPartition demo.tile demo.pkg 1 = true ∧ tsZero (BitVec.ofNat 56 (at1 1 0x200)) = true ∧ 0x200 + 8 ≤ demo.scratch 1 ∧
    demo.me.roomFor demo.ctx 1 = true ∧ demo.me.granuleBusy demo.ctx (granules (poolBase 1 + 0x200) 8) = false := by decide +kernel

theorem witness_FloatingResults : floatResult demo.cur (.fadd .d .rne 1 11 11) = some (1, 0x4008000000000000, 0) := by decide +kernel
theorem witness_VectorArithmetic : (vectorArithmetic demo.cur (.vadd .s32 true 2 3 5 1)).isSome = true ∧
    (vectorArithmetic demo.cur (.vdot4i .s8 false 2 3 5 1)).isSome = true := by decide +kernel
theorem witness_VectorPermutes : (vectorPermute demo.cur (.vbcast .f32 true 2 4 1)).isSome = true := by decide +kernel
theorem witness_PredicatesAndCompares : compareOf (.vcmpUn .f32 2 3 4 1) = some (.un, .f32, 2, 3, 4, 1) ∧
    predicateResult demo.cur (.knot 2 1) = some (2, ~~~5) := by decide +kernel
theorem witness_VectorReductions : ElemType.isInt .s32 = true ∧ ElemType.isInt .f32 = false ∧ activeValues demo.cur .f32 3 2 = [] ∧
    activeValues demo.cur .f32 3 1 ≠ [] := by decide +kernel

/-- The state with a fat pointer of a format, block code and scratchpad offset in g1 and a scale address in g3. -/
def pointing (fmt code off : Nat) : State :=
  demoWith fun c => (c.wr 1 (BitVec.ofNat 64 (fmt * 2 ^ 60 + code * 2 ^ 56 + own off))).wr 3 (BitVec.ofNat 64 (own 0x300))
theorem witness_TypedBlocks_fp8 : blockType .f16 ∧ fatLen ((pointing 5 0 0x200).cur.rd 1) = some 0 ∧
    ((pointing 5 0 0x200).cur.rd 1).toNat / 2 ^ 60 = 5 ∧ (adr ((pointing 5 0 0x200).cur.rd 1)).toNat % 64 = 0 ∧
    OwnAt (pointing 5 0 0x200) (BitVec.ofNat 56 (own 0x200)) 64 64 ∧ Sound (pointing 5 0 0x200) (ownKey (pointing 5 0 0x200) (BitVec.ofNat 56 (own 0x200)))
      (4 * ElemType.lanes .f16) ∧ OwnAt (pointing 5 0 0x200) (BitVec.ofNat 56 (own 0x200)) (4 * ElemType.lanes .f16) 64 ∧
    (pointing 5 0 0x200).me.roomFor (pointing 5 0 0x200).ctx 0 = true := by
  unfold blockType OwnAt Sound; decide +kernel
theorem witness_TypedBlocks_q4o : blockType .f32 ∧ fatLen ((pointing 8 5 0x220).cur.rd 1) = some 32 ∧
    ((pointing 8 5 0x220).cur.rd 1).toNat / 2 ^ 60 = 8 ∧ vldtReads 8 32 (BitVec.ofNat 56 (own 0x220)) (BitVec.ofNat 56 (own 0x300)) =
      ((BitVec.ofNat 56 (own 0x220), 32, 32), [BitVec.ofNat 56 (own 0x300), BitVec.ofNat 56 (own 0x301)]) ∧
    OwnAt (pointing 8 5 0x220) (BitVec.ofNat 56 (own 0x220)) 32 32 ∧ OwnAt (pointing 8 5 0x220) (BitVec.ofNat 56 (own 0x301)) 1 1 ∧
    4 * ElemType.lanes .f32 % 32 = 0 ∧ OwnAt (pointing 8 5 0x220) (BitVec.ofNat 56 (own 0x220)) (2 * ElemType.lanes .f32) 1 := by
  unfold blockType OwnAt; decide +kernel
theorem witness_SendsAndMessageReads : (demo.cur.rd 2).toNat < 2 ^ 27 ∧ demo.classOk demo.tile 0x21 = true ∧
    (demo.destOf demo.tile (demo.cur.rd 2)).toOption = some (0, 1) ∧ demo.cur.sends.length < 16 ∧ (demo.cur.rd 9).toNat % 8 = 0 ∧
    demo.isLocal demo.tile (demo.cur.rd 4) = true ∧ OwnAt demo (adr (demo.cur.rd 4)) 16 8 ∧ Sound demo (ownKey demo (adr (demo.cur.rd 4))) 16 ∧
    (demo.cur.rd 10).toNat < 8 ∧ demo.me.entry demo.cur.key = some demoEntry ∧
    (demoWith fun c => { c with sends := List.replicate 16 ⟨0, 0x21, [], []⟩ }).cur.sends.length = 16 := by
  unfold OwnAt Sound; decide +kernel
/-- A destination outside the partition, and group tables: one valid entry, none, and one with a reserved bit. -/
theorem witness_send_destinations : ((demoWith fun c => c.wr 2 (BitVec.ofNat 64 (0x7FFE * 4096 + 5))).destOf demo.tile
      (BitVec.ofNat 64 (0x7FFE * 4096 + 5))).toOption = none ∧
    ((wordsOf 8 ((holding 0x100 [BitVec.ofNat 64 (2 ^ 63 + 0x7FFE * 4096 + 1)]).read (poolBase 0 + 0x100) 64)).filter fun v => v.getLsbD 63) =
      [BitVec.ofNat 64 (2 ^ 63 + 0x7FFE * 4096 + 1)] ∧
    ((wordsOf 8 (demo.read (poolBase 0 + 0x100) 64)).filter fun v => v.getLsbD 63) = [] ∧ demo.isLocal demo.tile (demo.cur.rd 4) = true ∧
    OwnAt demo (adr (demo.cur.rd 4)) 64 64 := by
  unfold OwnAt; decide +kernel
theorem witness_Transfers : lengthOk (demo.cur.rd 9) ∧ demo.isLocal demo.tile (demo.cur.rd 4) = true ∧ TileAt demo (adr (demo.cur.rd 5)) 16 16 ∧
    OwnAt demo (adr (demo.cur.rd 4)) 16 16 ∧ Sound demo (ownKey demo (adr (demo.cur.rd 4))) 16 ∧ demo.me.roomFor demo.ctx 1 = true ∧
    demo.me.granuleBusy demo.ctx (granules (tileKey demo (adr (demo.cur.rd 5))) 16) = false ∧ (demo.cur.rd 6).toNat ≤ 255 ∧
    255 < (demo.cur.rd 5).toNat ∧ ¬ lengthOk (demo.cur.rd 6) ∧ demo.isLocal demo.tile (demo.cur.rd 5) = false := by
  unfold lengthOk TileAt OwnAt Sound; decide +kernel
theorem witness_Counters : (demo.cur.rd 6).toNat ≤ 255 ∧ demo.actionOk 0 7 = true ∧ demo.actionOk 0x20 7 = false ∧ 255 < (demo.cur.rd 4).toNat ∧
    demo.me.cnt.actions.length < Config.actionRoom ∧ demo.me.outTags demo.ctx = [] ∧ (demo.cur.rd 2).toNat < 2 ^ 27 ∧
    (demo.destOf demo.tile (demo.cur.rd 2)).toOption = some (0, 1) ∧ 2 ^ 27 ≤ (demo.cur.rd 7).toNat ∧ (demo.me.cnt.get 7).value = demo.cur.rd 0 := by
  decide +kernel

/-- A record of the scratchpad: an ACLR, and one whose reserved bits are set. -/
def recordState (w : Word) : State := holding 0x100 [w]
theorem witness_EnginePosts : demo.cur.held = none ∧ (recordState 0x10).isLocal 0 ((recordState 0x10).cur.rd 4) = true ∧
    OwnAt (recordState 0x10) (adr ((recordState 0x10).cur.rd 4)) 64 64 ∧ Sound (recordState 0x10) (poolBase 0 + 0x100) 64 ∧
    (let r := wordsOf 8 ((recordState 0x10).read (poolBase 0 + 0x100) 64)
     (recFieldsOk true r && notifyZeros r) = true ∧ ((recordState 0x10).notifyDest 0 r).isOk = true) ∧ (recordState 0x10).me.outTags 0 = [] ∧
    ((recordState 0x10).me.engine true).hasRoom true = true ∧
    (let r := wordsOf 8 ((recordState 0xF010).read (poolBase 0 + 0x100) 64); (recFieldsOk true r && notifyZeros r) = false) := by
  unfold OwnAt Sound; decide +kernel
/-- The state with numbers posted and completed. -/
def posted (last done : Nat) : State := demo.modTile 0 fun x => { x with matrix := { x.matrix with last := last, done := done } }
theorem witness_engine_numbers : ((posted 9 7).cur.rd 6).toNat ≤ ((posted 9 7).me.engine true).last ∧
    ((posted 9 7).cur.rd 6).toNat ≤ ((posted 9 7).me.engine true).done ∧ ((posted 9 6).me.engine true).done < ((posted 9 6).cur.rd 6).toNat ∧
    ((posted 6 6).me.engine true).last < ((posted 6 6).cur.rd 6).toNat ∧ (posted 9 7).cur.rd 6 ≠ 0 := by decide +kernel

/-- The state with transaction slot 1 in a state, held-lock records, and TXH naming it. -/
def inTx (st : TxState) (held : List HeldLock) : State :=
  (demo.modTile 0 fun x => { x with locks := { x.locks with txs := [(1, ⟨0, true, 50, st, 0⟩)], held := held } }).setCtx 0 0
    { demoCtx with txh := demo.handleOf 0 1 0 }
def isTx (r : TxRef) : Option (Nat × Tx) := match r with | .tx a x => some (a, x) | _ => none
theorem isTx_eq {r : TxRef} {a : Nat} {x : Tx} (h : isTx r = some (a, x)) : r = .tx a x := by
  cases r <;> simp_all [isTx]
def noTx (r : TxRef) : Bool := match r with | .none => true | _ => false
theorem noTx_eq {r : TxRef} (h : noTx r = true) : r = .none := by cases r <;> simp_all [noTx]
theorem witness_Transactions : demo.me.locks.freeSlot = some 1 ∧ demo.myTx = .none ∧
    (inTx .active []).myTx = .tx 1 ⟨0, true, 50, .active, 0⟩ ∧ (inTx .active []).me.locks.requests ((inTx .active []).handleOf 0 1 0) = [] ∧
    (inTx .active []).txHomes 0 1 = [] ∧ (inTx .active [⟨1, 0, 3, 0⟩]).txHomes 0 1 ≠ [] ∧
    (inTx .active [⟨1, 0, 3, 0⟩]).me.roomFor 0 1 = true :=
  ⟨by decide +kernel, noTx_eq (by decide +kernel), isTx_eq (by decide +kernel), by decide +kernel, by decide +kernel, by decide +kernel,
    by decide +kernel⟩
theorem witness_transaction_states : (inTx .wounded []).myTx = .tx 1 ⟨0, true, 50, .wounded, 0⟩ ∧
    (inTx .committing []).myTx = .tx 1 ⟨0, true, 50, .committing, 0⟩ ∧
    (demo.modTile 0 fun x => { x with locks := { x.locks with txs := (List.range 255).map fun i => (i + 1, ⟨0, true, 1, .active, 0⟩) } }).me.locks.freeSlot
      = none ∧ (match (demoWith fun c => { c with txh := 0x101 }).myTx with | .foreign => true | _ => false) = true :=
  ⟨isTx_eq (by decide +kernel), isTx_eq (by decide +kernel), by decide +kernel, by decide +kernel⟩
theorem witness_Locks : (demo.cur.rd 6).toNat ≤ 255 ∧ demo.classOk demo.tile 7 = true ∧ lockOperandsOk 0 5 = true ∧ lockOperandsOk 0 0 = false ∧
    lockOperandsOk 0 7 = true ∧ lockOperandsOk 0 8 = false ∧ lockNameOk (3 * 2 ^ 62) = false ∧
    (inTx .active []).me.locks.record 1 0 = none ∧ (inTx .active []).me.locks.undoing 0 = false ∧ (inTx .active []).me.locks.hierOk 1 0 7 = true ∧
    (inTx .active []).me.locks.hierOk 1 (2 ^ 62) 7 = false ∧ (inTx .active []).me.locks.held.length < Config.heldRecords ∧
    (inTx .active []).me.roomFor 0 1 = true ∧ (inTx .active [⟨1, 0, 1, 0⟩]).me.locks.record 1 0 = some ⟨1, 0, 1, 0⟩ := by decide +kernel
theorem witness_lock_conversion : (let mx := (demo.getDie 0).newel.matrix demo.me.regs.asid; covers mx 1 7 = false ∧ covers mx 7 1 = true) ∧
    (inTx .active [⟨1, 0, 1, 0⟩]).me.locks.hasChild 1 0 = false := by decide +kernel
def isOkPiece (r : Except Trap Piece) (p : Piece) : Bool := match r with | .ok q => q == p | .error _ => false
theorem isOk_eq {r : Except Trap Piece} {p : Piece} (h : isOkPiece r p = true) : r = .ok p := by
  cases r <;> simp_all [isOkPiece]
theorem witness_MatrixLeasesAndQueries : matrixOk 0 = false ∧ matrixOk 0xFF = false ∧ matrixOk (BitVec.allOnes 64) = true ∧ demo.lockBusy = false ∧
    (inTx .active [⟨1, 0, 3, 0⟩]).lockBusy = true ∧ demo.me.roomFor demo.ctx 4 = true ∧
    demo.resolve1 0 (adr (demo.cur.rd 4)) 1 1 needRead = .ok ⟨0, 0, poolBase 0 + 0x100, 1, adr (demo.cur.rd 4), none⟩ ∧
    demo.leaseName ⟨0, 0, poolBase 0 + 0x100, 1, adr (demo.cur.rd 4), none⟩ = none ∧ demo.leaseName ⟨5, 0xF80, 0x400000, 1, 0, none⟩ = some (5 * 2 ^ 19 + 2) ∧
    demo.queryTx 0 = none ∧ lockNameOk 0 = true :=
  ⟨by decide +kernel, by decide +kernel, by decide +kernel, by decide +kernel, by decide +kernel, by decide +kernel, isOk_eq (by decide +kernel),
    by decide +kernel, by decide +kernel, by decide +kernel, by decide +kernel⟩
/-- The same with a job that may take snapshots. -/
def snapJob : Job := { demoJob with snapCap := true }
def snapState : State := { demo with vest := { demo.vest with parts := [(1, { demoPart with job := some snapJob })] } }
theorem witness_SnapshotAndTimeInstructions : demo.jobOf demo.tile = some demoJob ∧ snapState.jobOf snapState.tile = some snapJob ∧
    snapState.snapping 1 = false ∧ snapState.migrating 1 = false ∧ snapState.group 1 = some demoGroup ∧ snapState.tile < Config.tiles ∧
    (demo.cur.rd 6).toNat < 2 ^ 32 ∧ 2 ^ 32 ≤ (demo.cur.rd 4).toNat ∧ demo.cur.ftag ≠ 0 ∧ (demoWith fun c => { c with ftag := 0 }).cur.ftag = 0 := by
  decide +kernel
/-- A system handler with injection enabled. -/
def sysState : State := (demoWith fun c => { c with sys := true }).modTile 0 fun x => { x with regs := { x.regs with errEn := true } }
theorem witness_SystemInstructions : demo.cur.sys = false ∧ sysState.cur.sys = true ∧ sysState.me.regs.errEn = true ∧
    (sysState.cur.rd 6).toNat < 2 ^ 17 ∧ 2 ^ 17 ≤ (sysState.cur.rd 5).toNat ∧ sysState.isLocal 0 (sysState.cur.rd 4) = true ∧
    OwnAt sysState (adr (sysState.cur.rd 4)) 16 16 ∧ 2 < (sysState.cur.rd 6).toNat ∧ sysState.tile < Config.tiles := by
  unfold OwnAt; decide +kernel

theorem witness_HandlerTraps : demo.cur.run = .ready ∧ demo.cur.late = [] ∧ demo.cur.sys = false ∧ demo.cur.cls ≠ 0xFE ∧
    demo.me.entry demo.cur.key = some demoEntry ∧ demo.jobOf demo.tile = some demoJob ∧ demo.me.reports = [] ∧
    demo.me.outq.length < Config.outboundRoom ∧ demo.me.land.spill = [] ∧ trapIllOperand.code ≠ 0x05 := by decide +kernel

theorem witness_StepKeepsMemoryCanonical : Memory.wf demo.mem = true ∧ Memory.wf State.reset.mem = true := by decide +kernel
theorem witness_DecodeOfEncode : Instr.wellFormed (.send 0x21 9 2 8) = true ∧ encode (.send 0x21 9 2 8) ≠ [] ∧ encode .cDone ≠ [] := by decide +kernel
/-- The step after reset with a word placed: context 0 of tile 0 issues, and the word at its PC decodes. -/
theorem witness_OneStep : (State.reset.withFetchWord 32 0x0005C034).power = true ∧ (State.reset.withFetchWord 32 0x0005C034).agenda = [] ∧
    (State.reset.withFetchWord 32 0x0005C034).nextIssue = some (0, 0) ∧ ((State.reset.withFetchWord 32 0x0005C034).getCtx 0 0).late = [] ∧
    (decode ((State.reset.withFetchWord 32 0x0005C034).read benchCode 4)).toOption = some (.add 3 4 5, 4) := by decide +kernel
def fetchOk (r : Except Trap Piece) (k : Nat) : Bool := match r with | .ok q => q.pkg == 0 && q.key == k | .error _ => false
theorem fetchOk_eq {r : Except Trap Piece} {k : Nat} (h : fetchOk r k = true) : ∃ q, r = .ok q ∧ q.pkg = 0 ∧ q.key = k := by
  cases r <;> simp_all [fetchOk]
def bench : State := State.reset.withFetchWord 32 0x0005C034
theorem witness_OneStep_fetch : (∃ q, (bench.turn 0 0).fetchPiece 0 0 = .ok q ∧ q.pkg = 0 ∧ q.key = benchCode) ∧
    (∃ q, (bench.turn 0 0).fetchPiece 0 2 = .ok q ∧ q.pkg = 0 ∧ q.key = benchCode + 2) ∧ bench.pkg = 0 ∧
    (bench.turn 0 0).readConflicts 0 ((bench.turn 0 0).fetchKeys 0 0) = [] :=
  ⟨fetchOk_eq (by decide +kernel), fetchOk_eq (by decide +kernel), by decide +kernel, by decide +kernel⟩
/-- No context can issue and an event is due, and the end of a core cycle. -/
theorem witness_OneStep_event : State.reset.nextIssue = none ∧ State.reset.nextEvent.map (·.2) = some .routerCycle ∧
    ({ State.reset with evPos := 100 * kindRoom } : State).nextIssue = none ∧ ({ State.reset with evPos := 100 * kindRoom } : State).nextEvent = none ∧
    0 < ({ State.reset with evPos := 100 * kindRoom } : State).evPos := by decide +kernel
/-- Another die holds X on the region of the code. -/
def leased : State :=
  { bench with dies := bench.dies.map fun x =>
      { x with newel := { x.newel with home := [⟨benchCode / 0x200000, 0, 3, 7, false, [], 1⟩] } } }
theorem witness_OneStep_lease : leased.nextIssue = some (0, 0) ∧
    (leased.turn 0 0).readConflicts 0 ((leased.turn 0 0).fetchKeys 0 0) ≠ [] := by decide +kernel
theorem witness_OneStep_power : ({ State.reset with power := false } : State).agenda = [] ∧ State.reset.power = true := by decide +kernel

/-! ### Events: states that meet the hypotheses -/

/-- A flit of a kind from tile 1 for a node, and the state with it at that node's router. -/
def flitFor (n : Nat) (kind : BitVec 4) (body : Body) : Flit :=
  { hdr := { demoHdr with kind := kind, dtile := BitVec.ofNat 12 n }, age := 2, body := body }
def withFlit (s : State) (n : Nat) (f : Flit) : State :=
  let r := (s.fabric.nodeRouter n).getD 0
  { s with fabric := { s.fabric with vn0 := [{ x := routerX r, y := routerY r, flit := f }] } }
/-- The test of `Arrives` on a state. -/
def arrives (s : State) (n : Nat) (p : Flit → Bool) (f g : Flit) : Bool :=
  (match s.oldestAt n p with | some x => x.2.flit == f | none => false) && restoreFlit f == g && f.age != 4095 && !s.heldBySeal n g &&
    (match s.flitPart n g with | some e => !e.2.sealed_ | none => true) && (match s.flitGroup n g with | some e => !s.snapping e && g.hdr.spkg.toNat == s.pkg | none => true)
theorem arrives_of {s : State} {n : Nat} {p : Flit → Bool} {f g : Flit} (h : arrives s n p f g = true) : Arrives s n p f g := by
  unfold arrives at h
  simp only [Bool.and_eq_true, beq_iff_eq, bne_iff_ne, Bool.not_eq_true'] at h
  obtain ⟨⟨⟨⟨⟨h1, h2⟩, h3⟩, h4⟩, h5⟩, h6⟩ := h
  refine ⟨?_, h2, h3, h4, ?_, ?_⟩
  · split at h1
    · next x hx => exact ⟨x.1, x.2, hx, by simpa using h1⟩
    · simp at h1
  · intro e he; rw [he] at h5; simpa using h5
  · intro e he; rw [he] at h6; simp only [Bool.and_eq_true, Bool.not_eq_true', beq_iff_eq] at h6; exact ⟨h6.1, .inl h6.2⟩
/-- A request for tile 0's scratchpad at 0x100, and to its counters. -/
def ask (kind : BitVec 4) (op : MemOp) : Flit := flitFor 0 kind (.request 4 op)
def readOp : MemOp := .read [⟨poolBase 0 + 0x100, 8, 0⟩]
theorem witness_RequestsAtTheirHome : Serves demo 0 (ask 1 readOp) ∧ InPool demo 0 (poolBase 0 + 0x100) 8 ∧
    Arrives (withFlit demo 0 (ask 1 readOp)) 0 (requestOf 1 false) (ask 1 readOp) (ask 1 readOp) := by
  refine ⟨?_, ?_, arrives_of (by decide +kernel)⟩
  · unfold Serves AtUnit; decide +kernel
  · unfold InPool Sound; decide +kernel
theorem witness_put_amo_ring : Arrives (withFlit demo 0 (ask 2 (.write [(poolBase 0 + 0x100, [1])] true none))) 0 (requestOf 2 false)
      (ask 2 (.write [(poolBase 0 + 0x100, [1])] true none)) (ask 2 (.write [(poolBase 0 + 0x100, [1])] true none)) ∧
    Arrives (withFlit demo 0 (ask 3 (.amo .add .d (poolBase 0 + 0x100) 1 0))) 0 (requestOf 3 false)
      (ask 3 (.amo .add .d (poolBase 0 + 0x100) 1 0)) (ask 3 (.amo .add .d (poolBase 0 + 0x100) 1 0)) ∧
    Arrives (withFlit ringState 0 (ask 3 (.ring .rhead (poolBase 0 + 0x100) 0 0))) 0 (requestOf 3 true)
      (ask 3 (.ring .rhead (poolBase 0 + 0x100) 0 0)) (ask 3 (.ring .rhead (poolBase 0 + 0x100) 0 0)) :=
  ⟨arrives_of (by decide +kernel), arrives_of (by decide +kernel), arrives_of (by decide +kernel)⟩
/-- A forwarded request keeps its kind in OKIND. -/
def forwarded : Flit := { ask 11 readOp with hdr := { (ask 11 readOp).hdr with origKind := 1 } }
theorem witness_increment_forwarded_trig : Arrives (withFlit demo 0 (flitFor 0 4 (.incr 7 1))) 0 isIncrement (flitFor 0 4 (.incr 7 1))
      (flitFor 0 4 (.incr 7 1)) ∧ demo.me.cnt.held = [] ∧ demo.me.cnt.actions.length < Config.actionRoom ∧
    Arrives (withFlit demo 0 forwarded) 0 (fun x => x.hdr.kind == 11) forwarded (restoreFlit forwarded) ∧
    Arrives (withFlit demo Config.vestibuleNode (flitFor Config.vestibuleNode 4 .trig)) Config.vestibuleNode isTrig
      (flitFor Config.vestibuleNode 4 .trig) (flitFor Config.vestibuleNode 4 .trig) ∧
    demo.sourcePart (flitFor Config.vestibuleNode 4 .trig) = some (1, demoPart) ∧ demo.part 1 = some demoPart :=
  ⟨arrives_of (by decide +kernel), by decide +kernel, by decide +kernel, arrives_of (by decide +kernel), arrives_of (by decide +kernel),
    by decide +kernel, by decide +kernel⟩
/-- A read of HBM at the first memory node. -/
def hbmRead : Flit := flitFor (Config.memoryNode 0) 1 (.request 4 (.read [⟨0x50000000, 64, 0⟩]))
theorem witness_memory_node : Arrives (withFlit demo (Config.memoryNode 0) hbmRead) (Config.memoryNode 0) (requestOf 1 false) hbmRead hbmRead ∧
    poolTile 0x50000000 = none ∧ demo.groupOfPage 0x50000000 = none ∧
    (demo.getDie 0).newel.conflicts hbmRead.hdr.spkg.toNat (dieOfTile hbmRead.hdr.stile.toNat) [0x50000000] false = [] :=
  ⟨arrives_of (by decide +kernel), by decide, by decide +kernel, by decide +kernel⟩

/-- Context 0 waits for a load's reply, and for a status reply, to its request 4. -/
def waitsLoad : State := demoWith fun c => { c with run := .wait (.replies [4] [] none (.load 1 8 false) (BitVec.ofNat 56 (at1 1 0x200)) 4) }
def waitsDone : State := demoWith fun c => { c with run := .wait (.replies [4] [] none .none (BitVec.ofNat 56 (at1 1 0x200)) 4) }
def outOne : Outst := { tag := 4, ctx := 0, gen := 0, grs := [], pages := [], spots := [], get := none, reads := true, pc := 0x40, msgid := 0, ftag := 3, lock := false }
def waitsOn (s : State) : State := s.modTile 0 fun x => { x with mu := { x.mu with out := [outOne] } }
def dataFlit : Flit := flitFor 0 8 (.reply 4 (.data [(0, leBytes 8 77)]))
def doneFlit : Flit := flitFor 0 9 (.reply 4 .done)
theorem witness_ArrivalsAtATile : Arrives (withFlit (waitsOn waitsLoad) 0 dataFlit) 0 (fun x => x.hdr.kind == 8) dataFlit dataFlit ∧
    (waitsOn waitsLoad).me.waiterOf 4 = some 0 ∧ (waitsOn waitsLoad).me.cmdOf 4 = none ∧
    (∀ o ∈ (waitsOn waitsLoad).me.mu.out, o.tag = 4 → o.get = none) ∧ (waitsOn waitsLoad).me.frozen = false ∧
    Arrives (withFlit (waitsOn waitsDone) 0 doneFlit) 0 (fun x => x.hdr.kind == 9) doneFlit doneFlit :=
  ⟨arrives_of (by decide +kernel), by decide +kernel, by decide +kernel, by decide +kernel, by decide +kernel, arrives_of (by decide +kernel)⟩
def wordsFlit : Flit := flitFor 0 0 (.words [1, 2, 3, 4, 5, 6, 7, 8])
theorem witness_message_arrival : Arrives (withFlit demo 0 wordsFlit) 0 (fun x => x.hdr.kind == 0 || x.hdr.kind == 6) wordsFlit wordsFlit ∧
    wordsFlit.fidx.toNat ≤ wordsFlit.hdr.nflit.toNat ∧ (∀ e ∈ demo.me.land.slots, e.wants wordsFlit = false) ∧
    (demo.me.land.slots.filter fun e => e.prio == wordsFlit.hdr.prio.toNat).length < demo.me.regs.depth wordsFlit.hdr.prio.toNat :=
  ⟨arrives_of (by decide +kernel), by decide, by decide +kernel, by decide +kernel⟩
/-- An acquire of name 0 by the transaction of slot 1 waits for its answer. -/
def pendOne : LockPend :=
  { tag := 4, slot := 1, ts := 50, handle := demo.handleOf 0 1 0, name := 0, mode := 3, form := .acquire, undo := false, home := demo.lockHome 0 0 }
def locking : State := (((inTx .active [⟨1, 0, 0, 3⟩]).modTile 0 fun x => { x with locks := { x.locks with pend := [pendOne] } }).setCtx 0 0
  { demoCtx with txh := demo.handleOf 0 1 0, run := .wait (.locks .acquire [4] 1 0) })
def grantFlit : Flit := flitFor 0 10 (.lockReply (.answer 4 0 (demo.handleOf 0 1 0) 0 3))
theorem witness_lock_grant : Arrives (withFlit locking 0 grantFlit) 0 (lockReplyOf isAnswer) grantFlit grantFlit ∧
    locking.txAt 0 (demo.handleOf 0 1 0) = .tx 1 ⟨0, true, 50, .active, 0⟩ ∧ locking.me.lockWaiter 4 = some 0 :=
  ⟨arrives_of (by decide +kernel), isTx_eq (by decide +kernel), by decide +kernel⟩
def woundFlit : Flit := flitFor 0 10 (.lockReply (.wound 0 60 (demo.handleOf 0 1 0)))
theorem witness_wound : Arrives (withFlit (inTx .active []) 0 woundFlit) 0 (lockReplyOf isWound) woundFlit woundFlit ∧
    (inTx .active []).txAt 0 (demo.handleOf 0 1 0) = .tx 1 ⟨0, true, 50, .active, 0⟩ ∧ demoJob.grace ≠ 0 :=
  ⟨arrives_of (by decide +kernel), isTx_eq (by decide +kernel), by decide⟩
/-- The running snapshot of group 1, and a marker of its new colour. -/
def running : Snapshot :=
  { sid := 1, state := .running, parent := 0, colour := 1, time := 0, tiles := [], newels := [], jobs := [], queues := [], outs := [], logs := [],
    figures := [], closed := false, pages := [], granules := [], target := 0, manifest := [], full := [], asked := none, start := none }
def snapping : State := { demo with vest := { demo.vest with groups := [{ demoGroup with lastId := 1, colour := 1, snaps := [running] }] } }
def markerFlit : Flit := { flitFor 0 7 (.words [1, 0, 0, 0, 0, 0, 0, 0]) with hdr := { (flitFor 0 7 .trig).hdr with colour := 1 } }
theorem witness_marker : ((withFlit snapping 0 markerFlit).oldestAt 0 (fun x => x.hdr.kind == 7)).map (·.2.flit) = some markerFlit ∧
    snapping.groupOfTile 0 = some 1 ∧ (snapping.group 1).bind (·.running) = some running ∧ snapping.me.snap.cut = false ∧
    snapping.sealedTile 0 = false := by decide +kernel

/-- A lock request of tile 1's for name 0 at the first Newel instance. -/
def lockAsk (op : LockOp) : LockReq := { tag := 4, asid := 1, name := 0, ts := 50, handle := 0x101, op := op }
def lockFlit (op : LockOp) : Flit := flitFor (Config.newelNode 0) 5 (.lock (lockAsk op))
/-- The state with name 0 held or waited for at the first instance. -/
def locked (hs : List Holder) (q : List LockWaiter) : State :=
  { demo with dies := demo.dies.set 0 { (demo.getDie 0) with newel := { (demo.getDie 0).newel with locks := [⟨1, 0, hs, q⟩] } } }
def lockArrives (s : State) (p : LockOp → Bool) (op : LockOp) : Bool :=
  arrives (withFlit s (Config.newelNode 0) (lockFlit op)) (Config.newelNode 0) (lockOf p) (lockFlit op) (lockFlit op)
theorem witness_LocksAndLeasesAtHome : lockArrives demo opAcquires (.acquire false 3) = true ∧ lockArrives demo opAcquires (.matrix (BitVec.allOnes 64)) = true ∧
    (let w := (demo.getDie 0).newel
     w.exhausted (w.lock 1 0) = false ∧ (w.lock 1 0).queue = [] ∧ (w.lock 1 0).fits (w.matrix 1) 0x101 3 = true) ∧
    (let w := ((locked [⟨40, 0x102, 7, false⟩] []).getDie 0).newel
     (w.lock 1 0).fits (w.matrix 1) 0x101 3 = false) ∧
    lockArrives (locked [⟨50, 0x101, 3, false⟩] []) opConverts (.convert 7) = true ∧
    lockArrives (locked [⟨50, 0x101, 3, false⟩] []) (fun o => o == .release || o == .endTx) .release = true ∧
    lockArrives (locked [] [⟨50, 0x101, 3, false, 4, demoHdr, 0, 0⟩]) (fun o => o == .cancel) .cancel = true ∧
    lockArrives demo opLeases (.lease 7) = true ∧ lockArrives demo (fun o => o == .leaser) .leaser = true ∧
    (demo.getDie 0).newel.leaseConflicts 0 0 0 7 = [] := by decide +kernel
def recallFlit : Flit := flitFor (Config.newelNode 0) 10 (.lockReply (.recall 3 4))
theorem witness_recall : Arrives (withFlit demo (Config.newelNode 0) recallFlit) (Config.newelNode 0) (lockReplyOf isRecall) recallFlit recallFlit :=
  arrives_of (by decide +kernel)

theorem witness_TileEvents : Acts demo 0 ∧ Acts locking 0 := by unfold Acts; decide +kernel
/-- An arrival waits to be placed; a refilled record is unread; a message may be dispatched. -/
def fresh (f : Entry → Entry) : Entry := f { demoEntry with key := 9, ctx := none }
def landed (slots : List Entry) (again : List Arrival) : State := demo.modTile 0 fun x => { x with land := { x.land with slots := slots, again := again } }
theorem witness_landing_events : (landed [] [⟨fresh id, some 0⟩]).me.land.again = [⟨fresh id, some 0⟩] ∧
    ((landed [] [⟨fresh id, some 0⟩]).me.land.slots.filter fun e => e.prio == 1).length < demo.me.regs.depth 1 ∧
    (landed [fresh fun e => { e with unread := true }] []).me.land.slots.find? (·.unread) = some (fresh fun e => { e with unread := true }) ∧
    (∀ n ∈ demo.recordAt 0 1 0, ∀ b ∈ demo.bad, b.1 + b.2 ≤ n ∨ n + 288 ≤ b.1) := by decide +kernel
theorem witness_dispatch : (landed [demoEntry, fresh id] []).partOf 0 = some (1, demoPart) ∧
    HeadOf ((landed [demoEntry, fresh id] []).getTile 0) 1 (fresh id) ∧ MayRun (fresh id) demo.cycle ∧
    ((landed [demoEntry, fresh id] []).getCtx 0 1).run = .idle ∧ ((landed [demoEntry, fresh id] []).getCtx 0 0).run ≠ .idle ∧
    (((landed [demoEntry, fresh id] []).getTile 0).ctxs.toList.filter fun y => y.run != .idle && y.prio != 0).length +
      ((landed [demoEntry, fresh id] []).getTile 0).regs.ctxres.toNat < 8 := by
  unfold HeadOf MayRun; decide +kernel
theorem witness_no_other_head : ∀ r f, r < 4 → r ≠ 1 → HeadOf ((landed [demoEntry, fresh id] []).getTile 0) r f → ¬ MayRun f demo.cycle := by
  intro r f hr h1 hf
  have : ((landed [demoEntry, fresh id] []).getTile 0).land.slots.find? (fun e => e.prio == r && e.ctx.isNone) = none := by
    have h : ∀ r, r < 4 → r ≠ 1 → ((landed [demoEntry, fresh id] []).getTile 0).land.slots.find? (fun e => e.prio == r && e.ctx.isNone) = none := by
      decide +kernel
    exact h r hr h1
  unfold HeadOf at hf; rw [this] at hf; cases hf
def late : State := { demoWith (fun c => { c with hlimit := 10, born := 0 }) with cycle := 10 }
theorem witness_hlimit : (late.getCtx 0 0).hlimit ≠ 0 ∧ (late.getCtx 0 0).born + (late.getCtx 0 0).hlimit ≤ late.cycle ∧ (late.getCtx 0 0).run = .ready := by
  decide +kernel
theorem witness_waits : (demoWith fun c => { c with run := .wait (.room (.commit 4) 5) }).cur.run = .wait (.room (.commit 4) 5) ∧
    (∀ q ∈ demo.me.outq.drop Config.outboundRoom, q.msg.hdr.mseq ≠ 5) ∧
    (demoWith fun c => { c with run := .wait (.locks .txend [] 1 0) }).cur.run = .wait (.locks .txend [] 1 0) ∧
    (demoWith fun c => { c with run := .wait (.xinv [] []) }).cur.run = .wait (.xinv [] []) := by decide +kernel
/-- A held update of counter 7, and actions of each kind at the head of the queue. -/
def holdUpdate : State := demo.modTile 0 fun x => { x with cnt := { x.cnt with held := [⟨7, 1, 3, none, none⟩] } }
def acting (w : Word) : State := demo.modTile 0 fun x => { x with cnt := { x.cnt with actions := [⟨w, 7, 5, 3⟩] } }
theorem witness_CounterActions : holdUpdate.me.cnt.held = [⟨7, 1, 3, none, none⟩] ∧ holdUpdate.me.land.reserved = none ∧ Acts (acting 0x2001) 0 ∧
    (acting 0x2001).jobOf 0 = some demoJob ∧ (acting 0x2001).me.cnt.actions = [⟨0x2001, 7, 5, 3⟩] ∧
    SlotFor (acting 0x2001) 0 (demoJob.prioOf 0x20).toNat ∧ (0x2001 : Word).toNat % 16 = 1 ∧ ((acting 2).me.engine true).hasRoom true = true ∧
    ((acting 3).me.engine false).hasRoom false = true ∧
    ((acting (BitVec.ofNat 64 ((0x7FFE * 4096 + 1) * 2 ^ 37 + 0x2004))).destOf 0 (BitVec.ofNat 64 (0x7FFE * 4096 + 1))).toOption = some (0, 1) ∧
    (acting 5).me.mu.waiters = [] := by
  unfold Acts SlotFor; decide +kernel
/-- A head older than AGELIM. -/
def old : State := { (landed [fresh id] []).modTile 0 (fun x => { x with regs := { x.regs with agelim := 5 } }) with cycle := 6 }
theorem witness_ReportsAndWaits : Acts old 0 ∧ old.jobOf 0 = some demoJob ∧ ReportRoom old 0 ∧ HeadOf (old.getTile 0) 1 (fresh id) ∧
    (old.getTile 0).regs.agelim ≠ 0 ∧ (fresh id).accept + (old.getTile 0).regs.agelim.toNat + 1 ≤ old.cycle := by
  unfold Acts ReportRoom HeadOf; decide +kernel
/-- An XLATE of a held message, of a page of a declared range and of a page of none. -/
def xlate (va : Nat) : XlateReq :=
  { tile := 0, va := BitVec.ofNat 56 va, write := false, key := some 9, report := some (0, [7]), after := [], engine := none, ftag := 3 }
def rangeJob : Job := { demoJob with ranges := [⟨0x7000000000, 0x1000, false⟩] }
def rangePart : Partition := { demoPart with job := some rangeJob, quota := 0x40000 }
def xlating (va : Nat) : State :=
  let s := landed [fresh fun e => { e with hold := true }] []
  { s with vest := { s.vest with xlates := [xlate va], parts := [(1, rangePart)] } }
theorem witness_xlate : (xlating 0).vest.xlates = [xlate 0] ∧ (xlating 0).sealedTile 0 = false ∧ (xlating 0).partOf 0 = some (1, rangePart) ∧
    ((xlating 0).getTile 0).entry 9 = some (fresh fun e => { e with hold := true }) ∧ ((xlating 0).leafIn rangePart 0).isSome = true ∧
    (xlating 0x7000000000).leafIn rangePart 0x7000000000 = none ∧ rangeJob.rangeOf 0x7000000000 = some ⟨0x7000000000, 0x1000, false⟩ ∧
    (xlating 0x7000000000).ownPage 1 0x7000000000 = none ∧
    ((xlating 0x7000000000).freePageFrom ((xlating 0x7000000000).vest.pages.length + (xlating 0x7000000000).bad.length + 1)
      (Config.pagePool / 0x10000)).isSome = true ∧
    (xlating 0x7100000000).leafIn rangePart 0x7100000000 = none ∧
    (∀ r ∈ rangeJob.ranges, r.len = 0 ∨ 0x7100000000 / 0x10000 < r.va / 0x10000 ∨ (r.va + r.len - 1) / 0x10000 < 0x7100000000 / 0x10000) := by
  decide +kernel
theorem witness_wound_grace : Acts (inTx .wounded []) 0 ∧ mget ((inTx .wounded []).getTile 0).locks.txs 1 = some ⟨0, true, 50, .wounded, 0⟩ ∧
    ((inTx .wounded []).getTile 0).locks.requests ((inTx .wounded []).handleOf 0 1 0) = [] := by
  unfold Acts; decide +kernel

/-- The state with a matrix command at the front, and with a copy command; one ACC tile block belongs to the array. -/
def cmdOf (record : List Word) : Cmd :=
  { seq := 1, record := record, ftag := 3, p0 := false, bad := false, notify := false, leave := .notAsked, waited := 0, dead := false, xlate := false,
    denied := false, rows := [], fail := 0, tags := [], got := [], result := none }
def matrixState (k : Cmd) : State := demo.modTile 0 fun x => { x with regs := { x.regs with accq := 1 }, matrix := { x.matrix with cmds := [k], last := 1 } }
def copyState (k : Cmd) : State := demo.modTile 0 fun x => { x with copy := { x.copy with cmds := [k], last := 1 } }
/-- M 2, N 2, K 16, ACC 0: word 0 of an opcode. -/
def word0 (op : Nat) (k : Nat) : Word := BitVec.ofNat 64 (k * 2 ^ 48 + 2 * 2 ^ 40 + 2 * 2 ^ 32 + op)
def mmaRecord (op : Nat) : List Word :=
  [word0 op 16, BitVec.ofNat 64 (own 0x1000), 64, BitVec.ofNat 64 (own 0x2000), 64, 0, 0, 0]
def frontRuns (s : State) (op : Nat) (k : Cmd) : Bool :=
  !s.sealedTile 0 && !(s.getTile 0).frozen && (s.jobOf 0).isSome && (s.getTile 0).matrix.cmds == [k] && recOp k.record == op && !k.bad && !k.dead &&
    !k.xlate && k.result.isNone && k.leave == .notAsked && decide (matrixCost k.record ≤ 0x10000) && s.matrixCheck 0 k == .ok && s.bad == []
theorem frontRuns_of {s : State} {op : Nat} {k : Cmd} (h : frontRuns s op k = true) : FrontRuns s 0 op k := by
  unfold frontRuns at h
  simp only [Bool.and_eq_true, Bool.not_eq_true', beq_iff_eq, decide_eq_true_eq, Option.isNone_iff_eq_none] at h
  obtain ⟨⟨⟨⟨⟨⟨⟨⟨⟨⟨⟨⟨h1, h2⟩, h3⟩, h4⟩, h5⟩, h6⟩, h7⟩, h8⟩, h9⟩, h10⟩, h11⟩, h12⟩, h13⟩ := h
  exact ⟨⟨h1, h2⟩, h3, ⟨[], h4⟩, h5, h6, h7, h8, h9, .inr ⟨h10, h11⟩, h12, fun p _ b hb => by rw [h13] at hb; cases hb⟩
theorem witness_MatrixResults : FrontRuns (matrixState (cmdOf (mmaRecord 1))) 0 1 (cmdOf (mmaRecord 1)) ∧ mmaOf 0 1 (.mmaBf16 0) ∧
    FrontRuns (matrixState (cmdOf [word0 0x10 0, 0, 0, 0, 0, 0, 0, 0])) 0 0x10 (cmdOf [word0 0x10 0, 0, 0, 0, 0, 0, 0, 0]) ∧
    FrontRuns (matrixState (cmdOf [0x20, 0, 0, 0, 0, 0, 0, 0])) 0 0x20 (cmdOf [0x20, 0, 0, 0, 0, 0, 0, 0]) :=
  ⟨frontRuns_of (by decide +kernel), .inl ⟨rfl, rfl⟩, frontRuns_of (by decide +kernel), frontRuns_of (by decide +kernel)⟩
/-- ALOAD, AADD and ASTORE of f32 (FMT 2 in [27:24]). -/
def accRecord (op : Nat) : List Word := [word0 (op + 2 * 2 ^ 24) 0, BitVec.ofNat 64 (own 0x1000), 64, 0, 0, 0, 0, 0]
theorem witness_accumulator_commands : FrontRuns (matrixState (cmdOf (accRecord 0x11))) 0 0x11 (cmdOf (accRecord 0x11)) ∧
    FrontRuns (matrixState (cmdOf (accRecord 0x12))) 0 0x12 (cmdOf (accRecord 0x12)) ∧
    FrontRuns (matrixState (cmdOf [word0 0x13 0, 1, 0, 0, 0, 0, 0, 0])) 0 0x13 (cmdOf [word0 0x13 0, 1, 0, 0, 0, 0, 0, 0]) :=
  ⟨frontRuns_of (by decide +kernel), frontRuns_of (by decide +kernel), frontRuns_of (by decide +kernel)⟩
theorem witness_astore_rows : (List.range 2).all (fun i =>
    let a := adr (BitVec.ofNat 64 (own 0x1000)) + BitVec.ofNat 56 (i * 64)
    keyOf 0 a == keyOf 0 (BitVec.ofNat 56 (own 0x1000)) + i * 64) = true ∧
    OwnOf (matrixState (cmdOf (accRecord 0x12))) 0 (BitVec.ofNat 56 (own 0x1040)) 8 16 ∧ (matrixState (cmdOf (accRecord 0x12))).me.mu.waiters = [] := by
  unfold OwnOf; decide +kernel

/-- COPY2D of two rows of 32 bytes from 0x1000 to 0x2000, and a FILL of the second range with a byte. -/
def copyRecord (op : Nat) : List Word :=
  if op = 3 then [3, 0, BitVec.ofNat 64 (own 0x2000), BitVec.ofNat 64 (2 * 2 ^ 32 + 32), BitVec.ofNat 64 (64 * 2 ^ 32), 0x5A, 0, 0]
  else [BitVec.ofNat 64 op, BitVec.ofNat 64 (own 0x1000), BitVec.ofNat 64 (own 0x2000), BitVec.ofNat 64 (2 * 2 ^ 32 + 32),
    BitVec.ofNat 64 (64 * 2 ^ 32 + 64), 0, 0, 0]
def copyRuns (s : State) (op : Nat) (k : Cmd) : Bool :=
  !s.sealedTile 0 && !(s.getTile 0).frozen && (s.jobOf 0).isSome && (s.getTile 0).copy.cmds.find? (·.seq == 1) == some k && recOp k.record == op &&
    !k.bad && !k.dead && !k.xlate && k.result.isNone && k.tags == [] && k.leave == .notAsked && decide (copyCost k.record ≤ 0x10000)
theorem copyRuns_of {s : State} {op : Nat} {k : Cmd} (h : copyRuns s op k = true) : CopyRuns s 0 1 op k := by
  unfold copyRuns at h
  simp only [Bool.and_eq_true, Bool.not_eq_true', beq_iff_eq, decide_eq_true_eq, Option.isNone_iff_eq_none] at h
  obtain ⟨⟨⟨⟨⟨⟨⟨⟨⟨⟨⟨h1, h2⟩, h3⟩, h4⟩, h5⟩, h6⟩, h7⟩, h8⟩, h9⟩, h10⟩, h11⟩, h12⟩ := h
  exact ⟨⟨h1, h2⟩, h3, h4, h5, h6, h7, h8, h9, h10, .inr ⟨h11, h12⟩⟩
theorem witness_CopyResults : CopyRuns (copyState (cmdOf (copyRecord 2))) 0 1 2 (cmdOf (copyRecord 2)) ∧ copyOf 0 1 2 (.copy2d 0 1) ∧
    (∀ j, j < 2 → OwnOf (copyState (cmdOf (copyRecord 2))) 0 (rowTo (copyState (cmdOf (copyRecord 2))) 0 (copyRecord 2) j) 32 16 ∧
      OwnOf (copyState (cmdOf (copyRecord 2))) 0 (rowFrom (copyState (cmdOf (copyRecord 2))) 0 (copyRecord 2) j) 32 16) ∧
    (copyState (cmdOf (copyRecord 2))).copyCheck 0 (copyRecord 2) = .ok ∧ copyKind (copyRecord 2) = .raw 2 ∧ srcRowBytes (copyRecord 2) = 32 ∧
    dstRowBytes (copyRecord 2) = 32 ∧ bits (copyRecord 2) 3 47 32 = 2 := by
  refine ⟨copyRuns_of (by decide +kernel), .inr (.inl ⟨rfl, rfl⟩), ?_, ?_⟩
  · unfold OwnOf; decide +kernel
  · decide +kernel
/-- The same command once its rows are translated and read, and a FILL. -/
def rowAt (j : Nat) : CopyRow :=
  ⟨[⟨0, 0, poolBase 0 + 0x1000 + 64 * j, 32, BitVec.ofNat 56 (own (0x1000 + 64 * j)), none⟩],
    [⟨0, 0, poolBase 0 + 0x2000 + 64 * j, 32, BitVec.ofNat 56 (own (0x2000 + 64 * j)), none⟩], []⟩
def copying : Cmd :=
  { cmdOf (copyRecord 2) with rows := [rowAt 0, rowAt 1], got := (List.range 2).map fun j => (j * 32, List.replicate 32 7) }
theorem witness_copy_rows : CopyRuns (copyState copying) 0 1 2 copying ∧ copyRnd copying.record ≤ 1 ∧
    CopyRuns (copyState (cmdOf (copyRecord 3))) 0 1 3 (cmdOf (copyRecord 3)) ∧ copyOf 0 1 3 (.fill 0 1) ∧
    keyOf 0 (rowTo (copyState copying) 0 (copyRecord 2) 0) + 32 ≤ keyOf 0 (rowTo (copyState copying) 0 (copyRecord 2) 1) :=
  ⟨copyRuns_of (by decide +kernel), by decide, copyRuns_of (by decide +kernel), .inr (.inr (.inl ⟨rfl, rfl⟩)), by decide +kernel⟩
/-- A command that has run, at the front, and one posted by a counter that failed its checks. -/
def ran : Cmd := { cmdOf [0x20, 0, 0, 0, 0, 0, 0, 0] with result := some ⟨0, 0, []⟩ }
def refused : Cmd := { cmdOf [0xFF, 0, 0, 0, 0, 0, 0, 0] with bad := true }
theorem witness_EngineCompletions : (matrixState ran).sealedTile 0 = false ∧ ((matrixState ran).jobOf 0).isSome = true ∧
    ((matrixState ran).me.engine true).cmds.head? = some ran ∧ ran.seq = ((matrixState ran).me.engine true).done + 1 ∧
    ((copyState refused).me.engine false).cmds.find? (·.seq == 1) = some refused ∧ refused.fail = 0 := by decide +kernel

/-- Two flits at router 0, both for a router to the east. -/
def passing (n : Nat) (age : BitVec 12) : Transit :=
  { x := 0, y := 0, flit := { flitFor n 0 (.words [1, 2, 3, 4, 5, 6, 7, 8]) with age := age } }
def crossing : State :=
  { State.reset with fabric := { State.reset.fabric with vn0 := [passing 1 5, passing 1 3] } }
theorem witness_RouterCycles : crossing.fabric.last ≠ crossing.cycle / 2 + 1 ∧ crossing.fabric.vn1 = [] ∧ NothingToInject crossing ∧
    flitBefore (passing 1 5).flit (passing 1 3).flit = true ∧ [0, 1, 2, 3].find? (fun d => d != 1) = some 0 := by
  refine ⟨by decide +kernel, by decide +kernel, ?_, by decide +kernel, by decide⟩
  refine ⟨fun e he => absurd (show e ∈ ([] : List (Nat × Tile)) from he) (by simp), fun d => ?_, by decide +kernel, by decide +kernel, fun p => ?_, by decide +kernel, by decide +kernel⟩
  · have h : ∀ d, d < 4 → (crossing.getDie d).newel.out = [] ∧ (crossing.getDie d).memory.out = [] ∧
        (crossing.getDie d).memory.outFl = [] := by decide +kernel
    have e : crossing.getDie d = crossing.getDie (d % 4) := by simp [State.getDie]
    rw [e]; exact h _ (Nat.mod_lt _ (by decide))
  · have h : ∀ d, d < 7 → (crossing.getPort d).rx = [] ∧ (crossing.getPort d).tx = [] := by decide +kernel
    have e : crossing.getPort p = crossing.getPort (p % 7) := by simp [State.getPort]
    rw [e]; exact h _ (Nat.mod_lt _ (by decide))
theorem witness_passing : Passing crossing 0 (passing 1 5).flit [1] := by
  refine ⟨by decide +kernel, by decide +kernel, (crossing.fabric.nodeRouter 1).getD 0, by decide +kernel, by decide +kernel, by decide +kernel⟩
/-- A port that is up and has lost a lane. -/
def upPort : Port := { Port.reset with state := .up, lostTx := 1, txl := 31 }
theorem witness_Links : upPort.state = .up ∧ (⟨1, true, []⟩ : Frame).seq = upPort.expect ∧ Port.reset.state = .down ∧
    0 < upPort.lostTx + upPort.lostRx ∧ (if 8 ≤ upPort.txl + upPort.rxl then 4 else 1) + 4 ≤ upPort.rxl ∧ 1 % 7 ≠ 0 ∧ 1 < upPort.txl := by decide
theorem witness_HostAndPlatform : (let w : Word := BitVec.ofNat 64 (2 ^ 32 + 0x7FFE * 4096 + 1)
    (w.toNat / 2 ^ 32) % 64 = 1 ∧ w.extractLsb' 27 5 = 0 ∧ w.extractLsb' 38 10 = 0 ∧ w.extractLsb' 60 4 = 0 ∧
      demo.vestDest demoPart (BitVec.ofNat 64 (w.toNat % 2 ^ 27)) = some (0, 1)) ∧ demo.part 1 = some demoPart ∧ demoPart.sealed_ = false ∧
    demo.part 2 = none ∧ demo.sealedTile 0 = false ∧ (demo.getDie 0).gov.held = [] ∧ 5000 ≤ (demo.getDie 0).gov.budget ∧
    (demo.getDie 0).gov.above = false ∧ (demo.getTile 0).regs.scrub = true ∧ 0x1000 < Config.hbmBytes ∧ 3 ∉ demoPart.pkgs ∧ 3 ≠ demo.pkg := by
  decide +kernel

/-- A migration of tile 0 in a phase. -/
def migrating (n : Nat) : State :=
  { demo with vest := { demo.vest with migs := [{ tile := 0, core := 300, phase := n, log := [], asked := none }] } }
theorem witness_SnapshotsAndMigrations : (∀ g ∈ (migrating 0).groupOfTile 0, (migrating 0).snapping g = false) ∧ (migrating 1).me.mu.out = [] ∧
    (migrating 1).me.matrix.cmds ++ (migrating 1).me.copy.cmds = [] ∧ ((migrating 2).fabric.coreOf 0).isSome = true := by decide +kernel
/-- Tile 0 with blocks to copy, in a group with an area. -/
def areaPart : Partition := { demoPart with job := some { demoJob with area := 0x100000, snapCap := true } }
def copyingBlocks (q : Snapshot) : State :=
  let s := demo.modTile 0 fun x => { x with uncop := [3, 4], snap := { x.snap with cut := true, sent0 := 2 } }
  { s with vest := { s.vest with parts := [(1, areaPart)], groups := [{ demoGroup with lastId := 1, snaps := [q] }] } }
theorem witness_snapshot_events : (copyingBlocks running).me.uncop = [3, 4] ∧ (copyingBlocks running).groupOfTile 0 = some 1 ∧
    (copyingBlocks running).areaRoom 1 4096 = true ∧
    ((copyingBlocks running).group 1).bind (·.running) = some running ∧ running.start = none ∧ 0 ∈ (copyingBlocks running).groupNodes 1 ∧
    ((copyingBlocks running).nodeSnap 1 0).cut = true ∧ mget running.figures 0 ≠ some ((copyingBlocks running).nodeSnap 1 0).old ∧
    (snapping.areaRoom 1 4096 = false) ∧
    ((copyingBlocks { running with state := .complete }).group 1).bind (fun g => g.snaps.find? fun r => r.state == .complete) =
      some { running with state := .complete } := by decide +kernel
theorem witness_snapq : (demoWith fun c => { c with run := .wait (.snapq 1 0) }).snapqNext = some (0, 0, 1, 0) := by decide +kernel
/-- A complete seal with a report due, and a rollback at its first and last step. -/
def sealing : State := { demo with vest := { demo.vest with seals := [⟨1, 2, 0, [], 0⟩] } }
def rolling (n : Nat) : State :=
  { demo with vest := { demo.vest with rolls := [⟨1, 1, true, n, none⟩], groups := [{ demoGroup with snaps := [{ running with state := .drained }] }] } }
theorem witness_seals_and_rollbacks : sealing.vest.seals = [⟨1, 2, 0, [], 0⟩] ∧ sealing.part 1 = some demoPart ∧ (rolling 1).vest.seals = [] ∧
    (rolling 1).groupParts 1 = [(1, demoPart)] ∧ ((rolling 5).group 1).bind (fun g => g.snaps.find? fun x => x.sid == 1) =
      some { running with state := .drained } := by decide +kernel

/-- A packet of one unit: its bytes by offset. -/
def packet (fs : List (Nat × List Byte)) : List Byte :=
  fs.foldl (fun b f => b.take f.1 ++ f.2 ++ b.drop (f.1 + f.2.length)) (List.replicate 64 0)
def given (s : State) (b : List Byte) : State :=
  let s := s.write Config.queue0Ring b
  { s with vest := { s.vest with queues := [(0, { Queue.reset with tail := BitVec.ofNat 32 (b.length / 64) }), (2, { Queue.reset with tail := 0 })] } }
def starting (s : State) (b : List Byte) (c : VCmd) : Bool :=
  let q := { Queue.reset with tail := BitVec.ofNat 32 (b.length / 64) }
  (given s b).queue 0 == some q && (given s b).headOf 0 == .packet b && pktCmd b == c && pktOk b && !(given s b).pktBad (headPkt 0 q b) &&
    pktPerm q.owner b && (given s b).bad == []
theorem starting_of {s : State} {b : List Byte} {c : VCmd} (h : starting s b c = true) :
    Starting (given s b) 0 { Queue.reset with tail := BitVec.ofNat 32 (b.length / 64) } b c := by
  unfold starting at h
  simp only [Bool.and_eq_true, beq_iff_eq, Bool.not_eq_true'] at h
  obtain ⟨⟨⟨⟨⟨⟨h1, h2⟩, h3⟩, h4⟩, h5⟩, h6⟩, h7⟩ := h
  exact ⟨h1, h2, h3, h4, h5, h6, rfl, rfl, fun x hx => by rw [h7] at hx; cases hx⟩
theorem witness_QueueCommands : starting demo (packet [(0, [0x0B]), (8, [2]), (16, leBytes 8 0x60000000)]) .createq = true ∧
    starting demo (packet [(0, [0x0A]), (8, [2])]) .destroyq = true ∧ starting demo (packet [(0, [3, 0, 1])]) .launch = true ∧
    starting demo (packet [(0, [4, 0, 1]), (8, [7])]) .waittag = true ∧
    starting demo (packet [(0, [5, 0, 1]), (8, leBytes 8 (0x7FFE * 4096 + 1)), (16, [0x20, 1])]) .signal = true ∧
    starting demo (packet [(0, [0x0D, 0, 1]), (8, [1, 0, 0xFE, 0x7F])]) .injecterr = true ∧
    starting demo (packet [(0, [0x0C]), (8, leBytes 8 0x60000000)]) .attest = true := by decide +kernel
theorem witness_launch : demo.part 1 = some demoPart ∧ demoPart.job = some demoJob ∧ demoJob.tags.length < Config.activeTags ∧
    demo.msgFault demoPart demoJob demoJob.msgs = none ∧ demo.vestDest demoPart (BitVec.ofNat 64 (0x7FFE * 4096 + 1)) = some (0, 1) ∧
    demoJob.vestClassOk 0x20 = true ∧ demoJob.service = some 0x20 := by decide +kernel
/-- A doorbell's token and a tail shadow that are newer, and a packet longer than its queue. -/
def token : State := { demo with vest := { demo.vest with tokens := [(0, BitVec.ofNat 64 (2 ^ 32 + 1))] } }
theorem witness_doorbell : token.vest.tokens.find? (fun t => t.1 == 0) = some (0, BitVec.ofNat 64 (2 ^ 32 + 1)) ∧ token.queue 0 = some Queue.reset ∧
    ((1 : BitVec 32) - Queue.reset.seq).toNat = 1 ∧ ((1 : BitVec 32) - Queue.reset.head).toNat ≤ Queue.reset.units := by decide +kernel
def tiny : State :=
  let s := demo.write Config.queue0Ring [0x0A, 0x0F]
  { s with vest := { s.vest with queues := [(0, { Queue.reset with units := 8, tail := 8 })] } }
theorem witness_overlong : tiny.headOf 0 = .overlong := by decide +kernel
/-- A packet at work on queue 0. -/
def working (b : List Byte) (mark : Nat) : State :=
  { demo with vest := { demo.vest with queues := [(0, { Queue.reset with
    tail := 1, start := 1, pend := [{ idx := 0, owner := 0, addr := Config.queue0Ring, units := 1, bytes := b, done := false, mark := mark }] })] } }
theorem witness_working : (working (packet [(0, [4, 0, 1]), (8, [7])]) 5).serialLive 5 = false ∧
    ((working (packet [(0, [4, 0, 1]), (8, [7])]) 5).queue 0).map (fun q => q.pend.map fun k => (pktCmd k.bytes, k.done)) = some [(.waittag, false)] ∧
    (working (packet [(0, [0x0D, 0, 1]), (8, [1, 0, 0xFE, 0x7F])]) 5).injectEnd
      { n := 0, idx := 0, owner := 0, bytes := packet [(0, [0x0D, 0, 1]), (8, [1, 0, 0xFE, 0x7F])] }
      { idx := 0, owner := 0, addr := Config.queue0Ring, units := 1, bytes := packet [(0, [0x0D, 0, 1]), (8, [1, 0, 0xFE, 0x7F])], done := false, mark := 5 } = some (0, 0) := by decide +kernel
/-- A packet's completion: its unit and HEAD's place lie apart in HBM, aligned. -/
theorem witness_completion : (let q := Queue.reset
    let a := q.base + 56
    a + 8 ≤ Config.hbmBytes ∧ q.ctl + 32 ≤ Config.hbmBytes ∧ (a + 8 ≤ q.ctl + 16 ∨ q.ctl + 32 ≤ a) ∧ a % 8 = 0 ∧ q.ctl % 64 = 0) := by decide
/-- One tag, balanced and idle, before and after its first sweep. -/
def tagged (w : Option (Nat × Nat)) : Partition := { demoPart with job := some { demoJob with tags := [⟨9, 1, 0, 0, 0, 0, w⟩] } }
theorem witness_sweep : (∀ i ∈ (tagged none).tiles, (({ demo with vest := { demo.vest with parts := [(1, tagged none)] } } : State).getTile i).busyFor 9
    = false) := by decide +kernel
/-- PARTITION create of partition 2 with tile 5: five units. -/
def createBytes : List Byte :=
  let b := List.replicate 320 (0 : Byte)
  let put := fun (b : List Byte) (o : Nat) (bs : List Byte) => b.take o ++ bs ++ b.drop (o + bs.length)
  put (put (put (put b 0 [9, 4, 2, 0]) 8 [7, 0]) 16 (leBytes 8 0x400000)) 128 [0x20]
theorem witness_JobCommands : starting demo createBytes .partCreate = true ∧ demo.part 2 = none ∧
    (∀ e ∈ demo.vest.parts, e.2.asid ≠ 7) ∧ ((List.range Config.tiles).filter fun t => natAt createBytes (128 + t / 8) 1 / 2 ^ (t % 8) % 2 == 1) = [5] ∧
    (demo.fabric.absent 5 = false ∧ demo.partOf 5 = none) ∧ (given demo createBytes).cannotGrant 0x400000 [0, 0, 0, 0] = false ∧
    (((given demo createBytes).push 0 createBytes).newPage 2 none).isSome = true := by decide +kernel
/-- An image with the four architectural classes, and its tile and package lists; partition 1 without a job, with room for it. -/
def image : List Byte :=
  let put := fun (b : List Byte) (o : Nat) (bs : List Byte) => b.take o ++ bs ++ b.drop (o + bs.length)
  let b := List.replicate 0x8AC (0 : Byte)
  let b := put b 0 ([0x4F, 0x4D, 0x49, 0x4F, 1, 0, 1, 0])
  let b := put b 0x28 [1]
  let b := put b 0x50 (leBytes 4 0x10000)
  let b := put b 0x58 (leBytes 8 (1 + 2 ^ 12 + 2 ^ 24 + 2 ^ 36))
  let b := put (put (put (put b 0x860 [1]) 0x868 [1]) 0x870 [1]) 0x878 [1]
  let b := put b 0x880 ([8, 0, 0xFF, 0xFF] ++ List.replicate 20 0 ++ leBytes 4 0x8A0 ++ leBytes 4 10)
  put b 0x8A0 [2, 0, 0, 0, 1, 0, 1, 0, 0, 0]
def emptyPart : Partition := { demoPart with job := none, quota := 0x100000, landing := 63, gallery := 0x10000 }
def loading : State := { demo with vest := { demo.vest with parts := [(1, emptyPart)] } }
def loadPacket : List Byte := packet [(0, [1, 0, 1]), (8, leBytes 8 0x60000000), (16, leBytes 8 image.length)]
theorem witness_loadjob : starting loading loadPacket .loadjob = true ∧ loading.part 1 = some emptyPart ∧ loading.imgFault image emptyPart [0] = none ∧
    imgSnap image = false ∧ imgWindows image = [] := by decide +kernel
theorem witness_load_room : (loading.reserveArea 1 0).isSome = true ∧ (loading.newRun 1 2).isSome = true := by decide +kernel
theorem witness_part_ends : starting loading (packet [(0, [9, 0, 1, 0, 1])]) .partDestroy = true ∧ emptyPart.job = none ∧
    starting demo (packet [(0, [2, 0, 1])]) .unloadjob = true ∧ demoPart.leaving = false := by decide +kernel
/-- A group whose one snapshot is drained. -/
def drainedSnap : Snapshot := { running with state := .drained }
def drainedGroup : Group := { demoGroup with lastId := 1, snaps := [drainedSnap] }
def kept : State := { demo with vest := { demo.vest with groups := [drainedGroup], parts := [(1, areaPart)] } }
theorem witness_group_commands : starting kept (packet [(0, [2, 0, 1, 0, 1])]) .unloadKeep = true ∧
    drainedGroup.latestDrained = some drainedSnap ∧ kept.groupParts 1 = [(1, areaPart)] := by decide +kernel
theorem witness_snapshot_command : starting kept (packet [(0, [6, 0, 1])]) .snapshot = true ∧ 0 < kept.areaSize 1 ∧
    drainedGroup.running = none ∧ kept.migrating 1 = false := by decide +kernel
theorem witness_rollback_commands : starting kept (packet [(0, [7, 0, 1]), (8, [1]), (12, [1])]) .rollRemote = true ∧
    starting kept (packet [(0, [7, 0, 1]), (8, [1])]) .rollLocal = true ∧ drainedGroup.snap 1 = some drainedSnap ∧
    kept.localOk 1 drainedGroup drainedSnap = true ∧ drainedGroup.stateOf 1 ≠ 1 ∧ kept.quiet 1 { areaPart with leaving := true } = true := by decide +kernel
theorem witness_migratetile : starting demo (packet [(0, [8]), (10, [0xFE, 0x7F]), (12, [0xFF, 0xFF])]) .migrate = true ∧
    demo.pkgOf 0x7FFE = demo.pkg ∧ (demo.jobOf 0).isSome = true ∧ ((demo.freeSpares 0).head?).isSome = true := by decide +kernel
/-- A park record of one job, and the packets that restore and discard it. -/
def parkOne : Park := { id := 3, group := drainedGroup, snap := drainedSnap, jobs := [demoJob], shapes := [[(0, [0, 1])]] }
def parked : State := { loading with vest := { loading.vest with parks := [parkOne] } }
theorem witness_parks : starting parked (packet [(0, [7]), (13, [1]), (12, [2]), (14, [3])]) .rollDiscard = true ∧
    parked.vest.parks.find? (fun z => z.id == 3) = some parkOne ∧
    parkBadPkt (packet [(0, [7]), (13, [1]), (12, [2]), (14, [3])]) 1 = false := by decide +kernel

/-! ### Further clauses: handlers and accesses -/

theorem witness_empty_buffer : demo.cur.sends = [] ∧ (demoWith fun c => { c with sends := [⟨0, 0x21, [0x7FFE001], [1, 2]⟩] }).cur.sends ≠ [] := by
  decide +kernel

theorem saves_of_copied {s : State} {t k : Nat} (h : Copied s t) : Saves s t k :=
  fun h2 => by rw [show (s.getTile t).uncop = [] from h] at h2; cases h2
/-- Nothing is outstanding and nothing is to be copied, where the statements on own accesses have their witnesses. -/
theorem witness_at_once : Free demo (poolBase 0 + 0x100) 64 ∧ Free (drained gran) (poolBase 0 + 0x100) 8 ∧ Clear demo (poolBase 0 + 0x100) 64 ∧
    NoReads demo ∧ Copied demo 0 ∧ Copied (drained gran) 0 ∧ feFirst demo .stdF (poolBase 0 + 0x100) ∧ feFirst demo .feclr (poolBase 0 + 0x100) ∧
    feFirst (drained gran) .lddW (poolBase 0 + 0x100) := by
  unfold feFirst Free Clear NoReads Copied; decide +kernel
/-- Block 0 of tile 0 is still to be copied, and its group's area has room. -/
def toCopy : State :=
  let p := { demoPart with job := some { demoJob with area := 0x100000, snapCap := true } }
  let s := demo.modTile 0 fun x => { x with uncop := [0] }
  { s with vest := { s.vest with parts := [(1, p)] } }
theorem witness_block_to_copy : (poolBase 0 + 0x100 - poolBase 0) / 4096 ∈ toCopy.me.uncop ∧ Saves toCopy 0 (poolBase 0 + 0x100) := by
  refine ⟨by decide +kernel, fun _ => ⟨by unfold Sound; decide +kernel, fun g hg => ?_⟩⟩
  rw [show toCopy.groupOfTile 0 = some 1 from by decide +kernel] at hg
  cases hg; decide +kernel

/-- The small state with one page translated: virtual page 0x10000 by a leaf entry. -/
def paged (e : Word) : State := demo.modTile 0 fun x => { x with tlb := [⟨x.regs.asid, 0x10000, 0x10000, e⟩] }
/-- Leaf entries of this package (R115): of HBM at 0x50000000, read-only or writable, and of a tile's scratchpad unit 2. -/
def hbmLeaf (w : Nat) : Word := BitVec.ofNat 64 (0x7FFE * 2 ^ 49 + 0x50000000 + w * 4 + 3)
def padLeaf (tile unit : Nat) : Word := BitVec.ofNat 64 (0x7FFE * 2 ^ 49 + tile * 2 ^ 28 + unit * 2 ^ 16 + 0x17)
/-- The instruction's base register points at a virtual address. -/
def aimed (s : State) (va : Nat) : State := s.setCtx 0 0 (s.cur.wr 4 (BitVec.ofNat 64 va))
theorem witness_paged_translation : (accessRequest (aimed demo 0x40000100).cur (.ldd 1 4 0)).isSome = true ∧ inTileSpace 0x40000100 = false ∧
    demo.readConflicts 0 (demo.tableKeys 0 0x40000100) = [] ∧ demo.leafOf 0 0x40000100 = none ∧
    Leads (paged (hbmLeaf 0)) 0x10100 ⟨hbmLeaf 0, 0x10000, 0x10000⟩ ∧
    leafAllows (paged (hbmLeaf 0)) ⟨hbmLeaf 0, 0x10000, 0x10000⟩ 0x10100 8 false false ∧
    ¬ leafAllows (paged (hbmLeaf 0)) ⟨hbmLeaf 0, 0x10000, 0x10000⟩ 0x10100 8 true false ∧
    ¬ leafAllows (paged (hbmLeaf 1)) ⟨hbmLeaf 1, 0x10000, 0x10000⟩ 0x10100 8 false true ∧
    ¬ leafAllows (paged (padLeaf 1 31)) ⟨padLeaf 1 31, 0x10000, 0x10000⟩ 0x1FFFC 8 false false := by
  unfold Leads leafAllows; decide +kernel

/-- Another die of another package holds X on the region of the page tables. -/
def tablesLeased : State :=
  { demo with dies := demo.dies.map fun x => { x with newel := { x.newel with home := [⟨benchRoot / 0x200000, 5, 3, 7, false, [], 1⟩] } } }
theorem witness_walk_meets_a_lease : tablesLeased.readConflicts 0 (tablesLeased.tableKeys 0 0x40000100) ≠ [] ∧
    (accessRequest (aimed tablesLeased 0x40000100).cur (.std 6 4 0)).isSome = true := by decide +kernel
theorem witness_access_meets_bad_data : Free ({ demo with bad := [(poolBase 0 + 0x100, 16)] } : State) (poolBase 0 + 0x100) 8 := by
  unfold Free; decide +kernel

/-- Where a paged access goes: HBM, the scratchpad of tile 1, and the running tile's own. -/
theorem witness_paged_places : Reaches (paged (hbmLeaf 1)) 0x10100 8 true false 0 (Config.memoryNode (homeDie 0x50000100)) 0x50000100 ∧
    Reaches (paged (padLeaf 1 2)) 0x10100 8 true true 0 1 (poolBase 1 + 0x20100) ∧
    Reaches (paged (padLeaf 0 2)) 0x10100 8 true true 0 0 (poolBase 0 + 0x20100) ∧ Sound demo (poolBase 0 + 0x20100) 8 := by
  refine ⟨.inr ⟨by decide +kernel, ⟨hbmLeaf 1, 0x10000, 0x10000⟩, ?_⟩, .inr ⟨by decide +kernel, ⟨padLeaf 1 2, 0x10000, 0x10000⟩, ?_⟩,
    .inr ⟨by decide +kernel, ⟨padLeaf 0 2, 0x10000, 0x10000⟩, ?_⟩, by unfold Sound; decide +kernel⟩ <;>
    (unfold Leads leafAllows; decide +kernel)
theorem witness_FarRequests_tile : Reaches demo (BitVec.ofNat 56 (at1 1 0x200)) 8 true true 0 1 (poolBase 1 + 0x200) :=
  .inl (by decide +kernel)
/-- An access to the granules is outstanding; the requests are used up; a release covers what is outstanding. -/
def asked (n : Nat) : State := demo.modTile 0 fun x => { x with mu := { x.mu with
  out := (List.range n).map fun i => { tag := i, ctx := 0, gen := 0, grs := [(poolBase 1 + 0x200) / 16], pages := [], spots := [], get := none, reads := true, pc := 0x3C,
                                       msgid := 0, ftag := 3, lock := false } } }
theorem witness_far_waits : (asked 1).me.granuleBusy 0 (opGranules (.read [⟨poolBase 1 + 0x200, 8, 0⟩])) = true ∧
    (asked 16).me.granuleBusy 0 (opGranules (.read [⟨poolBase 1 + 0x300, 8, 0⟩])) = false ∧ (asked 16).me.roomFor 0 1 = false ∧
    (asked 1).me.outTags 0 ≠ [] ∧ (asked 1).me.readTags 0 ≠ [] ∧ (accessRequest demo.cur (.stdF 6 4 0)).map (·.rel) = some true ∧
    (accessRequest demo.cur (.rresv 1 4 6)).map (·.kind) = some 3 := by decide +kernel

/-! ### Further clauses: sends and transfers -/

/-- A full send buffer, and a group table of given entries at g4. -/
def sent16 (s : State) : State := s.setCtx 0 0 { s.cur with sends := List.replicate 16 ⟨0, 0x21, [], []⟩ }
def entryFor (tile : Nat) : Word := BitVec.ofNat 64 (2 ^ 63 + 0x7FFE * 4096 + tile)
def grouped (ts : List Nat) : State := holding 0x100 (ts.map entryFor)
theorem witness_full_send_buffer : 16 ≤ (sent16 demo).cur.sends.length ∧ ((sent16 demo).destOf 0 ((sent16 demo).cur.rd 2)).toOption = some (0, 1) ∧
    (sent16 demo).isLocal 0 ((sent16 demo).cur.rd 4) = true ∧ ((sent16 demo).cur.rd 9).toNat = 16 ∧ OwnAt (sent16 demo) (adr ((sent16 demo).cur.rd 4)) 16 8 ∧
    16 ≤ (sent16 (grouped [1])).cur.sends.length ∧ demo.isLocal 0 (demo.cur.rd 5) = false ∧ demo.classOk 0 0xFC = false := by
  unfold OwnAt; decide +kernel
theorem witness_multicast_to_outside : ((wordsOf 8 ((grouped [1, 5]).read (poolBase 0 + 0x100) 64)).filter fun v => v.getLsbD 63) =
      [entryFor 1] ++ entryFor 5 :: [] ∧
    ((grouped [1, 5]).destOf 0 (BitVec.ofNat 64 ((entryFor 1).toNat % 2 ^ 27))).toOption = some (0, 1) ∧
    ((grouped [1, 5]).destOf 0 (BitVec.ofNat 64 ((entryFor 5).toNat % 2 ^ 27))).toOption = none ∧
    ((wordsOf 8 ((grouped [1, 5]).read (poolBase 0 + 0x100) 64)).all fun v => v.extractLsb' 27 36 == 0) = true ∧
    Sound (grouped [1, 5]) (poolBase 0 + 0x100) 64 ∧ Free (grouped [1, 5]) (poolBase 0 + 0x100) 64 := by
  unfold Sound Free; decide +kernel

/-- Two pages in a row: virtual 0x10000 and 0x20000. -/
def paged2 (e f : Word) : State :=
  demo.modTile 0 fun x => { x with tlb := [⟨x.regs.asid, 0x10000, 0x10000, e⟩, ⟨x.regs.asid, 0x20000, 0x10000, f⟩] }
theorem witness_paged_transfers : Reaches (paged (hbmLeaf 1)) 0x10100 16 true false 0 (Config.memoryNode (homeDie 0x50000100)) 0x50000100 ∧
    Reaches (paged (hbmLeaf 0)) 0x10100 16 false false 0 (Config.memoryNode (homeDie 0x50000100)) 0x50000100 ∧
    Reaches (paged (padLeaf 1 2)) 0x10100 16 true false 0 1 (poolBase 1 + 0x20100) ∧
    (paged (padLeaf 1 2)).inPartition 0 0 1 = true ∧ Reaches (paged (padLeaf 5 2)) 0x10100 16 true false 0 5 (poolBase 5 + 0x20100) ∧
    (paged (padLeaf 5 2)).inPartition 0 0 5 = false ∧ (0x10100 : Addr).toNat % 16 = 0 ∧ 16 ≤ 2 ^ 16 - (0x10100 : Addr).toNat % 2 ^ 16 := by
  refine ⟨.inr ⟨by decide +kernel, ⟨hbmLeaf 1, 0x10000, 0x10000⟩, ?_⟩, .inr ⟨by decide +kernel, ⟨hbmLeaf 0, 0x10000, 0x10000⟩, ?_⟩,
    .inr ⟨by decide +kernel, ⟨padLeaf 1 2, 0x10000, 0x10000⟩, ?_⟩, by decide +kernel,
    .inr ⟨by decide +kernel, ⟨padLeaf 5 2, 0x10000, 0x10000⟩, ?_⟩, by decide +kernel, by decide, by decide⟩ <;>
    (unfold Leads leafAllows; decide +kernel)
/-- An HBM page of another partition. -/
theorem witness_counted_put_to_another : ∃ g ∈ ({ demo with vest := { demo.vest with pages := [⟨0x5000, 2, some 0⟩] } } : State).vest.pages,
    g.num = 0x50000100 / 2 ^ 16 ∧ ∀ e, demo.partOf demo.tile = some e → e.1 ≠ g.pid :=
  ⟨⟨0x5000, 2, some 0⟩, by decide +kernel, by decide, fun e h => by
    rw [show demo.partOf demo.tile = some (1, demoPart) from by decide +kernel] at h; cases h; decide⟩
theorem witness_transfer_over_two_pages : Reaches (paged2 (hbmLeaf 1) (padLeaf 1 2)) 0x1FFF0 16 true false 0 (Config.memoryNode (homeDie 0x5000FFF0)) 0x5000FFF0 ∧
    Reaches (paged2 (padLeaf 1 3) (padLeaf 1 2)) 0x1FFF0 16 true false 0 1 (poolBase 1 + 0x3FFF0) ∧
    Reaches (paged2 (padLeaf 1 3) (padLeaf 1 2)) 0x20000 16 true false 0 1 (poolBase 1 + 0x20000) ∧
    2 ^ 16 - (0x1FFF0 : Addr).toNat % 2 ^ 16 = 16 ∧ (0x1FFF0 + 16) % 2 ^ 55 = 0x20000 ∧ demo.me.roomFor demo.ctx 2 = true ∧ NoWaiters demo ∧ Copied demo 0 := by
  refine ⟨.inr ⟨by decide +kernel, ⟨hbmLeaf 1, 0x10000, 0x10000⟩, ?_⟩, .inr ⟨by decide +kernel, ⟨padLeaf 1 3, 0x10000, 0x10000⟩, ?_⟩,
    .inr ⟨by decide +kernel, ⟨padLeaf 1 2, 0x20000, 0x10000⟩, ?_⟩, by decide, by decide, by unfold NoWaiters Copied; decide +kernel⟩ <;>
    (unfold Leads leafAllows; decide +kernel)
theorem witness_cadd_waits : busy.me.cnt.actions.length < Config.actionRoom ∧ busy.me.outTags busy.ctx ≠ [] ∧ (busy.cur.rd 6).toNat ≤ 255 := by
  decide +kernel

/-! ### Further clauses: locks -/

theorem witness_transaction_room : (inTx .active [⟨1, 0, 3, 0⟩]).roomForHomes ((inTx .active [⟨1, 0, 3, 0⟩]).txHomes 0 1).length = true ∧
    demo.roomForHomes 0 = true ∧ demo.roomForHomes (demo.lockHomes 0).length = true ∧ (demo.lockPkgs 0).length = 1 ∧
    WalkFree demo (adr (demo.cur.rd 4)) := by
  unfold WalkFree; decide +kernel
/-- A release of name 0 is on its way: its answer has not come. -/
def releasing : State := (inTx .active []).modTile 0 fun x => { x with locks := { x.locks with
  pend := [{ tag := 4, slot := 1, ts := 50, handle := demo.handleOf 0 1 0, name := 0, mode := 3, form := .release, undo := false, home := demo.lockHome 0 0 }] } }
theorem witness_name_given_up : releasing.me.locks.undoing 0 = true ∧ releasing.me.locks.record 1 0 = none ∧
    releasing.myTx = .tx 1 ⟨0, true, 50, .active, 0⟩ ∧ lockOperandsOk 0 3 = true :=
  ⟨by decide +kernel, by decide +kernel, isTx_eq (by decide +kernel), by decide⟩
/-- A page of another package's HBM, its lease held or not by the executing die. -/
def farLeaf : Word := BitVec.ofNat 64 (5 * 2 ^ 49 + 0x400000 + 7)
def farLease (m : BitVec 3) : State :=
  let s := aimed (demo.modTile 0 fun x => { x with tlb := [⟨x.regs.asid, 0x10000, 0x10000, farLeaf⟩] }) 0x10100
  { s with dies := s.dies.map fun x => { x with newel := { x.newel with leases := if m = 0 then [] else [(5 * 2 ^ 19 + 2, m)] } } }
theorem witness_remote_lease : (farLease 0).resolve1 0 (adr ((farLease 0).cur.rd 4)) 1 1 needRead =
      .ok ⟨5, Config.memoryNode (homeDie 0x400100), 0x400100, 1, 0x10100, some 1⟩ ∧
    (farLease 0).leaseName ⟨5, Config.memoryNode (homeDie 0x400100), 0x400100, 1, 0x10100, some 1⟩ = some (5 * 2 ^ 19 + 2) ∧ 0x400100 < Config.hbmBytes ∧
    WalkFree (farLease 0) (adr ((farLease 0).cur.rd 4)) ∧ (farLease 0).dieLease (5 * 2 ^ 19 + 2) = 0 ∧ (farLease 7).dieLease (5 * 2 ^ 19 + 2) = 7 ∧
    (farLease 3).dieLease (5 * 2 ^ 19 + 2) = 3 ∧ (farLease 3).me.roomFor 0 1 = true :=
  ⟨isOk_eq (by decide +kernel), by decide +kernel, by decide, by unfold WalkFree; decide +kernel, by decide +kernel, by decide +kernel,
    by decide +kernel, by decide +kernel⟩

/-- A system handler whose g4 points at a page: of HBM, of a tile's scratchpad, of another package. -/
def sysPaged (e : Word) : State :=
  aimed (sysState.modTile 0 fun x => { x with tlb := [⟨x.regs.asid, 0x10000, 0x10000, e⟩] }) 0x10100
theorem witness_inject_pages :
    (sysPaged (hbmLeaf 1)).resolve1 0 (adr ((sysPaged (hbmLeaf 1)).cur.rd 4)) 64 64 needRead = .ok ⟨0, Config.memoryNode (homeDie 0x50000100), 0x50000100, 64, 0x10100, some 1⟩ ∧
    (sysPaged (padLeaf 1 2)).resolve1 0 (adr ((sysPaged (padLeaf 1 2)).cur.rd 4)) 64 64 needRead = .ok ⟨0, 1, poolBase 1 + 0x20100, 64, 0x10100, some 1⟩ ∧
    (sysPaged farLeaf).resolve1 0 (adr ((sysPaged farLeaf).cur.rd 4)) 64 64 needRead = .ok ⟨5, Config.memoryNode (homeDie 0x400100), 0x400100, 64, 0x10100, some 1⟩ ∧
    (sysPaged farLeaf).readConflicts 0 ((sysPaged farLeaf).walkKeys 0 [(adr ((sysPaged farLeaf).cur.rd 4), 64)]) = [] :=
  ⟨isOk_eq (by decide +kernel), isOk_eq (by decide +kernel), isOk_eq (by decide +kernel), by decide +kernel⟩

/-! ### Further clauses: steps and reset -/

theorem witness_power_events : (∀ boot, ({ State.reset with power := false, agenda := [.powerRemoval] } : State).agenda.head? ≠
      some (.deviceReset boot)) ∧
    ({ State.reset with power := false, agenda := [.deviceReset default] } : State).agenda = .deviceReset default :: [] :=
  ⟨(fun _ h => by cases h), rfl⟩
/-- A compressed instruction at the PC, and a 32-bit one whose second halfword lies beyond the last page. -/
def short16 : State := State.reset.withFetchWord 16 0x52FD
def atEdge : State :=
  let s := bench.setCtx 0 0 { (bench.getCtx 0 0) with pc := 0x3FFFFFFE }
  s.write (benchCode + 0x3FFFFFFE) [0x34, 0xC0]
theorem witness_OneStep_short : short16.nextIssue = some (0, 0) ∧
    (∃ q, (short16.turn 0 0).fetchPiece 0 0 = .ok q ∧ q.pkg = 0 ∧ q.key = benchCode) ∧ valueAt short16 benchCode 2 / 0x4000 ≠ 3 ∧
    decode16 (BitVec.ofNat 16 (valueAt short16 benchCode 2)) = some (.cAddi 2 (-3)) ∧ Sound short16 benchCode 2 :=
  ⟨by decide +kernel, fetchOk_eq (by decide +kernel), by decide +kernel, by decide +kernel, by unfold Sound; decide +kernel⟩
theorem witness_OneStep_edge : atEdge.nextIssue = some (0, 0) ∧
    (∃ q, (atEdge.turn 0 0).fetchPiece 0 0x3FFFFFFE = .ok q ∧ q.pkg = 0 ∧ q.key = benchCode + 0x3FFFFFFE) ∧
    valueAt atEdge (benchCode + 0x3FFFFFFE) 2 / 0x4000 = 3 ∧ majorAssigned (BitVec.ofNat 6 (valueAt atEdge (benchCode + 0x3FFFFFFE) 2 / 256)) = true ∧
    fetchOk ((atEdge.turn 0 0).fetchPiece 0 0x40000000) (benchCode + 0x40000000) = false ∧
    (atEdge.turn 0 0).readConflicts 0 ((atEdge.turn 0 0).fetchKeys 0 0x3FFFFFFE) = [] :=
  ⟨by decide +kernel, fetchOk_eq (by decide +kernel), by decide +kernel, by decide +kernel, by decide +kernel, by decide +kernel⟩
/-- Of two keys with different digests one at least has not the fused digest; a port's link as training finds it. -/
theorem witness_DeviceReset : (∃ key, sha512 key ≠ (List.range 64).map Config.fusedKeyByte) ∧
    ([(1, 9, 32, 30)] : List (Nat × Nat × Nat × Nat)).filter (·.1 == 1) = [(1, 9, 32, 30)] := by
  refine ⟨?_, by decide⟩
  by_cases h : sha512 [] = (List.range 64).map Config.fusedKeyByte
  · exact ⟨[0], fun h0 => absurd (h.trans h0.symm) (by decide +kernel)⟩
  · exact ⟨[], h⟩
/-- A retired core whose tile no spare carries. -/
theorem witness_absent_tile : ({ State.reset.fabric with defects := (List.range 17).map fun c => (0, c) } : Fabric).absent (Config.tilesPerDie - 1) = true ∧
    State.reset.fabric.absent (Config.tilesPerDie - 1) = false := by
  decide +kernel

/-! ### Further clauses: flits -/

theorem witness_whole : Whole demo 0 (ask 1 readOp) ∧ Whole demo (Config.memoryNode 0) hbmRead ∧ Copied demo 0 ∧ demo.hasToken = true := by
  unfold Whole Copied; decide +kernel
/-- The first of two flits of a request, and of a reply. -/
def firstOf (f : Flit) : Flit := { f with hdr := { f.hdr with nflit := 1 } }
theorem witness_incomplete : (gather (demo.partsAt 0) (firstOf (ask 1 readOp))).2.2 = false ∧
    Arrives (withFlit demo 0 (firstOf (ask 1 readOp))) 0 (requestOf 1 false) (firstOf (ask 1 readOp)) (firstOf (ask 1 readOp)) ∧
    (gather (demo.partsAt 0) (firstOf dataFlit)).2.2 = false ∧
    Arrives (withFlit demo 0 (firstOf dataFlit)) 0 (fun x => x.hdr.kind == 8) (firstOf dataFlit) (firstOf dataFlit) :=
  ⟨by decide, arrives_of (by decide +kernel), by decide, arrives_of (by decide +kernel)⟩
/-- The matching store is full. -/
def noToken : State := { demo with vest := { demo.vest with tokens := List.replicate 512 (0, 0) } }
theorem witness_store_full : noToken.hasToken = false ∧ Arrives (withFlit noToken Config.vestibuleNode (flitFor Config.vestibuleNode 4 .trig))
      Config.vestibuleNode isTrig (flitFor Config.vestibuleNode 4 .trig) (flitFor Config.vestibuleNode 4 .trig) :=
  ⟨by decide +kernel, arrives_of (by decide +kernel)⟩
theorem witness_marker_ids : ([1, 0, 0, 0, 0, 0, 0, 0] : List Word).head? = some (BitVec.ofNat 64 running.sid) ∧
    ([2, 0, 0, 0, 0, 0, 0, 0] : List Word).head? ≠ some (BitVec.ofNat 64 running.sid) := by decide
/-- Another die's lease is held already, and no lock entry is free. -/
def leasedHome (m : BitVec 3) : State :=
  { demo with dies := demo.dies.set 0 { (demo.getDie 0) with newel := { (demo.getDie 0).newel with home := [⟨0, 0, 0, m, false, [], 4⟩] } } }
def crowded : State :=
  { demo with dies := demo.dies.set 0 { (demo.getDie 0) with
    newel := { (demo.getDie 0).newel with locks := List.replicate Config.lockEntries ⟨9, 9, [], []⟩ } } }
theorem witness_leases_at_home : ((leasedHome 7).getDie 0).newel.leaseOf 0 0 0 = some ⟨0, 0, 0, 7, false, [], 4⟩ ∧
    ((leasedHome 7).getDie 0).newel.leaseConflicts 0 0 0 3 = [] ∧ lockArrives (leasedHome 7) opLeases (.lease 3) = true ∧
    (demo.getDie 0).newel.leaseOf 0 0 0 = none ∧ ¬ Config.lockEntries ≤ (demo.getDie 0).newel.locks.length + (demo.getDie 0).newel.home.length ∧
    lockArrives (locked [] []) (fun o => o == .cancel) .cancel = true := by decide +kernel
theorem witness_no_lock_entry : Config.lockEntries ≤ (crowded.getDie 0).newel.locks.length + (crowded.getDie 0).newel.home.length ∧
    (crowded.getDie 0).newel.leaseOf 0 0 0 = none ∧ (crowded.getDie 0).newel.leaseConflicts 0 0 0 3 = [] ∧
    (∀ q ∈ (crowded.getDie 0).newel.waiting, q.region ≠ 0) ∧ lockArrives crowded opLeases (.lease 3) = true := by
  refine ⟨?_, by decide +kernel, by decide +kernel, by decide +kernel, by decide +kernel⟩
  have h : (crowded.getDie 0).newel.locks.length = Config.lockEntries := by simp [crowded, State.getDie]
  rw [h]; exact Nat.le_add_right _ _

/-! ### Further clauses: events of a tile, engines -/

theorem witness_dispatch_idle : ((landed [demoEntry, fresh id] []).getCtx 0 1).idleAt demo.cycle = true ∧
    ((landed [demoEntry, fresh id] []).getCtx 0 0).idleAt demo.cycle = false ∧
    (((landed [demoEntry, fresh id] []).getTile 0).ctxs.toList.filter fun y => !y.idleAt demo.cycle && y.prio != 0).length +
      ((landed [demoEntry, fresh id] []).getTile 0).regs.ctxres.toNat < 8 := by decide +kernel
/-- A handler past its limit that waits for the acquire `pendOne`: in flight, still at the tile, or cancelled already; and one that waits for the
answer to a query of all homes. -/
def lateLock (form : LockForm) (q : List Queued) (ps : List LockPend) : State :=
  { (locking.modTile 0 fun x => { x with mu := { x.mu with queue := q }, locks := { x.locks with pend := ps } }).setCtx 0 0
      { locking.cur with run := .wait (.locks form [4] 1 0), hlimit := 10, born := 0 } with cycle := 10 }
def pendReq : LockReq := { tag := 4, asid := 1, name := 0, ts := 50, handle := demo.handleOf 0 1 0, op := .acquire false 3 }
def pendQueued : Queued := { msg := { hdr := { demoHdr with kind := 5 }, body := .lock pendReq }, after := [2] }
theorem witness_hlimit_on_locks : ((lateLock .acquire [] [pendOne]).getCtx 0 0).run = .wait (.locks .acquire [4] 1 0) ∧
    ((lateLock .acquire [] [pendOne]).getCtx 0 0).born + ((lateLock .acquire [] [pendOne]).getCtx 0 0).hlimit ≤ (lateLock .acquire [] [pendOne]).cycle ∧
    ((lateLock .acquire [] [pendOne]).getTile 0).locks.pend = [pendOne] ∧ pendOne.tag ∈ [4] ∧ pendOne.form = .acquire ∧
    ((lateLock .acquire [] [pendOne]).getTile 0).mu.queue = [] ∧ ((lateLock .acquire [pendQueued] [pendOne]).getTile 0).mu.queue = [pendQueued] ∧
    pendQueued.msg.body = .lock pendReq ∧ pendReq.tag = pendOne.tag ∧ ((lateLock .matrix [] []).getTile 0).locks.pend = [] ∧
    ((lateLock .cancel [] []).getCtx 0 0).run = .wait (.locks .cancel [4] 1 0) ∧ Acts (lateLock .acquire [] [pendOne]) 0 := by
  unfold Acts; decide +kernel
/-- A kind-4 action whose destination is the tile itself, and a held update whose reply is due. -/
theorem witness_action_to_itself : ((acting (BitVec.ofNat 64 ((0x7FFE * 4096 + 0) * 2 ^ 37 + 0x2004))).destOf 0
      (BitVec.ofNat 64 ((BitVec.ofNat 64 ((0x7FFE * 4096 + 0) * 2 ^ 37 + 0x2004) : Word).toNat / 2 ^ 37))).toOption = some (0, 0) ∧
    SlotFor (acting (BitVec.ofNat 64 ((0x7FFE * 4096 + 0) * 2 ^ 37 + 0x2004))) 0 (demoJob.prioOf 0x20).toNat ∧
    (acting 5).me.land.reserved = none ∧ Copied (acting 5) 0 := by
  unfold SlotFor Copied; decide +kernel

theorem witness_engine_waits : (matrixState (cmdOf (accRecord 0x12))).me.waitList = [] ∧ Copied (matrixState (cmdOf (accRecord 0x12))) 0 ∧
    (copyState copying).me.waitList = [] ∧ Copied (copyState copying) 0 ∧ Memory.wf (copyState copying).mem = true := by
  unfold Copied; decide +kernel
/-- A command that has run and notifies counter 7 of tile 1, or of its own tile: word 7 holds amount 2 in [63:48], the counter in [47:40]. -/
def notifies (tile : Nat) : Cmd :=
  { cmdOf [0x20, 0, 0, 0, 0, 0, 0, BitVec.ofNat 64 (2 * 2 ^ 48 + 7 * 2 ^ 40 + 0x7FFE * 4096 + tile)] with notify := true, result := some ⟨0, 0, []⟩ }
def actionsFull (s : State) : State :=
  s.modTile 0 fun x => { x with cnt := { x.cnt with actions := List.replicate Config.actionRoom ⟨1, 7, 5, 3⟩ } }
theorem witness_notify : ((matrixState (notifies 1)).destOf 0 (BitVec.ofNat 64 (bits (notifies 1).record 7 26 0))).toOption = some (0, 1) ∧
    ((matrixState (notifies 0)).destOf 0 (BitVec.ofNat 64 (bits (notifies 0).record 7 26 0))).toOption = some (0, 0) ∧
    Config.actionRoom ≤ (actionsFull (matrixState (notifies 0))).me.cnt.actions.length ∧
    ((matrixState (notifies 0)).me.cnt.actions.length < Config.actionRoom) := by decide +kernel

/-! ### Further clauses: links and platform -/

/-- Port 1 in the states of a link: up, turning, without lanes, down with a frame unacknowledged, training; and its record. -/
def portOf (q : Port) : State := demo.modPort 1 fun _ => q
def oneFrame : Frame := ⟨1, true, [wordsFlit]⟩
def turningPort : Port := { upPort with state := .turning, turning := some (true, 5) }
theorem witness_link_states : (portOf upPort).getPort 1 = upPort ∧ upPort.turning = none ∧ oneFrame.good = true ∧ oneFrame.seq = upPort.expect ∧
    (let on := fun (pl : Nat) (l : List Flit) => l.filter fun x => x.hdr.plane == pl
     (∀ pl ∈ [0, 1], on pl oneFrame.flits = [] ∨ (on pl upPort.rx).length + (on pl oneFrame.flits).length ≤ Config.portRoom) ∧
     ¬ (∀ pl ∈ [0, 1], on pl oneFrame.flits = [] ∨ (on pl (List.replicate 64 wordsFlit)).length + (on pl oneFrame.flits).length ≤ Config.portRoom)) ∧
    turningPort.turning = some (true, 5) ∧ ({ upPort with txl := 1 } : Port).txl = 1 ∧ ({ upPort with calTx := some 5 } : Port).calTx = some 5 ∧
    demo.host.bootfail = false ∧ ({ demo.host with bootfail := true } : Adapter).bootfail = true ∧
    Port.reset.unacked = [] ∧ ({ Port.reset with unacked := [oneFrame] } : Port).unacked ≠ [] ∧ 32 + 32 + Port.reset.failed ≤ 64 ∧
    64 < 32 + 32 + upPort.failed + 1 ∧ ({ Port.reset with state := .training, unacked := [oneFrame] } : Port).state = .training := by decide +kernel
-- R350, the record of the worked turnaround in spec/28
theorem test_port_record : ({ Port.reset with state := .up, txl := 33, rxl := 28, failed := 3, turns := 1, peer := 1 } : Port).word0 =
    0x02211C0300010001 := by decide
/-- A governor whose queue's head finds no leave: the package is above its limit, or the die's power is. -/
def leaveOne : LeaveReq := { tile := 0, matrix := true, seq := 1, mw := 5000, pid := 1, p0 := false }
def governed (f : Governor → Governor) : State := demo.modDie 0 fun x => { x with gov := f { x.gov with fifo := [leaveOne] } }
theorem witness_governor : ((governed id).getDie 0).gov.fifo = [leaveOne] ∧ ((governed fun g => { g with above := true }).getDie 0).gov.above = true ∧
    ((governed fun g => { g with power := g.budget + 1 }).getDie 0).gov.budget < ((governed fun g => { g with power := g.budget + 1 }).getDie 0).gov.power ∧
    (demo.getDie 0).gov.fifo = [] := by decide +kernel
theorem witness_host_and_platform : demo.vestDest demoPart (BitVec.ofNat 64 (0x7FFE * 4096 + 1)) = some (demo.pkg, 1) ∧ HbmSound demo ∧
    (∀ e ∈ demo.vest.parts, 3 ∉ demo.pkgsOf e.2) ∧
    (let s : State := { demo with vest := { demo.vest with parts := [(1, { demoPart with pkgs := [0, 3] })] } }
     s.vest.parts.filter (fun e => (s.pkgsOf e.2).contains 3) = [(1, { demoPart with pkgs := [0, 3] })]) := by
  unfold HbmSound Sound; decide +kernel

/-! ### Further clauses: snapshots and rollbacks -/

/-- Tile 0 with block 3 to copy, in a group with or without an area, its snapshot running. -/
def copyingIn (area : Nat) : State :=
  let p := { demoPart with job := some { demoJob with area := area, snapCap := true } }
  let s := demo.modTile 0 fun x => { x with uncop := [3] }
  { s with vest := { s.vest with parts := [(1, p)], groups := [{ demoGroup with lastId := 1, snaps := [running] }] } }
theorem witness_block_copy : (copyingIn 0x100000).me.uncop = [3] ∧ (copyingIn 0x100000).groupOfTile 0 = some 1 ∧ (copyingIn 0x100000).areaRoom 1 4096 = true ∧
    (copyingIn 0).areaRoom 1 4096 = false ∧ ((copyingIn 0).group 1).bind (·.running) = some running ∧
    Sound (copyingIn 0) (poolBase 0 + 3 * 4096) 4096 := by
  unfold Sound; decide +kernel
/-- Every node of the group has cut; all figures but tile 0's are reported, or all are and the logs are closed. -/
def cutNode : NodeSnap := { NodeSnap.reset with cut := true, colour := 1, logOn := true }
def reporting (closed : Bool) (blocks : List Nat) : State :=
  let s : State :=
    { demo with
      tiles := [(0, { demo.me with snap := { cutNode with sent0 := 2 }, uncop := blocks }), (1, { Tile.reset with snap := { cutNode with recv0 := 2 } })]
      dies := demo.dies.map fun d =>
        { d with newel := { d.newel with snaps := [(1, cutNode)] }, memory := { d.memory with snaps := [(1, cutNode)] } } }
  let g := { demoGroup with lastId := 1, colour := 1, node := cutNode }
  let nodes := ({ s with vest := { s.vest with groups := [g] } } : State).groupNodes 1
  let figs := (nodes.filter (· != 0)).map fun n => (n, (0, if n = 1 then 2 else 0))
  let q := { running with closed := closed, figures := if closed then (0, 2, 0) :: figs else figs }
  { s with vest := { s.vest with groups := [{ g with snaps := [q] }] } }
def theRun (s : State) : Snapshot := ((s.group 1).bind (·.running)).getD running
def allCopied (s : State) : Bool := (s.groupTiles 1).all fun t => (s.getTile t).uncop == []
theorem witness_count_reports : (reporting false []).vest.groups.length = 1 ∧ ((reporting false []).group 1).bind (·.running) = some (theRun (reporting false [])) ∧
    (theRun (reporting false [])).start = none ∧ 0 ∈ (reporting false []).groupNodes 1 ∧ ((reporting false []).nodeSnap 1 0).cut = true ∧
    mget (theRun (reporting false [])).figures 0 ≠ some ((reporting false []).nodeSnap 1 0).old ∧
    (reporting false []).balanced 1 { theRun (reporting false []) with
      figures := mput (theRun (reporting false [])).figures 0 ((reporting false []).nodeSnap 1 0).old } = true ∧
    allCopied (reporting false []) = true ∧ allCopied (reporting false [7]) = false ∧ (theRun (reporting true [])).closed = true ∧
    ((reporting true []).group 1).bind (·.running) = some (theRun (reporting true [])) := by decide +kernel
/-- A complete snapshot to drain: its one page lies at granule 0x5000; the page is sound, or holds uncorrectable data. -/
def draining (bad : List (Nat × Nat)) : State :=
  let q := { running with state := .complete, pages := [⟨0x5000, 1, some 0⟩] }
  { demo with vest := { demo.vest with groups := [{ demoGroup with lastId := 1, snaps := [q] }] }, bad := bad }
theorem witness_drain : ((draining []).group 1).bind (fun g => g.snaps.find? fun r => r.state == .complete) =
      some { running with state := .complete, pages := [⟨0x5000, 1, some 0⟩] } ∧
    (draining []).drainBad 1 1 [0x5000] = none ∧ (draining [(0x50000040, 64)]).drainBad 1 1 [0x5000] = some 0x50000040 := by decide +kernel

/-- A rollback at a step, to a snapshot with an image of tile 0 whose pool held one byte and one empty granule, and a pre-image. -/
def imaged : Snapshot :=
  { running with
    state := .drained, full := [(0x50000000, 5)], pages := [⟨0x5000, 1, some 0⟩]
    tiles := [{ tile := 0, cycle := 0, state := demo.me, bytes := [(poolBase 0 + 8, 9)], empty := [poolBase 0 / 16 + 1] }] }
def rollingTo (n : Nat) (remote : Bool) : State :=
  { demo.modTile 1 (fun x => { x with regs := { x.regs with qdepth := 0x080808 } }) with
    vest := { demo.vest with rolls := [⟨1, 1, remote, n, none⟩], groups := [{ demoGroup with lastId := 1, snaps := [imaged] }], pages := [⟨0x5000, 1, some 0⟩] }
    dies := demo.dies.set (homeDie 0x50000000 % 4) { (demo.getDie (homeDie 0x50000000)) with
      memory := { (demo.getDie (homeDie 0x50000000)).memory with pre := [⟨1, 1, 0x5000, [(0x50000010, 6)], false⟩] } } (Nat.mod_lt _ (by decide)) }
theorem witness_Rolls (n : Nat) (remote : Bool) :
    Rolls (rollingTo n remote) ⟨1, 1, remote, n, none⟩ { demoGroup with lastId := 1, snaps := [imaged] } imaged 1 demoPart := by
  refine ⟨rfl, rfl, rfl, rfl, rfl, rfl, rfl, ?_⟩
  intro b hb; cases hb
theorem witness_ImagesFit (remote : Bool) : ImagesFit (rollingTo 2 remote) 1 imaged := by
  refine ⟨by cases remote <;> decide +kernel, by decide, by decide, ?_, by cases remote <;> decide +kernel, fun d p hp => ?_⟩
  · intro i hi
    rw [show i = imaged.tiles.headD default from by simpa [imaged] using hi]
    decide +kernel
  · have h : ∀ d, d < 4 → ∀ p ∈ ((rollingTo 2 false).getDie d).memory.pre, p.granule < Config.hbmBytes / 0x10000 ∧ Memory.wf p.bytes = true := by
      decide +kernel
    have e : (rollingTo 2 remote).getDie d = (rollingTo 2 false).getDie (d % 4) := by simp [State.getDie, rollingTo]
    exact h (d % 4) (Nat.mod_lt _ (by decide)) p (e ▸ hp)
theorem witness_rollback_resume : (rollingTo 4 true).groupTiles 1 = [0, 1] ∧ SlotFor (rollingTo 4 true) 0 0 ∧ SlotFor (rollingTo 4 true) 1 0 ∧
    imaged.logs = [] ∧ (rollingTo 2 true).pagesNow 1 = [0x5000] ∧
    ((rollingTo 2 false).dies.toList.flatMap fun d => d.memory.pre.filter fun p => p.grp == 1 && p.sid == 1) = [⟨1, 1, 0x5000, [(0x50000010, 6)], false⟩] := by
  unfold SlotFor; decide +kernel

/-! ### Further clauses: work queues -/

/-- A packet at work on queue 0, and the test of `Working`. -/
def atWork (b : List Byte) (mark : Nat) : Packet :=
  { idx := 0, owner := 0, addr := Config.queue0Ring, units := b.length / 64, bytes := b, done := false, mark := mark }
def workQueue (b : List Byte) (mark : Nat) : Queue :=
  { Queue.reset with tail := BitVec.ofNat 32 (b.length / 64), start := BitVec.ofNat 32 (b.length / 64), pend := [atWork b mark] }
def workingIn (s : State) (b : List Byte) (mark : Nat) : State := { s with vest := { s.vest with queues := [(0, workQueue b mark)] } }
def works (s : State) (b : List Byte) (mark : Nat) (c : VCmd) : Bool :=
  (workingIn s b mark).queue 0 == some (workQueue b mark) && pktCmd b == c && pktOk b && pktPerm 0 b && (workingIn s b mark).hasToken &&
    (workingIn s b mark).bad == []
theorem working_of {s : State} {b : List Byte} {mark : Nat} {c : VCmd} (h : works s b mark c = true) :
    Working (workingIn s b mark) 0 (workQueue b mark) (atWork b mark) c := by
  unfold works at h
  simp only [Bool.and_eq_true, beq_iff_eq] at h
  obtain ⟨⟨⟨⟨⟨h1, h2⟩, h3⟩, h4⟩, h5⟩, h6⟩ := h
  exact ⟨h1, rfl, rfl, rfl, rfl, h2, h3, h4, h5, fun x hx => by rw [h6] at hx; cases hx⟩
def waitPacket : List Byte := packet [(0, [4, 0, 1]), (8, [7])]
def injectPacket : List Byte := packet [(0, [0x0D, 0, 1]), (8, [1, 0, 0xFE, 0x7F])]
theorem witness_work_in_progress : works demo waitPacket 5 .waittag = true ∧ works demo injectPacket 5 .injecterr = true ∧
    works demo (packet [(0, [2, 0, 1])]) 0 .unloadjob = true ∧ works kept (packet [(0, [2, 0, 1, 0, 1])]) 0 .unloadKeep = true ∧
    works kept (packet [(0, [6, 0, 1])]) 1 .snapshot = true ∧ works kept (packet [(0, [7, 0, 1]), (8, [1])]) 0 .rollLocal = true ∧
    works kept (packet [(0, [7, 0, 1]), (8, [1]), (12, [1])]) 0 .rollRemote = true ∧
    works kept (packet [(0, [7]), (8, [1]), (13, [1]), (12, [1]), (14, [3])]) 0 .rollParked = true ∧
    works demo (packet [(0, [8]), (10, [0xFE, 0x7F]), (12, [0xFF, 0xFF])]) 0 .migrate = true ∧ drainedGroup.stateOf 1 = 3 ∧
    (workingIn demo waitPacket 5).serialLive 5 = false ∧ demo.vest.rolls = [] ∧ demo.vest.migs = [] := by decide +kernel
/-- A control block at 0x60000000 of a ring of 8 units at 0x61000000, for a new queue, and for one that is halted. -/
def block : State := (demo.write 0x60000020 (leBytes 8 0x61000000)).write 0x60000028 (leBytes 8 8)
theorem witness_createq : starting block (packet [(0, [0x0B]), (8, [3]), (16, leBytes 8 0x60000000)]) .createq = true ∧ 0x60000000 % 64 = 0 ∧
    (let s := given block (packet [(0, [0x0B]), (8, [3]), (16, leBytes 8 0x60000000)])
     valueAt s 0x60000020 8 = 0x61000000 ∧ unitsOk (valueAt s 0x60000028 8) = true ∧ Memory.wf s.mem = true ∧ s.queue 3 = none ∧
       s.queue 2 = some { Queue.reset with tail := 0 }) := by decide +kernel
/-- A launch under way: tag 9, of serial 3; the queue's latest launch was it. -/
def launched : State :=
  { demo with vest := { demo.vest with parts := [(1, { demoPart with job := some { demoJob with tags := [⟨9, 3, 0, 0, 0, 0, none⟩] } })] } }
theorem witness_waittag : ({ launched with vest := { launched.vest with queues := [(0, { Queue.reset with launch := some (1, 9, 3) })] } } : State).lastLaunch 0 =
      some (some ⟨9, 3, 0, 0, 0, 0, none⟩) ∧ demo.lastLaunch 0 = none ∧ starting launched (packet [(0, [4, 0, 1]), (8, [9])]) .waittag = true ∧
    starting launched (packet [(0, [4, 0, 1])]) .waittag = true := by decide +kernel
/-- Tail shadows in memory and doorbells for queue 0: newer, known, and behind; a pass that finds no room. -/
theorem witness_tail_shadow : demo.hasToken = true ∧ noToken.hasToken = false ∧ (∀ b ∈ demo.bad, False) ∧
    (let q := Queue.reset
     ((3 : BitVec 32) - q.seq).toNat = 3 ∧ ¬ ((0 : BitVec 32) - 1 - q.seq).toNat < 2 ^ 31 ∧ q.seq = 0 ∧ q.tail = 0 ∧ q.state ≠ 2) := by decide +kernel

/-- A migration's core, named or left to the Vestibule, and a rollback's steps before and after its tiles run again. -/
theorem witness_job_ends : (∀ x ∈ (rolling 5).vest.rolls, x.asked = some (0, 0) → 4 < x.step) ∧
    (match demo.freeSpares 0 with | c :: _ => ((demo.freeSpares 0).find? (· == c)) == some c | [] => false) = true ∧
    (∀ e ∈ demo.vest.peers, e.asid = 7 → e.pid = 2) := by decide +kernel

/-! ### Further clauses: what a register shows, waits, and the homes of locks -/

/-- The results worked by hand from the number formats hold of the model. -/
theorem test_arithmetic_worked : ArithmeticWorked := by unfold ArithmeticWorked; decide +kernel
theorem test_group_worked : GroupWorked := by unfold GroupWorked; decide +kernel
theorem test_conversions_worked : ConversionsWorked := by unfold ConversionsWorked; decide +kernel
theorem test_blocks_worked : BlocksWorked := by unfold BlocksWorked; decide +kernel
theorem witness_RoundsToGrid : (0 : Int) < 3 := by decide
theorem witness_register_layouts : demo.ctx < 8 ∧ (demo.partOf demo.tile).map (fun e => (e.2.rename, e.2.pkgNames)) = some ([], []) ∧
    demo.fabric.coreOf demo.tile = some 0 ∧ demo.tile < Config.tiles ∧ (∀ p, p < 4 → (demo.me.land.slots.filter fun e => e.prio == p).length < 64) ∧
    (∀ p, p < 4 → (demo.me.land.spill.filter fun e => e.prio == p && !e.golden).length < 2 ^ 12) ∧ demo.me.uncop.length ≤ 512 ∧
    demo.me.matrix.cmds.length ≤ 64 ∧ demo.me.copy.cmds.length ≤ 48 := by decide +kernel
-- R12, R103: bits above AGELIM are ignored
theorem test_agelim_ignores : after (exec (.mts .agelim 7) demo) (fun t => t.stateReg .agelim) = some 0xFFFFFFFE := by decide +kernel
/-- Four empty granules under VLD.W. -/
def emptied : State := { demo with empty := (List.range 4).map fun i => (poolBase 0 + 0x100) / 16 + i }
theorem witness_vldw_waits : OwnAt emptied (ea (emptied.cur.rd 4) 64 0) 64 64 ∧ NoWaiters emptied ∧
    (∃ g ∈ granules (ownKey emptied (ea (emptied.cur.rd 4) 64 0)) 64, emptied.full g = false) := by
  refine ⟨by unfold OwnAt; decide +kernel, by unfold NoWaiters; decide +kernel, gran, by decide +kernel, by decide +kernel⟩
/-- A GET into the granules of 0x100 of the own scratchpad is outstanding. -/
def getting : State := demo.modTile 0 fun x => { x with mu := { x.mu with
  out := [{ tag := 0, ctx := 0, gen := 0, grs := [(poolBase 1 + 0x200) / 16], pages := [], spots := [],
            get := some { dst := poolBase 0 + 0x100, grs := [gran], cnt := none, mate := none },
            reads := true, pc := 0x3C, msgid := 0, ftag := 3, lock := false }], nextTag := 1 } }
theorem witness_ends_busy : getting.me.endsBusy 0 (opGranules (.read [⟨poolBase 0 + 0x100, 8, 0⟩])) = true ∧
    getting.me.endsBusy 0 (granules (poolBase 0 + 0x100) 16) = true ∧ getting.me.endsBusy 0 (granules (poolBase 0 + 0x200) 16) = false ∧
    getting.me.outTags 0 ≠ [] := by decide +kernel
theorem witness_get_outstanding : ¬ NoReads getting ∧ Free getting (poolBase 0 + 0x100) 8 ∧ ¬ Clear getting (poolBase 0 + 0x100) 8 ∧
    Clear getting (poolBase 0 + 0x200) 8 ∧ getting.me.readTags getting.ctx = [0] ∧ takesNothing getting (.read [⟨poolBase 0 + 0x100, 8, 0⟩]) = true ∧
    takesNothing getting (.amo .add .d (poolBase 0 + 0x100) 0 0) = false := by
  unfold NoReads Free Clear; decide +kernel
/-- An addition to counter 7 that context 0 made is held behind request 0; and one that nothing holds any more. -/
def adding (after : List Nat) : State := busy.modTile 0 fun x => { x with cnt := { x.cnt with adds := [⟨7, 2, 3, 0, after⟩] } }
theorem witness_held_addition : (adding [0]).me.cnt.addHeld 0 7 = true ∧ busy.me.cnt.addHeld 0 7 = false ∧ (adding []).me.cnt.held = [] ∧
    (adding []).me.land.reserved = none ∧ (adding []).me.cnt.actions.length < Config.actionRoom ∧ (adding [0]).actionOk 1 5 = true ∧
    Acts (adding []) 0 := by
  unfold Acts; decide +kernel
/-- A partition that also spans package 0, seen from package 3. -/
theorem witness_trig_elsewhere : (let s : State := { demo with pkg := 3, vest := { demo.vest with
      parts := [(1, { demoPart with pkgs := [3] })], peers := [⟨0, 1, demoPart.asid, [0, 1]⟩] } }
    s.cur.ftag ≠ 0 ∧ s.lockPkgs s.tile = [0, 3]) := by decide +kernel
/-- What XINV left to wait for: request 0 of tile 0, answered or not, and copy command 1, dead or not. -/
theorem witness_xinv_waits : (∀ o ∈ demo.me.mu.out, o.tag ≠ 0) ∧ (∀ w ∈ demo.me.mu.waiters, w.tag = 0 → fromTile w.hdr demo.pkg 0 = false) ∧
    (∀ m ∈ (copyState { cmdOf [2] with dead := true }).me.copy.cmds, m.seq = 1 → m.dead = true) ∧
    (demoWith fun c => { c with run := .wait (.xinv [(0, 0)] [(0, 1)]) }).cur.run = .wait (.xinv [(0, 0)] [(0, 1)]) := by decide +kernel

def waiterOf (ts : Word) (handle : Word) (mode : BitVec 3) : LockWaiter := ⟨ts, handle, mode, false, 5, demoHdr, 0, 0⟩
/-- The entry of name 0 at its home, and the matrix in force there. -/
def entryOf (s : State) : LockEntry := (s.getDie 0).newel.lock 1 0
def matrixAt (s : State) : Word := (s.getDie 0).newel.matrix 1
theorem witness_behind_waiters : (let s := locked [⟨60, 0x102, 1, false⟩] [waiterOf 70 0x103 1]
    (s.getDie 0).newel.exhausted (entryOf s) = false ∧ (entryOf s).queue ≠ [] ∧ (∀ v ∈ (entryOf s).queue, compat (matrixAt s) 1 v.mode = true) ∧
    (entryOf s).fits (matrixAt s) 0x101 1 = true ∧ lockArrives s opAcquires (.acquire false 1) = true ∧ lockArrives s opAcquires (.acquire true 3) = true) := by
  decide +kernel
theorem witness_wounds : (let s := locked [⟨60, 0x102, 7, false⟩] []
    (entryOf s).holders = [⟨60, 0x102, 7, false⟩] ∧ compat (matrixAt s) 3 7 = false ∧ (lockAsk .release).ts.toNat < (60 : Word).toNat ∧
    lockArrives s opAcquires (.acquire false 3) = true ∧ (40 : Word).toNat < (lockAsk .release).ts.toNat ∧
    lockArrives (locked [⟨40, 0x102, 7, false⟩] []) opAcquires (.acquire false 3) = true) := by decide +kernel
theorem witness_release_to_waiters : (let s := locked [⟨50, 0x101, 7, false⟩] [waiterOf 60 0x102 3, waiterOf 70 0x103 3]
    (entryOf s).queue = [waiterOf 60 0x102 3, waiterOf 70 0x103 3] ∧ compat (matrixAt s) 3 3 = true ∧ compat (matrixAt s) 7 3 = false ∧
    lockArrives s (fun o => o == .release || o == .endTx) .release = true ∧
    lockArrives (locked [⟨50, 0x101, 3, false⟩, ⟨55, 0x102, 3, false⟩] [waiterOf 60 0x103 7]) (fun o => o == .release || o == .endTx) .release = true) := by
  decide +kernel
/-- The last grant of a lease that a recall of number 4 names: an earlier one, and a later one. -/
theorem witness_recall_numbers : (mget (demo.getDie 0).newel.got (recallFlit.hdr.spkg.toNat * 2 ^ 19 + 3)).getD 0 ≤ 4 ∧
    (4 : Nat) < (mget ([(recallFlit.hdr.spkg.toNat * 2 ^ 19 + 3, 5)] : Map Nat) (recallFlit.hdr.spkg.toNat * 2 ^ 19 + 3)).getD 0 := by decide +kernel

/-! ### Further clauses: dispatch, engines and links -/

/-- Two heads that may run: one of priority 1, and one of priority 2 accepted before it and older than PROMO. -/
def promoted : State :=
  { landed [fresh (fun e => { e with accept := 90 }), fresh (fun e => { e with key := 10, hdr := { e.hdr with prio := 2 }, accept := 1 })] [] with cycle := 100 }.modTile 0
    fun x => { x with regs := { x.regs with promo := 5, qdepth := 0x808208 } }
theorem witness_promotion : HeadOf promoted.me 1 (fresh fun e => { e with accept := 90 }) ∧
    HeadOf promoted.me 2 (fresh fun e => { e with key := 10, hdr := { e.hdr with prio := 2 }, accept := 1 }) ∧ promoted.me.regs.promo ≠ 0 ∧
    promoted.me.regs.promo.toNat < promoted.cycle - 1 ∧ Acts promoted 0 ∧ (promoted.getCtx 0 1).idleAt promoted.cycle = true ∧
    (promoted.getCtx 0 0).idleAt promoted.cycle = false := by
  unfold HeadOf Acts; decide +kernel
/-- ASTORE of two rows of 32 cells as MXF4 blocks, 16 bytes apart, their scales at 0x2000; and as Q4O blocks. -/
def blockRecord (aux : Nat) : List Word :=
  [BitVec.ofNat 64 (32 * 2 ^ 40 + 2 * 2 ^ 32 + aux * 2 ^ 24 + 0x12), BitVec.ofNat 64 (aux * 2 ^ 60 + 5 * 2 ^ 56 + own 0x1000), 16, 0, 0, BitVec.ofNat 64 (own 0x2000), 0, 0]
theorem witness_astore_blocks : FrontRuns (matrixState (cmdOf (blockRecord 7))) 0 0x12 (cmdOf (blockRecord 7)) ∧
    FrontRuns (matrixState (cmdOf (blockRecord 8))) 0 0x12 (cmdOf (blockRecord 8)) ∧ bits (blockRecord 8) 0 29 28 ≤ 1 ∧ 7 ≤ bits (blockRecord 7) 0 27 24 ∧
    (matrixState (cmdOf (blockRecord 7))).operandKey 0 ((blockRecord 7).getD 5 0) = poolBase 0 + 0x2000 ∧
    (∀ i, i < 2 → OwnOf (matrixState (cmdOf (blockRecord 7))) 0 (adr ((blockRecord 7).getD 1 0) + BitVec.ofNat 56 (i * 16)) 16 16) := by
  refine ⟨frontRuns_of (by decide +kernel), frontRuns_of (by decide +kernel), by decide, by decide, by decide +kernel, ?_⟩
  unfold OwnOf; decide +kernel
theorem witness_engine_order : (copyState { cmdOf (copyRecord 2) with seq := 3 }).me.copy.done + 1 < 3 ∧
    (copyState { cmdOf (copyRecord 2) with seq := 3 }).me.copy.beyond = [] := by decide +kernel
/-- A lane out for recalibration, a port that was up when training came, and the bridge's port. -/
theorem witness_link_clauses : ({ upPort with calTx := some 5 } : Port).calTx ≠ none ∧ upPort.state = .up ∧ upPort.txl ≠ 0 ∧ 0 % 7 = 0 ∧
    Port.reset.unacked.filter (fun x => decide (x.seq ≤ 0)) = [] ∧ ([oneFrame].filter fun x => decide (0 < x.seq)) = [oneFrame] ∧
    ([oneFrame].filter fun x => decide (x.seq ≤ 1)) = [oneFrame] := by decide
/-- A host record for a tile of the partition on another package. -/
def spread : State := { demo with vest := { demo.vest with peers := [⟨2, 1, demoPart.asid, [1]⟩] } }
theorem witness_record_for_another_package : spread.part 1 = some demoPart ∧
    spread.vestDest demoPart (BitVec.ofNat 64 (2 * 4096 + 1)) = some (2, 1) ∧ 2 ≠ spread.pkg := by decide +kernel

/-! ### Further clauses: rollbacks and commands -/

/-- A rollback at the step that serves the channel logs: a handler message for tile 0, and increments of a counter there. -/
def logFlit (body : Body) : Flit := flitFor 0 (match body with | .incr .. => 4 | _ => 0) body
def logged (fs : List Flit) (full : Bool) : State :=
  let q := { imaged with logs := [(0, { num := 0, accept := 0, flits := fs })] }
  let s := (rollingTo 3 true).modTile 0 fun x =>
    { x with cnt := { x.cnt with actions := if full then List.replicate Config.actionRoom ⟨1, 7, 5, 3⟩ else [] } }
  { s with vest := { s.vest with groups := [{ demoGroup with lastId := 1, snaps := [q] }] } }
def twoIncr : List Flit := [logFlit (.incr 7 1), logFlit (.incr 8 2)]
theorem witness_rollback_logs : (logged [wordsFlit] false).me.frozen = false ∧ SlotFor (logged [wordsFlit] false) 0 wordsFlit.hdr.prio.toNat ∧
    wordsFlit.fidx.toNat ≤ wordsFlit.hdr.nflit.toNat ∧ (∀ e ∈ (logged [wordsFlit] false).me.land.slots, e.wants wordsFlit = false) ∧
    (logged twoIncr false).me.cnt.held = [] ∧ (logged twoIncr false).me.cnt.actions.length < Config.actionRoom ∧
    Config.actionRoom ≤ (logged twoIncr true).me.cnt.actions.length ∧ (∀ f ∈ twoIncr, f.age ≠ 4095) ∧ (logged twoIncr true).vest.rolls.length = 1 := by
  unfold SlotFor; decide +kernel
theorem witness_logs_are_increments : ∀ f ∈ twoIncr, ∃ cid amount, f.body = .incr cid amount := by
  intro f hf
  simp only [twoIncr, List.mem_cons, List.not_mem_nil, or_false] at hf
  rcases hf with rfl | rfl
  · exact ⟨7, 1, rfl⟩
  · exact ⟨8, 2, rfl⟩
/-- A tail that a pass has set, which a doorbell names again. -/
theorem witness_doorbell_meets_pass : (let q : Queue := { Queue.reset with seq := 3, tail := 2, passed := true }
    (3 : BitVec 32) = q.seq ∧ (2 : BitVec 32) = q.tail ∧ (false = true ∨ q.passed = true) ∧ ¬ 1 ≤ ((3 : BitVec 32) - q.seq).toNat) := by decide
/-- The refusals: of a partition that is not there or there already, of a job that is there or not, of an ASID in use, and of snapshots. -/
theorem witness_refusals : demo.part 2 = none ∧ starting demo (packet [(0, [1, 0, 2]), (8, leBytes 8 0x60000000), (16, leBytes 8 image.length)]) .loadjob = true ∧
    starting demo (packet [(0, [2, 0, 2])]) .unloadjob = true ∧ starting demo (packet [(0, [9, 0, 2, 0, 1])]) .partDestroy = true ∧
    starting demo (packet [(0, [7]), (13, [1]), (12, [2]), (14, [3])]) .rollDiscard = true ∧ demo.vest.parks = [] ∧
    starting demo (packet [(0, [1, 0, 1]), (8, leBytes 8 0x60000000), (16, leBytes 8 image.length)]) .loadjob = true ∧
    starting demo (packet [(0, [9, 0, 1, 0, 1])]) .partDestroy = true ∧ starting loading (packet [(0, [2, 0, 1])]) .unloadjob = true ∧
    demo.areaSize 1 = 0 ∧ starting demo (packet [(0, [6, 0, 1])]) .snapshot = true ∧ demoGroup.latestDrained = none ∧
    starting demo (packet [(0, [2, 0, 1, 0, 1])]) .unloadKeep = true := by decide +kernel
theorem witness_bad_image : starting loading (packet [(0, [1, 0, 1]), (8, leBytes 8 (2 ^ 40 - 64)), (16, leBytes 8 image.length)]) .loadjob = true ∧
    loading.imageAt (2 ^ 40 - 64) image.length = none ∧ (loading.imgFault (image.set 0 0) emptyPart [0]).isSome = true := by decide +kernel
theorem witness_parked_shape : parked.shapeOk 1 [(0, [0, 1])] = true ∧ parkOne.shapes = [[(0, [0, 1])]] := by decide +kernel

/-! ### Further clauses: handlers, sends and accesses -/

/-- The queue of priority 1 is given no slot, so that a message that arrives again finds no room. -/
def roomless : State := demo.modTile 0 fun x => { x with regs := { x.regs with qdepth := 0x080008 } }
theorem witness_requeue_room : demo.me.land.again = [] ∧ demo.me.land.logged = [] ∧ Acts demo 0 ∧ roomless.me.entry roomless.cur.key = some demoEntry ∧
    ¬ (roomless.me.land.slots.filter (·.key != roomless.cur.key)).length < roomless.me.regs.depth demoEntry.prio ∧ roomless.me.land.ring demoEntry.prio = 0 ∧
    demoEntry.age ≠ 4095 ∧ Acts roomless 0 := by
  unfold Acts; decide +kernel
theorem witness_migrate_traps : (let w : Word := BitVec.ofNat 64 (0x7FFE * 4096 + 5)
    w.toNat < 2 ^ 27 ∧ demo.pkgOn 0 (w.toNat / 2 ^ 12 % 2 ^ 15) ≠ 0x7FFF ∧
      demo.inPartition 0 (demo.pkgOn 0 (w.toNat / 2 ^ 12 % 2 ^ 15)) (demo.tileOn 0 (demo.pkgOn 0 (w.toNat / 2 ^ 12 % 2 ^ 15)) (w.toNat % 2 ^ 12)) = false) ∧
    demo.inPartition 0 (demo.pkgOn 0 ((demo.cur.rd 2).toNat / 2 ^ 12 % 2 ^ 15)) (demo.tileOn 0 0 ((demo.cur.rd 2).toNat % 2 ^ 12)) = true ∧
    16 ≤ (sent16 demo).cur.sends.length := by decide +kernel
/-- A PUT or SENDX whose source a GET of the context is still to fill, and an own store and an own FETEST while that GET is outstanding. -/
theorem witness_source_of_a_get : ¬ Clear getting (poolBase 0 + 0x100) 16 ∧ OwnAt getting (adr (getting.cur.rd 4)) 16 8 ∧ (getting.cur.rd 9).toNat = 16 ∧
    getting.me.endsBusy 0 (granules (poolBase 1 + 0x200) 16) = true ∧ getting.me.endsBusy 0 (granules (poolBase 1 + 0x300) 16) = false ∧
    getting.me.roomFor 0 1 = true := by
  unfold Clear OwnAt; decide +kernel
theorem witness_own_access_waits : storeOf getting.cur.rd (.std 6 4 0) = some (7, BitVec.ofNat 56 (own 0x100), 8, 4) ∧
    Reaches getting (BitVec.ofNat 56 (own 0x100)) 8 true true getting.pkg getting.tile (poolBase 0 + 0x100) ∧ getting.me.readTags getting.ctx ≠ [] ∧
    (accessRequest getting.cur (.std 6 4 0)).map (·.rel) = some false ∧ writesSome (.write [(poolBase 0 + 0x100, [7])] false none) = true ∧
    takesNothing getting (.fe .fetest (poolBase 0 + 0x100) 0) = false ∧ getting.me.endsBusy 0 (opGranules (.fe .fetest (poolBase 0 + 0x100) 0)) = true ∧
    (amoOf getting.cur.rd (.amoAdd .rlx .d 1 5 6)).isSome = true :=
  ⟨by decide +kernel, .inl (by decide +kernel), by decide +kernel, by decide +kernel, by decide +kernel, by decide +kernel, by decide +kernel,
    by decide +kernel⟩

/-! ### Further clauses: flits at a tile's memory unit and at a memory node -/

theorem serves_demo (f : Flit) (h : (f.hdr.stile.toNat != 0 && f.hdr.spkg.toNat == demo.pkg) = true) : Serves demo 0 f := by
  simp only [Bool.and_eq_true, bne_iff_ne, beq_iff_eq] at h
  exact ⟨⟨by decide +kernel, by decide +kernel, by decide +kernel, by decide +kernel, h.1, h.2⟩, by decide +kernel⟩
/-- A write of two parts that sets FULL and counts, while the counter takes it and while an update is held. -/
def putFn : Flit := ask 2 (.write [(poolBase 0 + 0x100, [1, 2]), (poolBase 0 + 0x140, [3])] true (some 7))
theorem witness_counted_write : Serves demo 0 putFn ∧ Whole demo 0 putFn ∧ Copied demo 0 ∧ InPool demo 0 (poolBase 0 + 0x140) 1 ∧
    InPool demo 0 (poolBase 0 + 2 ^ 21 - 8) 8 ∧ Arrives (withFlit demo 0 putFn) 0 (requestOf 2 false) putFn putFn ∧ demo.me.cnt.held = [] ∧
    demo.me.cnt.actions.length < Config.actionRoom ∧ Arrives (withFlit holdUpdate 0 putFn) 0 (requestOf 2 false) putFn putFn ∧ holdUpdate.me.cnt.held ≠ [] ∧
    Config.actionRoom ≤ (actionsFull demo).me.cnt.actions.length := by
  refine ⟨serves_demo _ (by decide), ?_, ?_, ?_, ?_, arrives_of (by decide +kernel), by decide +kernel, by decide +kernel, arrives_of (by decide +kernel),
    by decide +kernel, by decide +kernel⟩
  · unfold Whole; decide
  · unfold Copied; decide +kernel
  · unfold InPool Sound; decide +kernel
  · unfold InPool Sound; decide +kernel
/-- Granule 0x100 of tile 0 is empty; tile 1's context 0 waits for request 4. -/
def hollow : State :=
  { demo with empty := [gran] }.modTile 1 fun x => x.setCtx 0 { Ctx.reset with run := .wait (.replies [4] [] none (.word 1) 0 4) }
def feFlit (kind : BitVec 4) (op : FeOp) : Flit := ask kind (.fe op (poolBase 0 + 0x100) 9)
theorem witness_remote_full_empty : Arrives (withFlit demo 0 (feFlit 1 .lddWc)) 0 (requestOf 1 false) (feFlit 1 .lddWc) (feFlit 1 .lddWc) ∧
    feGoes .lddWc (demo.full gran) = true ∧ Arrives (withFlit hollow 0 (feFlit 1 .lddW)) 0 (requestOf 1 false) (feFlit 1 .lddW) (feFlit 1 .lddW) ∧
    feGoes .lddW (hollow.full gran) = false ∧ feGoes .lddT (hollow.full gran) = false ∧ (hollow.getTile 1).waiterOf 4 = some 0 ∧
    Arrives (withFlit hollow 0 (feFlit 2 .stdWf)) 0 (requestOf 2 false) (feFlit 2 .stdWf) (feFlit 2 .stdWf) ∧ feGoes .stdWf (hollow.full gran) = true :=
  ⟨arrives_of (by decide +kernel), by decide +kernel, arrives_of (by decide +kernel), by decide +kernel, by decide +kernel, by decide +kernel,
    arrives_of (by decide +kernel), by decide +kernel⟩
def vldwFlit : Flit := ask 1 (.vldW (poolBase 0 + 0x100))
theorem witness_remote_vldw : Arrives (withFlit demo 0 vldwFlit) 0 (requestOf 1 false) vldwFlit vldwFlit ∧ InPool demo 0 (poolBase 0 + 0x100) 64 ∧
    (∀ x ∈ granules (poolBase 0 + 0x100) 64, demo.full x = true) ∧ (∃ x ∈ granules (poolBase 0 + 0x100) 64, hollow.full x = false) :=
  ⟨arrives_of (by decide +kernel), by unfold InPool Sound; decide +kernel, by decide +kernel, ⟨gran, by decide +kernel, by decide +kernel⟩⟩
def lanesFlit : Flit := ask 3 (.addLanes .s32 [(poolBase 0 + 0x100, 3), (poolBase 0 + 0x100, 4)])
theorem witness_added_lanes : Arrives (withFlit demo 0 lanesFlit) 0 (requestOf 3 false) lanesFlit lanesFlit ∧
    InPool demo 0 (poolBase 0 + 0x100) (ElemType.width .s32 / 8) :=
  ⟨arrives_of (by decide +kernel), by unfold InPool Sound; decide +kernel⟩
/-- RING requests to the ring of `ringState`, which has four slots, two of them reserved and one full, and to a descriptor that is none. -/
def ringFlit (op : RingOp) (x y : Word) : Flit := ask 3 (.ring op (poolBase 0 + 0x100) x y)
def farRing (s : State) : RingDesc := ringDesc (wordsOf 8 (s.read (poolBase 0 + 0x100) 64)) 0x100 (s.scratch 0)
theorem witness_remote_rings : (farRing ringState).ok = true ∧ (farRing demo).ok = false ∧ (farRing ringState).slots = 4 ∧
    ((farRing ringState).resv - (farRing ringState).head).toNat = 2 ∧ ringState.fullRun (farRing ringState) 0 (farRing ringState).head 4 = 1 ∧
    Arrives (withFlit ringState 0 (ringFlit .rresv 2 0)) 0 (requestOf 3 true) (ringFlit .rresv 2 0) (ringFlit .rresv 2 0) ∧
    Arrives (withFlit ringState 0 (ringFlit .rpubl 1 1)) 0 (requestOf 3 true) (ringFlit .rpubl 1 1) (ringFlit .rpubl 1 1) ∧
    Arrives (withFlit ringState 0 (ringFlit .rcons 1 0)) 0 (requestOf 3 true) (ringFlit .rcons 1 0) (ringFlit .rcons 1 0) ∧
    Memory.wf ringState.mem = true ∧ InPool ringState 0 (poolBase 0 + 0x100) 64 :=
  ⟨by decide +kernel, by decide +kernel, by decide +kernel, by decide +kernel, by decide +kernel, arrives_of (by decide +kernel),
    arrives_of (by decide +kernel), arrives_of (by decide +kernel), by decide +kernel, by unfold InPool Sound; decide +kernel⟩
/-- Waiters of granule 0x100: of tile 1, for it to be full or empty; and one of the tile's own, for context 1. -/
def waiting (tile : BitVec 12) (tag : Nat) (o : FeOp) : Waiter :=
  { op := .fe o (poolBase 0 + 0x100) 0, hdr := { demoHdr with stile := tile }, tag := tag }
def queued (s : State) (ws : List Waiter) : State := s.modTile 0 fun x => { x with mu := { x.mu with waiters := ws } }
theorem witness_waiters_for_full : AtUnit hollow 0 (feFlit 2 .stdF) ∧
    Arrives (withFlit (queued hollow [waiting 1 1 .lddW, waiting 1 2 .lddWc, waiting 1 3 .waitf]) 0 (feFlit 2 .stdF)) 0 (requestOf 2 false)
      (feFlit 2 .stdF) (feFlit 2 .stdF) ∧
    (∀ v ∈ [waiting 1 1 .lddW, waiting 1 2 .lddWc, waiting 1 3 .waitf], ForFull hollow 0 gran v) ∧
    (goOn [waiting 1 1 .lddW, waiting 1 2 .lddWc, waiting 1 3 .waitf]).length = 2 := by
  refine ⟨?_, arrives_of (by decide +kernel), ?_, by decide⟩
  · unfold AtUnit; decide +kernel
  · have h : InPool hollow 0 (poolBase 0 + 0x100) 8 := by unfold InPool Sound; decide +kernel
    intro v hv
    simp only [List.mem_cons, List.not_mem_nil, or_false] at hv
    rcases hv with rfl | rfl | rfl
    · exact ⟨by decide, .lddW, _, _, rfl, .inl rfl, by decide, h⟩
    · exact ⟨by decide, .lddWc, _, _, rfl, .inr (.inl rfl), by decide, h⟩
    · exact ⟨by decide, .waitf, _, _, rfl, .inr (.inr rfl), by decide, h⟩
theorem witness_waiters_for_empty : Arrives (withFlit (queued demo [waiting 1 1 .stdWf, waiting 1 2 .stdWf]) 0 (feFlit 2 .feclr)) 0 (requestOf 2 false)
      (feFlit 2 .feclr) (feFlit 2 .feclr) ∧ (waiting 1 1 .stdWf).hdr.stile.toNat ≠ 0 ∧ (waiting 1 1 .stdWf).hdr.spkg.toNat = demo.pkg ∧
    (queued demo [waiting 1 1 .stdWf]).me.mu.waiters = waiting 1 1 .stdWf :: [] :=
  ⟨arrives_of (by decide +kernel), by decide, by decide, by decide +kernel⟩
def ownWaiting : State :=
  (queued hollow [waiting 0 8 .lddW]).setCtx 0 1 { demoCtx with run := .wait (.replies [8] [] none (.word 1) (BitVec.ofNat 56 (own 0x100)) 4) }
theorem witness_own_waiter : Arrives (withFlit ownWaiting 0 (feFlit 2 .stdF)) 0 (requestOf 2 false) (feFlit 2 .stdF) (feFlit 2 .stdF) ∧
    ownWaiting.me.waiterOf 8 = some 1 ∧ (ownWaiting.getCtx 0 1).run = .wait (.replies [8] [] none (.word 1) (BitVec.ofNat 56 (own 0x100)) 4) ∧
    ownWaiting.me.mu.out = [] :=
  ⟨arrives_of (by decide +kernel), by decide +kernel, by decide +kernel, by decide +kernel⟩
/-- The running tile's own STD.F, FECLR and LDD.WC meet the same waiters. -/
theorem witness_own_forms_meet_waiters : feOf hollow.cur.rd (.stdF 6 4 0) = some (.stdF, BitVec.ofNat 56 (own 0x100), 7, none) ∧
    OwnAt hollow (BitVec.ofNat 56 (own 0x100)) 8 8 ∧ feFirst hollow .stdF (poolBase 0 + 0x100) ∧ hollow.me.land.reserved = none ∧ Copied hollow 0 ∧
    (feOf demo.cur.rd (.lddWc 1 4 0)).map (·.1) = some .lddWc ∧ feFirst demo .lddWc (poolBase 0 + 0x100) ∧ feGoes .lddWc (demo.full gran) = true ∧
    feFirst demo .feclr (poolBase 0 + 0x100) := by
  unfold feFirst OwnAt Copied Clear Free NoReads; decide +kernel
/-- A write, an atomic and added lanes at the first memory node. -/
def hbmAsk (kind : BitVec 4) (op : MemOp) : Flit := flitFor (Config.memoryNode 0) kind (.request 4 op)
def hbmServed (kind : BitVec 4) (op : MemOp) : Prop :=
  Arrives (withFlit demo (Config.memoryNode 0) (hbmAsk kind op)) (Config.memoryNode 0) (requestOf kind false) (hbmAsk kind op) (hbmAsk kind op)
theorem witness_memory_node_writes : hbmServed 2 (.write [(0x50000000, [1, 2])] false none) ∧ hbmServed 3 (.amo .add .d 0x50000000 5 0) ∧
    hbmServed 3 (.addLanes .s32 [(0x50000000, 5)]) ∧ InHbmToWrite demo 0x50000000 8 ∧ InHbmToWrite demo 0x5000FFF8 8 ∧
    NoLease demo 0 (hbmAsk 3 (.amo .add .d 0x50000000 5 0)) [0x50000000] true := by
  refine ⟨arrives_of (by decide +kernel), arrives_of (by decide +kernel), arrives_of (by decide +kernel), ?_, ?_, by unfold NoLease; decide +kernel⟩ <;>
  · refine ⟨⟨by decide, fun e h => ?_, by unfold Sound; decide +kernel, by decide⟩, by unfold Sound; decide +kernel⟩
    rw [show demo.groupOfPage _ = none from by decide +kernel] at h; cases h

/-! ### Further clauses: replies -/

/-- Context 0 waits for replies, with an action for the last of them; UTVEC is set. -/
def awaiting (fin : Fin) (tags : List Nat) (got : List (Nat × List Byte)) : State :=
  waitsOn (demoWith fun c => { c with
    ut := ⟨0x200, 0, false, 0, 0, 0⟩, run := .wait (.replies tags got none fin (BitVec.ofNat 56 (at1 1 0x200)) 4) })
def replyFlit (kind : BitVec 4) (v : RepVal) : Flit := flitFor 0 kind (.reply 4 v)
def replied (fin : Fin) (tags : List Nat) (got : List (Nat × List Byte)) (kind : BitVec 4) (v : RepVal) : Prop :=
  Arrives (withFlit (awaiting fin tags got) 0 (replyFlit kind v)) 0 (fun x => x.hdr.kind == kind) (replyFlit kind v) (replyFlit kind v)
theorem witness_replies : replied (.load 1 4 true) [4] [] 8 (.data [(0, leBytes 4 0x80000001)]) ∧ replied (.load 1 8 true) [4, 5] [] 8 (.data [(0, leBytes 4 1)]) ∧
    [4, 5].filter (· != 4) ≠ [] ∧ replied (.word 1) [4] [] 8 .empty ∧ (awaiting (.word 1) [4] []).cur.ut.act = false ∧ (awaiting (.word 1) [4] []).cur.ut.vec ≠ 0 ∧
    replied (.vload 1) [4] [] 8 (.data [(0, leBytes 64 77)]) ∧ replied (.word 1) [4] [] 8 (.val 5 0) ∧ replied (.ring 1) [4] [] 9 (.val 5 0) ∧
    replied (.amo 1 .w) [4] [] 8 (.val 0x80000001 3) ∧ replied .none [4] [] 9 .done :=
  ⟨arrives_of (by decide +kernel), arrives_of (by decide +kernel), by decide, arrives_of (by decide +kernel), by decide +kernel, by decide +kernel,
    arrives_of (by decide +kernel), arrives_of (by decide +kernel), arrives_of (by decide +kernel), arrives_of (by decide +kernel), arrives_of (by decide +kernel)⟩
/-- The last parts of a gather and of typed blocks, after the parts that came before. -/
theorem witness_gathered_replies : replied (.gather .s32 true 1 2) [4] [(0, leBytes 4 9)] 8 (.data [(2, leBytes 4 7)]) ∧
    (∀ p ∈ [(0, leBytes 4 9)] ++ [(2, leBytes 4 7)], ∀ q ∈ [(0, leBytes 4 9)] ++ [(2, leBytes 4 7)], p.1 = q.1 → p = q) ∧
    replied (.block .f32 true 1 8 5 0 (BitVec.ofNat 56 (own 0x200))) [4] [] 8 (.data [(0, leBytes 64 77)]) ∧
    (blockElems 5 0 (BitVec.ofNat 56 (own 0x200)) (gotBelow [(0, leBytes 64 77)] 0 64) (gotBelow [(0, leBytes 64 77)] scalePos (scalePos + 2))).1.length = 64 ∧
    blockType .f32 ∧ replied (.block .f16 true 1 8 8 5 (BitVec.ofNat 56 (own 0x220))) [4] [(scalePos, [5]), (scalePos + 1, [6])] 8 (.data [(0, leBytes 32 77)]) :=
  ⟨arrives_of (by decide +kernel), by decide, arrives_of (by decide +kernel), by decide +kernel, by unfold blockType; decide, arrives_of (by decide +kernel)⟩
/-- A GET of two parts: this reply's range goes to 0x100; the other part, request 5, is still outstanding or not; it counts in counter 7. -/
def getOut (tag : Nat) (mate : Option Nat) (cnt : Option Nat) : Outst :=
  { outOne with tag := tag, get := some { dst := poolBase 0 + 0x100, grs := [gran], cnt := cnt, mate := mate } }
def landing (os : List Outst) : State := demo.modTile 0 fun x => { x with mu := { x.mu with out := os } }
def getFlit : Flit := replyFlit 8 (.data [(0, leBytes 16 77)])
theorem witness_get_lands : Arrives (withFlit (landing [getOut 4 (some 5) (some 7), getOut 5 (some 4) (some 7)]) 0 getFlit) 0 (fun x => x.hdr.kind == 8) getFlit getFlit ∧
    (∃ m, (some 5 : Option Nat) = some m ∧ m ≠ 4 ∧ ∃ q ∈ (landing [getOut 4 (some 5) (some 7), getOut 5 (some 4) (some 7)]).me.mu.out, q.tag = m) ∧
    Arrives (withFlit (landing [getOut 4 (some 5) (some 7)]) 0 getFlit) 0 (fun x => x.hdr.kind == 8) getFlit getFlit ∧
    (landing [getOut 4 (some 5) (some 7)]).me.mu.out.find? (·.tag == 4) = some (getOut 4 (some 5) (some 7)) ∧
    (∀ q ∈ (landing [getOut 4 (some 5) (some 7)]).me.mu.out, q.tag ≠ 5) ∧ InPool demo 0 (poolBase 0 + 0x100) 16 ∧
    (landing [getOut 4 none none]).me.cmdOf 4 = none ∧ (landing [getOut 4 none none]).me.land.reserved = none :=
  ⟨arrives_of (by decide +kernel), ⟨5, rfl, by decide, getOut 5 (some 4) (some 7), by decide +kernel, rfl⟩, arrives_of (by decide +kernel), by decide +kernel,
    by decide +kernel, by unfold InPool Sound; decide +kernel, by decide +kernel, by decide +kernel⟩

/-! ### Further clauses: locks, engines, links and commands -/

theorem witness_lock_classes : ¬ ((demo.cur.rd 4).toNat ≤ 255 ∧ demo.classOk 0 ((demo.cur.rd 4).extractLsb' 0 8) = true) := by decide +kernel
/-- TXH names a transaction of tile 1. -/
def foreign : State := demoWith fun c => { c with txh := 0x101 }
theorem witness_foreign_transaction : foreign.myTx = .foreign := by
  have h : (match foreign.myTx with | .foreign => true | _ => false) = true := by decide +kernel
  revert h; cases foreign.myTx <;> simp
/-- A conversion of the lock in slot 1 to a mode in g9: one that escalates, one that weakens, and one that neither mode covers. -/
theorem witness_conversions : (let mx := (demo.getDie 0).newel.matrix demo.me.regs.asid
    covers mx 1 3 = false ∧ covers mx 3 1 = true ∧ covers mx 7 3 = true ∧ covers mx 3 5 = false ∧ covers mx 5 3 = false) ∧
    (inTx .committing [⟨1, 0, 7, 0⟩]).myTx = .tx 1 ⟨0, true, 50, .committing, 0⟩ ∧ (inTx .revoked [⟨1, 0, 7, 0⟩]).myTx = .tx 1 ⟨0, true, 50, .revoked, 0⟩ ∧
    (inTx .active [⟨1, 0, 1, 3⟩]).me.locks.record 1 0 = some ⟨1, 0, 1, 3⟩ ∧ (inTx .active [⟨1, 0, 0, 3⟩]).me.locks.record 1 0 = some ⟨1, 0, 0, 3⟩ ∧
    (inTx .active [⟨1, 0, 3, 0⟩, ⟨1, 2 ^ 62, 1, 0⟩]).me.locks.record 1 0 = some ⟨1, 0, 3, 0⟩ ∧
    (inTx .active [⟨1, 0, 7, 0⟩]).me.locks.hierOk 1 0 3 = true ∧ (inTx .active [⟨1, 2 ^ 62, 3, 0⟩]).me.locks.hierOk 1 (2 ^ 62) 3 = false :=
  ⟨by decide +kernel, isTx_eq (by decide +kernel), isTx_eq (by decide +kernel), by decide +kernel, by decide +kernel, by decide +kernel, by decide +kernel,
    by decide +kernel⟩
theorem witness_held_records_full : Config.heldRecords ≤ (inTx .active (List.replicate Config.heldRecords ⟨2, 0, 3, 0⟩)).me.locks.held.length ∧
    (inTx .active (List.replicate Config.heldRecords ⟨2, 0, 3, 0⟩)).me.locks.record 1 0 = none := by decide +kernel
/-- A conversion of name 0 is on its way; context 1 waits for it. -/
def convPend : LockPend :=
  { tag := 4, slot := 1, ts := 50, handle := demo.handleOf 0 1 0, name := 0, mode := 7, form := .convert, undo := false, home := demo.lockHome 0 0 }
def converting : State :=
  ((inTx .active [⟨1, 0, 1, 7⟩]).modTile 0 fun x => { x with mu := { x.mu with nextTag := 5 }, locks := { x.locks with pend := [convPend] } }).setCtx 0 1
    { demoCtx with run := .wait (.locks .convert [4] 2 0) }
theorem witness_conversion_given_up : converting.me.locks.pend = [convPend] ∧ converting.me.lockWaiter 4 = some 1 ∧ (1 : Nat) ≠ converting.ctx ∧
    (converting.getCtx 0 1).run = .wait (.locks .convert [4] 2 0) ∧ converting.me.locks.record 1 0 = some ⟨1, 0, 1, 7⟩ ∧
    converting.me.locks.hasChild 1 0 = false ∧ converting.me.roomFor 0 1 = true ∧ converting.myTx = .tx 1 ⟨0, true, 50, .active, 0⟩ :=
  ⟨by decide +kernel, by decide +kernel, by decide +kernel, by decide +kernel, by decide +kernel, by decide +kernel, by decide +kernel,
    isTx_eq (by decide +kernel)⟩
/-- A lease that a recall has asked for, S or shut X, asked for again. -/
def leasedAgain (l : HomeLease) : State :=
  { demo with dies := demo.dies.set 0 { (demo.getDie 0) with newel := { (demo.getDie 0).newel with home := [l] } } }
theorem witness_leases_again : ((leasedAgain ⟨0, 0, 0, 3, true, [], 4⟩).getDie 0).newel.leaseOf 0 0 0 = some ⟨0, 0, 0, 3, true, [], 4⟩ ∧
    ((leasedAgain ⟨0, 0, 0, 3, true, [], 4⟩).getDie 0).newel.leaseConflicts 0 0 0 7 = [] ∧ lockArrives (leasedAgain ⟨0, 0, 0, 3, true, [], 4⟩) opLeases (.lease 7) = true ∧
    ((leasedAgain ⟨0, 0, 0, 7, false, [1], 4⟩).getDie 0).newel.leaseConflicts 0 0 0 3 = [] ∧
    lockArrives (leasedAgain ⟨0, 0, 0, 7, false, [1], 4⟩) opLeases (.lease 3) = true := by decide +kernel
/-- A matrix command that completes behind a held NOTIFY, or behind another that does; and the end of that wait. -/
def behind (held : List HeldUpdate) (ended : List Cmd) (k : Cmd) : State :=
  (matrixState k).modTile 0 fun x => { x with matrix := { x.matrix with ended := ended }, cnt := { x.cnt with held := held } }
def second : Cmd := { ran with seq := 2 }
theorem witness_completes_behind : (∃ h ∈ (behind [⟨7, 1, 3, none, some 1⟩] [] second).me.cnt.held, h.seq ≠ none) ∧
    (behind [] [ran] second).me.matrix.ended ≠ [] ∧ (behind [] [ran] second).me.matrix.cmds.head? = some second ∧ second.bad = false ∧ second.dead = false ∧
    second.result = some ⟨0, 0, []⟩ ∧ second.tags = [] ∧ Copied (behind [] [ran] second) 0 :=
  ⟨⟨⟨7, 1, 3, none, some 1⟩, by decide +kernel, by decide⟩, by decide +kernel, by decide +kernel, rfl, rfl, rfl, rfl, by unfold Copied; decide +kernel⟩
theorem witness_held_notify_ends : (let s := behind [⟨7, 1, 3, none, some 1⟩] [second] { second with seq := 3 }
    s.me.cnt.held = [⟨7, 1, 3, none, some 1⟩] ∧ s.me.cnt.adds = [] ∧ s.me.land.reserved = none ∧ s.me.cnt.actions.length < Config.actionRoom ∧
      s.me.matrix.ended = [second] ∧ second.notify = false ∧ second.seq = 1 + 1 ∧ 1 = s.me.matrix.done + 1 ∧ s.me.matrix.beyond = []) ∧
    Acts (behind [⟨7, 1, 3, none, some 1⟩] [second] { second with seq := 3 }) 0 := by
  unfold Acts; decide +kernel
/-- A training that finds no lane, or lanes in one direction; and a package that is lost until a route leads to it again. -/
def lostTwo : State := { portOf upPort with fabric := { demo.fabric with lost := [2], routes := [(2, 1)] } }
theorem witness_lost_and_found : lostTwo.portTo 2 = 1 ∧ 2 ∈ lostTwo.fabric.lost ∧ (lostTwo.getPort 1).state = .up ∧ (lostTwo.getPort 2).state = .down ∧
    lostTwo.host.bootfail = false ∧ 0 + 0 + upPort.failed ≤ 64 ∧ 5 ≤ 32 := by decide +kernel
/-- A host record for another package, whatever partition it names here. -/
theorem witness_record_names_another : (let w : Word := BitVec.ofNat 64 (9 * 2 ^ 32 + 5 * 2 ^ 12 + 1)
    w.toNat / 2 ^ 12 % 2 ^ 15 = 5 ∧ 5 ≠ demo.pkg ∧ demo.part (w.toNat / 2 ^ 32 % 64) = none) ∧
    demo.part 1 = some demoPart ∧ demo.partPkg demoPart 5 ≠ demo.pkg := by decide +kernel
/-- Jobs are loaded and unloaded once no rollback is in progress. -/
theorem witness_jobs_wait_for_rollbacks : (given (rolling 1) (packet [(0, [2, 0, 1])])).vest.rolls ≠ [] ∧
    starting (rolling 1) (packet [(0, [2, 0, 1])]) .unloadjob = true ∧ starting (rolling 1) (packet [(0, [2, 0, 1, 0, 1])]) .unloadKeep = true ∧
    demo.vest.rolls = [] ∧ kept.vest.rolls = [] ∧ (∀ e ∈ kept.groupParts 1, e.2.leaving = false) := by decide +kernel
/-- The worked results of comparisons, classes and conversions hold of the model. -/
theorem test_compares_worked : ComparesWorked := by unfold ComparesWorked; dsimp only; (repeat' apply And.intro) <;> decide +kernel
theorem test_converts_worked : ConvertsWorked := by unfold ConvertsWorked; dsimp only; (repeat' apply And.intro) <;> decide +kernel

end Sys2Proof.Tests
end

section
/-! PROOF. What memory holds after a write and at reset (R9, R356; obligations O12 and O41). -/

namespace Sys2Proof.Machine

/-- What a byte of memory reads after bytes are written from `k` upward. -/
theorem memGet_memWrite {m : List Host.Cell} (hm : memWf m = true) (k : Nat) (bs : List Byte) (a : Nat) :
    memGet (memWrite m k bs) a = if k ≤ a ∧ a < k + bs.length then bs.getD (a - k) 0 else memGet m a := by
  induction bs generalizing m k with
  | nil =>
    have hout : ¬(k ≤ a ∧ a < k + ([] : List Byte).length) := by rw [List.length_nil]; omega
    rw [if_neg hout, memWrite]
  | cons b bs ih =>
    rw [memWrite, ih (memWf_memSet hm k b) (k + 1), memGet_memSet hm]
    obtain hlt | heq | hgt := Nat.lt_trichotomy a k
    · have hrest : ¬(k + 1 ≤ a ∧ a < k + 1 + bs.length) := by omega
      have hall : ¬(k ≤ a ∧ a < k + (b :: bs).length) := by omega
      rw [if_neg hrest, if_neg (Nat.ne_of_lt hlt), if_neg hall]
    · have hrest : ¬(k + 1 ≤ a ∧ a < k + 1 + bs.length) := by omega
      have hall : k ≤ a ∧ a < k + (b :: bs).length := by rw [List.length_cons]; omega
      have hfirst : a - k = 0 := by omega
      rw [if_neg hrest, if_pos heq, if_pos hall, hfirst, List.getD_cons_zero]
    · have hnext : a - k = a - (k + 1) + 1 := by omega
      have hiff : (k + 1 ≤ a ∧ a < k + 1 + bs.length) ↔ (k ≤ a ∧ a < k + (b :: bs).length) := by rw [List.length_cons]; omega
      rw [if_neg (Nat.ne_of_gt hgt), hnext, List.getD_cons_succ]
      simp only [hiff]

/-- Memory at reset lists two bytes alone. -/
theorem memGet_resetMem {a : Nat} (hbase : a ≠ Config.queue0Ctl + 33) (hunits : a ≠ Config.queue0Ctl + 41) : memGet resetMem a = 0 := by
  simp only [resetMem, memGet, hbase, hunits, if_false, ite_self]

end Sys2Proof.Machine

namespace Sys2Proof.Claims
open Sys2Proof.Machine

/-- Settles O12, by induction on the bytes written. -/
theorem readAfterWrite : Obligations.ReadAfterWrite :=
  fun s k bs hwf a => memGet_memWrite (m := s.mem) hwf k bs a

/-- Settles O41: the two cells of queue 0's control block are all that reset memory lists. -/
theorem resetMemory : Obligations.ResetMemory :=
  ⟨rfl, by decide, by decide, by decide, fun _ => memGet_resetMem⟩

end Sys2Proof.Claims
end

section
/-! PROOF. The operations that leave memory as it was, in the order of the model's files. An operation that writes memory has its lemma
`_wf` in the sections below. -/

namespace Sys2Proof.Machine

theorem State.foldl_mem {α : Type} {f : State → α → State} (hf : ∀ s a, (f s a).mem = s.mem) (l : List α) (s : State) :
    (l.foldl f s).mem = s.mem := by
  induction l generalizing s with
  | nil => rfl
  | cons a l ih => rw [List.foldl_cons, ih, hf]

@[simp] theorem State.ite_mem {c : Prop} [Decidable c] (a b : State) : (if c then a else b).mem = if c then a.mem else b.mem := apply_ite ..

/-! ### Machine/Lookup -/

@[simp] theorem State.markBad_mem (s : State) (k size : Nat) : (s.markBad k size).mem = s.mem := by simp [State.markBad]

/-! ### Machine/Nodes -/

@[simp] theorem State.modGroup_mem (s : State) (gid : Nat) (f : Group → Group) : (s.modGroup gid f).mem = s.mem := rfl

@[simp] theorem State.setNodeSnap_mem (s : State) (gid n : Nat) (x : NodeSnap) : (s.setNodeSnap gid n x).mem = s.mem := by
  unfold State.setNodeSnap
  repeat' split
  all_goals simp

@[simp] theorem State.recount_mem (s : State) (gid : Nat) (colour : BitVec 1) : (s.recount gid colour).mem = s.mem := by
  simp [State.recount, State.foldl_mem]

@[simp] theorem State.recolour_mem (s : State) (gid : Nat) (c : BitVec 1) : (s.recolour gid c).mem = s.mem := rfl

@[simp] theorem State.shutLeases_mem (s : State) (gid d : Nat) : (s.shutLeases gid d).mem = s.mem := rfl

@[simp] theorem State.openLeases_mem (s : State) (gid : Nat) : (s.openLeases gid).mem = s.mem := rfl

@[simp] theorem State.freePre_mem (s : State) (gid sid : Nat) : (s.freePre gid sid).mem = s.mem := rfl

@[simp] theorem State.dropSnapshot_mem (s : State) (gid : Nat) (how : SnapState) : (s.dropSnapshot gid how).mem = s.mem := by
  unfold State.dropSnapshot
  split
  · rfl
  · simp only [State.recount_mem, State.recolour_mem]
    rw [State.foldl_mem (by intros; rfl)]
    simp

@[simp] theorem State.sealPart_mem (s : State) (pid : Nat) (fault : Bool) : (s.sealPart pid fault).mem = s.mem := by
  unfold State.sealPart
  split
  · rfl
  · split
    · rfl
    · rw [State.foldl_mem (by intros; rfl)]
      simp

@[simp] theorem State.noteSeal_mem (s : State) (c : Containment) : (s.noteSeal c).mem = s.mem := by simp [State.noteSeal]

@[simp] theorem State.seal_mem (s : State) (pid : Nat) (cause place : Nat) (record : List Word) :
    (s.seal pid cause place record).mem = s.mem := by
  unfold State.seal
  dsimp only
  repeat' split
  all_goals simp [State.foldl_mem]

@[simp] theorem State.consumeBad_mem (s : State) (t k : Nat) (record : List Word) : (s.consumeBad t k record).mem = s.mem := by
  unfold State.consumeBad
  dsimp only
  repeat' split
  all_goals simp

/-! ### Machine/Mem -/

@[simp] theorem State.saveBlock_mem (s : State) (k : Nat) : (s.saveBlock k).mem = s.mem := by
  unfold State.saveBlock
  dsimp only
  repeat' split
  all_goals simp

@[simp] theorem State.setFull_mem (s : State) (g : Nat) : (s.setFull g).mem = s.mem := by simp [State.setFull]

@[simp] theorem State.clearFull_mem (s : State) (g : Nat) : (s.clearFull g).mem = s.mem := by simp [State.clearFull]

@[simp] theorem State.setFulls_mem (s : State) (gs : List Nat) : (s.setFulls gs).mem = s.mem := by simp [State.setFulls, State.foldl_mem]

@[simp] theorem State.clearFulls_mem (s : State) (gs : List Nat) : (s.clearFulls gs).mem = s.mem := by
  simp [State.clearFulls, State.foldl_mem]

/-! ### Machine/Operands -/

@[simp] theorem State.fillTlb_mem (s : State) (t va : Nat) : (s.fillTlb t va).mem = s.mem := by
  unfold State.fillTlb
  split <;> simp

@[simp] theorem State.touch_mem (s : State) (t : Nat) (a : Addr) (n : Nat) : (s.touch t a n).mem = s.mem := by
  simp [State.touch, State.foldl_mem]

/-! ### Machine/Landing -/

@[simp] theorem State.freeSlot_mem (s : State) (t key : Nat) : (s.freeSlot t key).mem = s.mem := by
  unfold State.freeSlot
  split <;> simp

@[simp] theorem State.modEntry_mem (s : State) (t key : Nat) (f : Entry → Entry) : (s.modEntry t key f).mem = s.mem := rfl

@[simp] theorem State.toHead_mem (s : State) (t key : Nat) (f : Entry → Entry) : (s.toHead t key f).mem = s.mem := by
  unfold State.toHead
  split <;> simp

@[simp] theorem State.keepArrival_mem (s : State) (t : Nat) (a : Arrival) : (s.keepArrival t a).mem = s.mem := rfl

@[simp] theorem State.dispatch_mem (s : State) (t : Nat) : (s.dispatch t).mem = s.mem := by
  unfold State.dispatch
  split <;> simp

/-! ### Machine/Send -/

@[simp] theorem State.request_mem (s : State) (t c : Nat) (r : Request) (after : List Nat) : (s.request t c r after).mem = s.mem := rfl

@[simp] theorem State.sendNow_mem (s : State) (t : Nat) (h : Header) (b : Body) (after : List Nat) : (s.sendNow t h b after).mem = s.mem := rfl

@[simp] theorem State.launchLater_mem (s : State) (t : Nat) (cls : BitVec 8) (prio : BitVec 2) (ftag : BitVec 12) (ws : List Word) :
    (s.launchLater t cls prio ftag ws).mem = s.mem := rfl

@[simp] theorem State.tileReply_mem (s : State) (t : Nat) (h : Header) (kind : BitVec 4) (b : Body) :
    (s.tileReply t h kind b).mem = s.mem := rfl

@[simp] theorem State.dataUpdate_mem (s : State) (t cid : Nat) (amount : Word) (ftag : BitVec 12) (reply : Option Msg) :
    (s.dataUpdate t cid amount ftag reply).mem = s.mem := rfl

/-! ### Machine/Cut -/

@[simp] theorem State.emit_mem (s : State) (n : Nat) (m : Msg) : (s.emit n m).mem = s.mem := by
  unfold State.emit
  repeat' split
  all_goals simp

@[simp] theorem State.capture_mem (s : State) (gid n : Nat) : (s.capture gid n).mem = s.mem := by
  unfold State.capture
  repeat' split
  all_goals simp

@[simp] theorem State.cut_mem (s : State) (gid n sid : Nat) : (s.cut gid n sid).mem = s.mem := by
  unfold State.cut
  dsimp only
  repeat' split
  all_goals simp [State.foldl_mem]

@[simp] theorem State.startSnapshot_mem (s : State) (gid node : Nat) (asked : Option (Nat × Nat)) :
    (s.startSnapshot gid node asked).mem = s.mem := by
  unfold State.startSnapshot
  split <;> simp

@[simp] theorem State.onInject_mem (s : State) (gid n : Nat) (h : Header) (b : Body) : (s.onInject gid n h b).1.mem = s.mem := by
  unfold State.onInject
  dsimp only
  split <;> simp

@[simp] theorem State.savePre_mem (s : State) (gid d pa sid : Nat) : (s.savePre gid d pa sid).mem = s.mem := by
  unfold State.savePre
  dsimp only
  repeat' split
  all_goals simp

@[simp] theorem State.markDirty_mem (s : State) (gid d pa : Nat) (old : Bool) : (s.markDirty gid d pa old).mem = s.mem := rfl

@[simp] theorem State.ringDoorbells_mem (s : State) (k n : Nat) : (s.ringDoorbells k n).mem = s.mem := by
  simp [State.ringDoorbells, State.foldl_mem]

/-! ### Machine/Ops -/

@[simp] theorem State.retire_mem (s : State) (len : Nat) (f : Ctx → Ctx) : (s.retire len f).mem = s.mem := rfl

@[simp] theorem State.retireG_mem (s : State) (len : Nat) (d : Reg) (w : Word) : (s.retireG len d w).mem = s.mem := rfl

@[simp] theorem State.waitFor_mem (s : State) (c : Cond) : (s.waitFor c).mem = s.mem := rfl

@[simp] theorem State.dropWaiters_mem (s : State) (t : Nat) (tags : List Nat) : (s.dropWaiters t tags).mem = s.mem := by
  simp [State.dropWaiters, State.foldl_mem]

@[simp] theorem State.clientRequest_mem (s : State) (t : Nat) (p : LockPend) (form : LockForm) (mode : BitVec 3) (op : LockOp) :
    (s.clientRequest t p form mode op).mem = s.mem := rfl

@[simp] theorem State.cancelPend_mem (s : State) (t : Nat) (p : LockPend) : (s.cancelPend t p).mem = s.mem := by simp [State.cancelPend]

@[simp] theorem State.dropWaits_mem (s : State) (t c : Nat) : (s.dropWaits t c).mem = s.mem := by
  unfold State.dropWaits
  split <;> simp

@[simp] theorem State.endLate_mem (s : State) (t c : Nat) : (s.endLate t c).mem = s.mem := by simp [State.endLate, State.foldl_mem]

@[simp] theorem State.endConsumed_mem (s : State) (t c : Nat) : (s.endConsumed t c).mem = s.mem := by simp [State.endConsumed]

@[simp] theorem State.endReturned_mem (s : State) (t c : Nat) (f : Entry → Entry) : (s.endReturned t c f).mem = s.mem := by
  simp [State.endReturned]

@[simp] theorem State.report_mem (s : State) (t : Nat) (ftag : BitVec 12) (record : List Word) (after : List Nat) :
    (s.report t ftag record after).mem = s.mem := by
  simp [State.report]

@[simp] theorem State.trapFinal_mem (s : State) (t c : Nat) (tr : Trap) (pc : Addr) (insn : Nat) :
    (s.trapFinal t c tr pc insn).mem = s.mem := by
  unfold State.trapFinal
  split <;> simp

@[simp] theorem State.trapXlateFirst_mem (s : State) (t c : Nat) (tr : Trap) (pc : Addr) (insn : Nat) (write : Bool) :
    (s.trapXlateFirst t c tr pc insn write).mem = s.mem := by
  simp [State.trapXlateFirst]

@[simp] theorem State.mcheck_mem (s : State) (t c key : Nat) (a pc : Addr) (insn : Nat) : (s.mcheck t c key a pc insn).mem = s.mem := by
  simp [State.mcheck]

@[simp] theorem State.takeTrap_mem (s : State) (t c : Nat) (tr : Trap) (pc : Addr) (insn : Nat) : (s.takeTrap t c tr pc insn).mem = s.mem := by
  simp [State.takeTrap]

@[simp] theorem State.trap_mem (s : State) (tr : Trap) : (s.trap tr).mem = s.mem := by simp [State.trap]

@[simp] theorem State.trapBad_mem (s : State) (k : Nat) (a : Addr) : (s.trapBad k a).mem = s.mem := by simp [State.trapBad]

@[simp] theorem State.emptyTrap_mem (s : State) (t c : Nat) (ea : Addr) : (s.emptyTrap t c ea).mem = s.mem := by simp [State.emptyTrap]

@[simp] theorem State.finishCommit_mem (s : State) (t c : Nat) (x : Ending) : (s.finishCommit t c x).mem = s.mem := by
  unfold State.finishCommit
  split <;> simp

@[simp] theorem State.commitSends_mem (s : State) (t c : Nat) (e : Ending) : (s.commitSends t c e).mem = s.mem := by
  simp [State.commitSends]

@[simp] theorem State.deliver_mem (s : State) (t tag : Nat) (v : RepVal) : (s.deliver t tag v).mem = s.mem := by
  unfold State.deliver
  dsimp only
  repeat' split
  all_goals simp

@[simp] theorem State.awaitReplies_mem (s : State) (tags : List Nat) (fin : Fin) (ea : Addr) (len : Nat) :
    (s.awaitReplies tags fin ea len).mem = s.mem := rfl

/-! ### Machine/Home -/

@[simp] theorem State.consumedFor_mem (s : State) (h : Header) (v : RepVal) : (s.consumedFor h v).mem = s.mem := by
  unfold State.consumedFor
  split <;> simp

@[simp] theorem State.answer_mem (s : State) (t : Nat) (h : Header) (op : MemOp) (tag : Nat) (v : RepVal) :
    (s.answer t h op tag v).mem = s.mem := by
  simp [State.answer]

@[simp] theorem State.recall_mem (s : State) (d : Nat) (ls : List HomeLease) : (s.recall d ls).mem = s.mem := rfl

@[simp] theorem State.killCmd_mem (s : State) (t : Nat) (matrix : Bool) (seq k : Nat) : (s.killCmd t matrix seq k).mem = s.mem := by
  simp [State.killCmd]

@[simp] theorem State.engineReply_mem (s : State) (t : Nat) (matrix : Bool) (seq tag : Nat) (v : RepVal) :
    (s.engineReply t matrix seq tag v).mem = s.mem := by
  unfold State.engineReply
  split <;> simp

@[simp] theorem State.recallFor_mem (s : State) (t : Nat) (keys : List Nat) : (s.recallFor t keys).mem = s.mem :=
  State.foldl_mem (by intros; rfl) _ _

@[simp] theorem State.completeOwn_mem (s : State) (len : Nat) (fin : Fin) (ea : Addr) (sp : Spot) (v : RepVal) :
    (s.completeOwn len fin ea sp v).mem = s.mem := by
  unfold State.completeOwn
  split <;> simp

@[simp] theorem State.accessFar_mem (s : State) (len : Nat) (p : Piece) (op : MemOp) (ea : Addr) (fin : Fin) (wait rel : Bool) :
    (s.accessFar len p op ea fin wait rel).mem = s.mem := by
  simp [State.accessFar]

/-! ### Machine/Engine -/

@[simp] theorem State.postCounter_mem (s : State) (t : Nat) (matrix : Bool) (a : Action) : (s.postCounter t matrix a).mem = s.mem := by
  unfold State.postCounter
  dsimp only
  split <;> simp

@[simp] theorem State.engineRequest_mem (s : State) (t : Nat) (matrix : Bool) (seq : Nat) (ftag : BitVec 12) (p : Piece) (op : MemOp) :
    (s.engineRequest t matrix seq ftag p op).mem = s.mem := rfl

@[simp] theorem State.dropLeave_mem (s : State) (t : Nat) (matrix : Bool) (seq : Nat) : (s.dropLeave t matrix seq).mem = s.mem := rfl

@[simp] theorem State.notify_mem (s : State) (t : Nat) (k : Cmd) : (s.notify t k).mem = s.mem := by
  unfold State.notify
  repeat' split
  all_goals simp

@[simp] theorem State.cmdEffects_mem (s : State) (t : Nat) (matrix : Bool) (k : Cmd) (r : RunResult) :
    (s.cmdEffects t matrix k r).mem = s.mem := by
  simp [State.cmdEffects]

@[simp] theorem State.runEnded_mem (s : State) (t : Nat) (x : Nat) : (s.runEnded t x).mem = s.mem := by
  induction x generalizing s with
  | zero => rfl
  | succ n ih =>
    unfold State.runEnded
    split
    · dsimp only
      rw [ih]
      split <;> simp
    · rfl

@[simp] theorem State.askLeave_mem (s : State) (t : Nat) (matrix : Bool) (k : Cmd) (mw : Nat) : (s.askLeave t matrix k mw).mem = s.mem := rfl

@[simp] theorem State.askXlate_mem (s : State) (t : Nat) (matrix : Bool) (k : Cmd) (va : Addr) (write : Bool) :
    (s.askXlate t matrix k va write).mem = s.mem := rfl

@[simp] theorem State.failCmd_mem (s : State) (t : Nat) (matrix : Bool) (seq code : Nat) : (s.failCmd t matrix seq code).mem = s.mem := rfl

/-! ### Machine/Ctrl -/

@[simp] theorem State.requeue_mem (s : State) : s.requeue.mem = s.mem := by
  unfold State.requeue
  repeat' split
  all_goals simp

@[simp] theorem State.writeStateReg_mem (s : State) (e : StateReg) (w : Word) : (s.writeStateReg e w).mem = s.mem := by
  simp [State.writeStateReg]

/-! ### Machine/Sending -/

@[simp] theorem State.bufferSend_mem (s : State) (cls : BitVec 8) (dests : List (BitVec 27)) (words : List Word) :
    (s.bufferSend cls dests words).mem = s.mem := by
  simp [State.bufferSend]

/-! ### Machine/Eng -/

@[simp] theorem State.enterRecord_mem (s : State) (matrix : Bool) (d : Reg) (r : List Word) : (s.enterRecord matrix d r).mem = s.mem := by
  simp [State.enterRecord]

@[simp] theorem State.engineWait_mem (s : State) (matrix : Bool) (n : Word) : (s.engineWait matrix n).mem = s.mem := by
  simp [State.engineWait]

@[simp] theorem State.engineStat_mem (s : State) (matrix : Bool) (d : Reg) (n : Word) : (s.engineStat matrix d n).mem = s.mem := by
  simp [State.engineStat]

/-! ### Machine/Newel -/

@[simp] theorem State.newelSend_mem (s : State) (d : Nat) (ms : List Msg) : (s.newelSend d ms).mem = s.mem := rfl

@[simp] theorem State.settleLock_mem (s : State) (d : Nat) (e : LockEntry) : (s.settleLock d e).mem = s.mem := rfl

@[simp] theorem State.homeAcquire_mem (s : State) (d : Nat) (h : Header) (r : LockReq) (try_ : Bool) (m : BitVec 3) :
    (s.homeAcquire d h r try_ m).mem = s.mem := by
  simp [State.homeAcquire]

@[simp] theorem State.homeConvert_mem (s : State) (d : Nat) (h : Header) (r : LockReq) (m : BitVec 3) :
    (s.homeConvert d h r m).mem = s.mem := by
  unfold State.homeConvert
  dsimp only
  split <;> simp

@[simp] theorem State.homeRelease_mem (s : State) (d : Nat) (h : Header) (r : LockReq) : (s.homeRelease d h r).mem = s.mem := rfl

@[simp] theorem State.homeCancel_mem (s : State) (d : Nat) (h : Header) (r : LockReq) : (s.homeCancel d h r).mem = s.mem := rfl

@[simp] theorem State.homeEnd_mem (s : State) (d : Nat) (h : Header) (r : LockReq) : (s.homeEnd d h r).mem = s.mem := by
  unfold State.homeEnd
  rw [State.newelSend_mem, State.foldl_mem (by simp)]

@[simp] theorem State.homeLease_mem (s : State) (d : Nat) (f : Flit) (r : LockReq) (m : BitVec 3) : (s.homeLease d f r m).mem = s.mem := by
  unfold State.homeLease
  dsimp only
  repeat' split
  all_goals simp

@[simp] theorem State.leaseRecalled_mem (s : State) (d : Nat) (h : Header) (region serial : Nat) :
    (s.leaseRecalled d h region serial).mem = s.mem := rfl

@[simp] theorem State.leaseShared_mem (s : State) (d : Nat) (h : Header) (region : Nat) (shared : Bool) :
    (s.leaseShared d h region shared).mem = s.mem := rfl

/-! ### Machine/Lock -/

@[simp] theorem State.modLocks_mem (s : State) (t : Nat) (f : LockClient → LockClient) : (s.modLocks t f).mem = s.mem := rfl

@[simp] theorem State.status_mem (s : State) (d : Reg) (code : Nat) : (s.status d code).mem = s.mem := rfl

@[simp] theorem State.txbeg_mem (s : State) (d : Reg) (ts : Word) : (s.txbeg d ts).mem = s.mem := by
  unfold State.txbeg
  dsimp only
  split <;> simp

@[simp] theorem State.txcommit_mem (s : State) (d : Reg) : (s.txcommit d).mem = s.mem := by
  unfold State.txcommit
  repeat' split
  all_goals simp

@[simp] theorem State.sendLock_mem (s : State) (slot : Nat) (x : Tx) (name : Word) (m : BitVec 3) (form : LockForm) (home : Nat) (op : LockOp) :
    (s.sendLock slot x name m form home op).mem = s.mem := rfl

@[simp] theorem State.sendLocks_mem (s : State) (slot : Nat) (x : Tx) (form : LockForm) (op : LockOp) (homes : List Nat) :
    (s.sendLocks slot x form op homes).mem = s.mem :=
  State.foldl_mem (by intros; rfl) _ _

@[simp] theorem State.awaitLocks_mem (s : State) (form : LockForm) (tags : List Nat) (d : Reg) (status : Nat) :
    (s.awaitLocks form tags d status).mem = s.mem := rfl

@[simp] theorem State.lockAcquire_mem (s : State) (d : Reg) (name mode : Word) (form : LockForm) :
    (s.lockAcquire d name mode form).mem = s.mem := by
  unfold State.lockAcquire
  repeat' split
  all_goals simp

@[simp] theorem State.lockConvert_mem (s : State) (d : Reg) (name mode : Word) : (s.lockConvert d name mode).mem = s.mem := by
  unfold State.lockConvert
  dsimp only
  repeat' split
  all_goals simp

@[simp] theorem State.resumeLock_mem (s : State) (t tag status : Nat) : (s.resumeLock t tag status).mem = s.mem := by
  unfold State.resumeLock
  dsimp only
  repeat' split
  all_goals simp

@[simp] theorem State.dropConversions_mem (s : State) (slot : Nat) (name : Word) : (s.dropConversions slot name).mem = s.mem := by
  simp [State.dropConversions, State.foldl_mem]

@[simp] theorem State.lockRelease_mem (s : State) (d : Reg) (name : Word) : (s.lockRelease d name).mem = s.mem := by
  unfold State.lockRelease
  dsimp only
  repeat' split
  all_goals simp

@[simp] theorem State.modRecord_mem (s : State) (t : Nat) (p : LockPend) (f : HeldLock → Option HeldLock) :
    (s.modRecord t p f).mem = s.mem := by
  unfold State.modRecord
  split <;> simp

@[simp] theorem State.renewLock_mem (s : State) (t tag new : Nat) : (s.renewLock t tag new).mem = s.mem := by
  unfold State.renewLock
  split <;> simp

@[simp] theorem State.undone_mem (s : State) (t tag status : Nat) (p : LockPend) : (s.undone t tag status p).mem = s.mem := by
  simp [State.undone]

@[simp] theorem State.lockMessage_mem (s : State) (t : Nat) (p : LockPend) (status : Nat) : (s.lockMessage t p status).mem = s.mem := by
  unfold State.lockMessage
  split <;> simp

@[simp] theorem State.lockAnswer_mem (s : State) (t tag status grant : Nat) : (s.lockAnswer t tag status grant).mem = s.mem := by
  unfold State.lockAnswer
  repeat' split
  all_goals simp

@[simp] theorem State.dropTx_mem (s : State) (t slot : Nat) (handle : Word) (status : Nat) : (s.dropTx t slot handle status).mem = s.mem := by
  simp [State.dropTx, State.foldl_mem]

@[simp] theorem State.txend_mem (s : State) (d : Reg) : (s.txend d).mem = s.mem := by
  unfold State.txend
  split <;> simp

@[simp] theorem State.revoke_mem (s : State) (t slot : Nat) (x : Tx) : (s.revoke t slot x).mem = s.mem := by
  unfold State.revoke
  rw [State.foldl_mem (by simp)]
  simp

@[simp] theorem State.lockWound_mem (s : State) (t : Nat) (name ts handle : Word) : (s.lockWound t name ts handle).mem = s.mem := by
  unfold State.lockWound
  repeat' split
  all_goals simp

@[simp] theorem State.lockClientFlit_mem (s : State) (t : Nat) (r : LockRep) : (s.lockClientFlit t r).mem = s.mem := by
  unfold State.lockClientFlit
  split <;> simp

@[simp] theorem State.lkmat_mem (s : State) (d : Reg) (mx : Word) : (s.lkmat d mx).mem = s.mem := by simp [State.lkmat]

@[simp] theorem State.sendLease_mem (s : State) (name : Nat) (p : Piece) (form : LockForm) (op : LockOp) :
    (s.sendLease name p form op).mem = s.mem := rfl

/-! ### Machine/Sys -/

@[simp] theorem State.dropTlbs_mem (s : State) (asid : BitVec 16) (all : Bool) (va : Nat) : (s.dropTlbs asid all va).mem = s.mem := rfl

@[simp] theorem State.injected_mem (s : State) : s.injected.mem = s.mem := rfl

@[simp] theorem State.markPiece_mem (s : State) (p : Piece) : (s.markPiece p).mem = s.mem := by simp [State.markPiece, State.foldl_mem]

/-! ### Machine/Serve -/

@[simp] theorem State.absorb_mem (s : State) (pid : Nat) : (s.absorb pid).mem = s.mem := by simp [State.absorb]

@[simp] theorem State.absorbed_mem (s : State) (t : Nat) (f : Flit) : (s.absorbed t f).mem = s.mem := by
  unfold State.absorbed
  repeat' split
  all_goals simp

@[simp] theorem State.setParts_mem (s : State) (n : Nat) (ps : List Partly) : (s.setParts n ps).mem = s.mem := by
  unfold State.setParts
  repeat' split
  all_goals simp

@[simp] theorem State.countAccepted_mem (s : State) (t : Nat) (f : Flit) (first : Bool) : (s.countAccepted t f first).mem = s.mem := by
  simp [State.countAccepted]

@[simp] theorem State.markerAt_mem (s : State) (gid n : Nat) (f : Flit) : (s.markerAt gid n f).mem = s.mem := by
  unfold State.markerAt
  repeat' split
  all_goals simp

@[simp] theorem State.trigAt_mem (s : State) (f : Flit) : (s.trigAt f).mem = s.mem := by
  unfold State.trigAt
  split <;> simp

@[simp] theorem State.flitFailure_mem (s : State) (d : Nat) (f : Flit) : (s.flitFailure d f).mem = s.mem := by
  simp [State.flitFailure, State.foldl_mem]

/-! ### Machine/Arrive -/

@[simp] theorem State.hlimit_mem (s : State) (t c : Nat) : (s.hlimit t c).mem = s.mem := by
  unfold State.hlimit
  split <;> simp

@[simp] theorem State.joinDies_mem (s : State) (gid : Nat) : (s.joinDies gid).mem = s.mem := by
  unfold State.joinDies
  dsimp only
  repeat' split
  all_goals simp [State.foldl_mem]

@[simp] theorem State.joinDiesOf_mem (s : State) (t : Nat) : (s.joinDiesOf t).mem = s.mem := by
  unfold State.joinDiesOf
  split <;> simp

@[simp] theorem State.declined_mem (s : State) (x : XlateReq) (key : Nat) : (s.declined x key).mem = s.mem := by
  unfold State.declined
  repeat' split
  all_goals simp

@[simp] theorem State.popAction_mem (s : State) (t : Nat) : (s.popAction t).mem = s.mem := rfl

@[simp] theorem State.applyReserved_mem (s : State) (t : Nat) : (s.applyReserved t).mem = s.mem := by
  unfold State.applyReserved
  dsimp only
  repeat' split
  all_goals simp

/-! ### Machine/Branch -/

@[simp] theorem State.jumpTo_mem (s : State) (target : Addr) (f : Ctx → Ctx) : (s.jumpTo target f).mem = s.mem := rfl

@[simp] theorem State.branchIf_mem (s : State) (len : Nat) (taken : Bool) (target : Addr) : (s.branchIf len taken target).mem = s.mem := by
  simp [State.branchIf]

@[simp] theorem State.jumpReg_mem (s : State) (t : Word) (f : Ctx → Ctx) : (s.jumpReg t f).mem = s.mem := by simp [State.jumpReg]

@[simp] theorem State.fbranch_mem (s : State) (c : FCond) (p : Prec) (x y : Reg) (off : BitVec 12) : (s.fbranch c p x y off).mem = s.mem := by
  simp [State.fbranch]

@[simp] theorem State.enterLoop_mem (s : State) (m : Word) (len : Nat) (level1 : Bool) : (s.enterLoop m len level1).mem = s.mem := by
  simp [State.enterLoop]

/-! ### Machine/Cnt -/

@[simp] theorem State.modCounter_mem (s : State) (f : CounterUnit → CounterUnit) : (s.modCounter f).mem = s.mem := rfl

/-! ### Machine/Govern -/

@[simp] theorem State.lockEnd_mem (s : State) (t c : Nat) (form : LockForm) : (s.lockEnd t c form).mem = s.mem := by
  unfold State.lockEnd
  split <;> simp

/-! ### Machine/Router -/

@[simp] theorem State.putTransit_mem (s : State) (pl r : Nat) (f : Flit) : (s.putTransit pl r f).mem = s.mem := rfl

@[simp] theorem State.toHost_mem (s : State) (f : Flit) : (s.toHost f).mem = s.mem := by
  unfold State.toHost
  split <;> simp

@[simp] theorem State.countDeflection_mem (s : State) (f : Flit) : (s.countDeflection f).mem = s.mem := rfl

@[simp] theorem State.withdraw_mem (s : State) (pl : Nat) (rest : List Flit) (x : Source) : (s.withdraw pl rest x).mem = s.mem := by
  unfold State.withdraw
  split <;> simp

@[simp] theorem State.disarm_mem (s : State) (x : Source) (x2 : Flit) : (s.disarm x x2).1.mem = s.mem := by
  unfold State.disarm
  repeat' split
  all_goals simp

@[simp] theorem State.injectFlit_mem (s : State) (pl : Nat) (src : Source) (x : Flit ⊕ Msg) : (s.injectFlit pl src x).1.mem = s.mem := by
  unfold State.injectFlit
  dsimp only
  repeat' split
  all_goals simp

/-! ### Machine/Snaps -/

@[simp] theorem State.closeLogs_mem (s : State) (gid : Nat) : (s.closeLogs gid).mem = s.mem := by simp [State.closeLogs, State.foldl_mem]

@[simp] theorem State.completeSnapshot_mem (s : State) (gid : Nat) : (s.completeSnapshot gid).mem = s.mem := by
  unfold State.completeSnapshot
  dsimp only
  rw [State.foldl_mem (by intros; rfl)]
  simp [State.foldl_mem]

@[simp] theorem State.tryComplete_mem (s : State) (gid : Nat) : (s.tryComplete gid).mem = s.mem := by
  unfold State.tryComplete
  dsimp only
  repeat' split
  all_goals simp

@[simp] theorem State.addRoll_mem (s : State) (gid sid : Nat) (remote : Bool) (asked : Option (Nat × Nat)) :
    (s.addRoll gid sid remote asked).mem = s.mem := rfl

@[simp] theorem State.autoRoll_mem (s : State) (gid : Nat) : (s.autoRoll gid).mem = s.mem := by
  unfold State.autoRoll
  repeat' split
  all_goals simp

@[simp] theorem State.releaseLeases_mem (s : State) (gid : Nat) : (s.releaseLeases gid).mem = s.mem := by
  unfold State.releaseLeases
  refine State.foldl_mem (fun s d => ?_) _ _
  rw [State.foldl_mem (by intros; rfl)]
  rfl

@[simp] theorem State.clearGroup_mem (s : State) (gid : Nat) : (s.clearGroup gid).mem = s.mem := by
  unfold State.clearGroup
  rw [State.modVest_mem, State.releaseLeases_mem]

@[simp] theorem State.restoreVest_mem (s : State) (q : Snapshot) : (s.restoreVest q).mem = s.mem := by
  unfold State.restoreVest
  rw [State.modVest_mem, State.foldl_mem (by intros; rfl), State.foldl_mem (by simp)]

@[simp] theorem State.replayOne_mem (s : State) (i : Ingress) : (s.replayOne i).mem = s.mem := by simp [State.replayOne]

@[simp] theorem State.unsealGroup_mem (s : State) (gid : Nat) (colour : BitVec 1) : (s.unsealGroup gid colour).mem = s.mem := by
  simp [State.unsealGroup, State.foldl_mem]

/-! ### Machine/Groups -/

@[simp] theorem State.newGroup_mem (s : State) (gids : List Nat) (g : Nat) (comp : List Nat) : (s.newGroup gids g comp).mem = s.mem := by
  unfold State.newGroup
  dsimp only
  repeat' split
  all_goals simp [State.foldl_mem]

@[simp] theorem State.dropGroups_mem (s : State) : s.dropGroups.mem = s.mem := rfl

@[simp] theorem State.regroup_mem (s : State) : s.regroup.mem = s.mem := by
  unfold State.regroup
  rw [State.dropGroups_mem]
  refine State.foldl_mem (fun s1 comp => ?_) _ _
  dsimp only
  split
  · rfl
  · split <;> simp

/-! ### Machine/Move -/

@[simp] theorem State.modMig_mem (s : State) (t : Nat) (f : Migration → Migration) : (s.modMig t f).mem = s.mem := rfl

@[simp] theorem State.remap_mem (s : State) (m : Migration) : (s.remap m).mem = s.mem := rfl

@[simp] theorem State.startWaiting_mem (s : State) (gid : Nat) : (s.startWaiting gid).mem = s.mem := by
  unfold State.startWaiting
  repeat' split
  all_goals simp

/-! ### Machine/Queues -/

@[simp] theorem State.modQueue_mem (s : State) (n : Nat) (f : Queue → Queue) : (s.modQueue n f).mem = s.mem := by
  unfold State.modQueue
  split <;> simp

@[simp] theorem State.push_mem (s : State) (n : Nat) (b : List Byte) : (s.push n b).mem = s.mem := by simp [State.push]

@[simp] theorem State.markPacket_mem (s : State) (p : Pkt) (m : Nat) : (s.markPacket p m).mem = s.mem := by simp [State.markPacket]

/-! ### Machine/Launch -/

@[simp] theorem State.vestSend_mem (s : State) (pid : Nat) (h : Header) (ws : List Word) (queue : Nat) (replay : Bool) :
    (s.vestSend pid h ws queue replay).mem = s.mem := by
  unfold State.vestSend
  split <;> simp

@[simp] theorem State.sendRecord_mem (s : State) (pid tag queue : Nat) (m : MsgRec) : (s.sendRecord pid tag queue m).mem = s.mem := by
  unfold State.sendRecord
  repeat' split
  all_goals simp

@[simp] theorem State.launch_mem (s : State) (k : Pkt) : (s.launch k).1.mem = s.mem := by
  unfold State.launch
  dsimp only
  repeat' split
  all_goals simp [State.foldl_mem]

@[simp] theorem State.waittag_mem (s : State) (k : Pkt) : (s.waittag k).1.mem = s.mem := by
  unfold State.waittag
  dsimp only
  repeat' split
  all_goals simp

@[simp] theorem State.signal_mem (s : State) (k : Pkt) : (s.signal k).1.mem = s.mem := by
  unfold State.signal
  dsimp only
  repeat' split
  all_goals simp

@[simp] theorem State.sweepOne_mem (s : State) (pid : Nat) (t : Tag) : (s.sweepOne pid t).mem = s.mem := by
  unfold State.sweepOne
  split
  · rfl
  · dsimp only
    split
    · rw [State.modJob_mem, State.foldl_mem (by intros; rfl)]
    · simp

@[simp] theorem State.sweepPart_mem (s : State) (pid : Nat) : (s.sweepPart pid).mem = s.mem := by
  unfold State.sweepPart
  split
  · split
    · exact State.foldl_mem (by simp) _ _
    · rfl
  · rfl

/-! ### Machine/Loader -/

@[simp] theorem State.endWaits_mem (s : State) (p : Partition) (t : Nat) : (s.endWaits p t).mem = s.mem := by
  unfold State.endWaits
  exact State.foldl_mem (by intros; rfl) _ _

@[simp] theorem State.dropForeignWaits_mem (s : State) (p : Partition) : (s.dropForeignWaits p).mem = s.mem := rfl

/-! ### Machine/Link -/

@[simp] theorem State.noteBridge_mem (s : State) : s.noteBridge.mem = s.mem := rfl

@[simp] theorem State.setRoute_mem (s : State) (dst port : Nat) : (s.setRoute dst port).mem = s.mem := by simp [State.setRoute]

/-! ### Machine/Platform -/

@[simp] theorem State.scrubAt_mem (s : State) (k n : Nat) : (s.scrubAt k n).mem = s.mem := rfl

@[simp] theorem State.corrected_mem (s : State) (k : Nat) : (s.corrected k).mem = s.mem := by
  unfold State.corrected
  split <;> simp

@[simp] theorem State.trainPorts_mem (s : State) (links : List (Nat × Nat × Nat × Nat)) : (s.trainPorts links).mem = s.mem := by
  unfold State.trainPorts
  rw [State.noteBridge_mem, State.foldl_mem (by intros; rfl)]

/-! ### Machine/Commands -/

@[simp] theorem State.partDestroy_mem (s : State) (k : Pkt) : (s.partDestroy k).1.mem = s.mem := by
  unfold State.partDestroy
  split
  · rfl
  · split
    · rfl
    · exact State.foldl_mem (by intros; rfl) _ _

@[simp] theorem State.snapshotCmd_mem (s : State) (k : Pkt) : (s.snapshotCmd k).1.mem = s.mem := by
  unfold State.snapshotCmd
  repeat' split
  all_goals simp

@[simp] theorem State.rollback_mem (remote : Bool) (s : State) (k : Pkt) : (State.rollback remote s k).1.mem = s.mem := by
  unfold State.rollback
  dsimp only
  repeat' split
  all_goals simp

@[simp] theorem State.migrateTile_mem (s : State) (k : Pkt) : (s.migrateTile k).1.mem = s.mem := by
  unfold State.migrateTile
  dsimp only
  repeat' split
  all_goals simp

@[simp] theorem State.injecterr_mem (s : State) (k : Pkt) : (s.injecterr k).1.mem = s.mem := by
  unfold State.injecterr
  repeat' split
  all_goals simp

@[simp] theorem State.injectAfter_mem (s : State) (k : Pkt) : (s.injectAfter k).mem = s.mem := by
  unfold State.injectAfter
  repeat' split
  all_goals simp

/-! ### Machine/Copy -/

@[simp] theorem State.readPiece_mem (s : State) (t : Nat) (k : Cmd) (p : Piece) (pos : Nat) : (s.readPiece t k p pos).mem = s.mem := by
  unfold State.readPiece
  repeat' split
  all_goals simp

@[simp] theorem State.beginRows_mem (s : State) (t : Nat) (k : Cmd) (rows : List CopyRow) (code : Nat) :
    (s.beginRows t k rows code).mem = s.mem := by
  simp [State.beginRows, State.foldl_mem]

@[simp] theorem State.startCopy_mem (s : State) (t : Nat) (k : Cmd) : (s.startCopy t k).mem = s.mem := by
  unfold State.startCopy
  dsimp only
  repeat' split
  all_goals simp

/-! ### Machine/Fence -/

@[simp] theorem State.fenceAt_mem (s : State) (sc : Scope) : (s.fenceAt sc).mem = s.mem := by simp [State.fenceAt]

/-! ### Machine/Fop -/

@[simp] theorem State.retireF_mem (s : State) (d : Reg) (x : Nat × Flags) : (s.retireF d x).mem = s.mem := rfl

/-! ### Machine/GetPut -/

@[simp] theorem State.sendPuts_mem (s : State) (bytes : List Byte) (full : Bool) (cnt : Option Word) (ps : List (Piece × Nat)) :
    (s.sendPuts bytes full cnt ps).mem = s.mem := by
  unfold State.sendPuts
  dsimp only
  rw [State.retire_mem]
  split
  · split <;> rfl
  · exact State.foldl_mem (by intros; rfl) _ _

/-! ### Machine/Parked -/

@[simp] theorem State.adoptPark_mem (s : State) (gid : Nat) (p : Park) (q : Snapshot) : (s.adoptPark gid p q).mem = s.mem := rfl

@[simp] theorem State.rollDiscard_mem (s : State) (k : Pkt) : (s.rollDiscard k).1.mem = s.mem := by
  unfold State.rollDiscard
  split <;> simp

/-! ### Machine/Vgs -/

@[simp] theorem State.touchEach_mem (s : State) (as : List Addr) (n : Nat) : (s.touchEach as n).mem = s.mem := by
  simp [State.touchEach, State.foldl_mem]

@[simp] theorem State.readMany_mem (s : State) (ps : List (Piece × Nat)) (fin : Fin) (ea : Addr) : (s.readMany ps fin ea).mem = s.mem := by
  unfold State.readMany
  split
  · rfl
  · dsimp only
    split
    · simp
    · split
      · rfl
      · rw [State.modCur_mem, State.foldl_mem (by intros; rfl)]

@[simp] theorem State.gsTouch_mem (s : State) (t : ElemType) (base : Word) (b : Reg) (k : KReg) : (s.gsTouch t base b k).mem = s.mem := by
  simp [State.gsTouch]

/-! ### Machine/Vred -/

@[simp] theorem State.retireRed_mem (s : State) (d : Reg) (w : Word) (f : Flags) : (s.retireRed d w f).mem = s.mem := rfl

@[simp] theorem State.vrminmax_mem (s : State) (mx : Bool) (t : ElemType) (d a : Reg) (k : KReg) : (s.vrminmax mx t d a k).mem = s.mem := by
  unfold State.vrminmax
  dsimp only
  repeat' split
  all_goals simp

/-! ### Machine/Schedule -/

@[simp] theorem State.turn_mem (s : State) (t c : Nat) : (s.turn t c).mem = s.mem := rfl

@[simp] theorem State.begin_mem (s : State) (w len : Nat) : (s.begin_ w len).mem = s.mem := by simp [State.begin_]

@[simp] theorem State.lateMcheck_mem (s : State) (pc : Addr) (key : Nat) (a : Addr) (rest : List (Addr × Nat × Addr)) :
    (s.lateMcheck pc key a rest).mem = s.mem := by
  simp [State.lateMcheck, State.foldl_mem]

end Sys2Proof.Machine
end

section
/-! PROOF. Memory in canonical form (log entry 1) is kept by writes, by operations at their home, by replies and by the Landing. -/

namespace Sys2Proof.Machine

/-! ### Combining -/

@[simp] theorem memWf_ite {c : Prop} [Decidable c] {a b : List Host.Cell} (ha : memWf a) (hb : memWf b) : memWf (if c then a else b) := by
  split <;> assumption

theorem State.foldl_wf {α : Type} {f : State → α → State} (hf : ∀ s a, memWf s.mem → memWf (f s a).mem) {s : State} (h : memWf s.mem)
    (l : List α) : memWf (l.foldl f s).mem :=
  List.foldlRecOn l f h fun s hs a _ => hf s a hs

/-- `orTrap` comes to its continuation or to a trap, which writes no memory. -/
theorem State.orTrap_wf {α : Type} {s : State} (h : memWf s.mem) {x : Except Trap α} {f : α → State} (hf : ∀ a, memWf (f a).mem) :
    memWf (s.orTrap x f).mem := by
  unfold State.orTrap
  split
  · exact hf _
  · simpa using h

/-- `orLease` comes to its continuation, a trap, or a wait for the leases it recalls. -/
theorem State.orLease_wf {α : Type} {s : State} (h : memWf s.mem) {t : Nat} {as : List (Addr × Nat)} {x : Except Trap α} {f : α → State}
    (hf : ∀ a, memWf (f a).mem) : memWf (s.orLease t as x f).mem := by
  unfold State.orLease
  dsimp only
  rw [State.ite_mem]
  exact memWf_ite (State.orTrap_wf h hf) (by simpa using h)

/-! ### Writes -/

@[simp] theorem State.writeNat_wf {s : State} (h : memWf s.mem) (k n v : Nat) : memWf (s.writeNat k n v).mem := s.write_wf k _ h

@[simp] theorem State.writeHbm_wf {s : State} (h : memWf s.mem) (c : BitVec 1) (pa : Nat) (bs : List Byte) :
    memWf (s.writeHbm c pa bs).mem := by
  unfold State.writeHbm
  split
  · exact s.write_wf pa bs h
  · refine State.write_wf _ pa bs ?_
    dsimp only
    split
    · split <;> simp [State.foldl_mem, h]
    · simp [State.foldl_mem, h]

@[simp] theorem State.writeAt_wf {s : State} (h : memWf s.mem) (c : BitVec 1) (k : Nat) (bs : List Byte) : memWf (s.writeAt c k bs).mem := by
  unfold State.writeAt
  split
  · exact s.write_wf k bs h
  · rw [State.ringDoorbells_mem]
    exact State.foldl_wf (fun s p hs => State.writeHbm_wf hs _ _ _) h _

/-! ### An operation at its home (R113) -/

/-- Where an operation is done, the state it leaves has canonical memory. -/
def Perf.MemWf : Perf → Prop
  | .wait => True
  | .done s _ _ => memWf s.mem

@[simp] theorem Perf.memWf_wait : Perf.wait.MemWf := trivial
@[simp] theorem Perf.memWf_done (s : State) (v : Option RepVal) (w : Bool) : (Perf.done s v w).MemWf ↔ memWf s.mem := Iff.rfl

theorem State.performFe_wf {s : State} (h : memWf s.mem) (op : FeOp) (a : Nat) (w : Word) : (s.performFe op a w).MemWf := by
  unfold State.performFe
  dsimp only
  cases op
  all_goals
    repeat' split
    all_goals simp [h]

theorem State.performRing_wf {s : State} (h : memWf s.mem) (op : RingOp) (a : Nat) (x y : Word) (held : Bool) :
    (s.performRing op a x y held).MemWf := by
  unfold State.performRing
  split
  · exact h
  · exact h
  · dsimp only
    split
    · exact h
    · cases op
      all_goals
        dsimp only
        repeat' split
        all_goals simp [h]

theorem State.performWrite_wf {s : State} (h : memWf s.mem) (hd : Header) (ps : List (Nat × List Byte)) (full : Bool) (cnt : Option Word)
    (tag : Nat) : (s.performWrite hd ps full cnt tag).MemWf := by
  unfold State.performWrite
  have written : ∀ (s : State) (p : Nat × List Byte), memWf s.mem →
      memWf (if full then (s.writeAt hd.colour p.1 p.2).setFulls (granules p.1 p.2.length) else s.writeAt hd.colour p.1 p.2).mem :=
    fun s p hs => by split <;> simp [hs]
  split
  · exact h
  · have h1 := State.foldl_wf written h ps
    dsimp only
    cases cnt with
    | none => exact h1
    | some cid =>
      cases ps.head?.bind fun p => poolTile p.1 with
      | none => exact h1
      | some t => exact h1

theorem State.performAmo_wf {s : State} (h : memWf s.mem) (c : BitVec 1) (op : AmoOp) (size : AmoSize) (a : Nat) (b d : Word) :
    (s.performAmo c op size a b d).MemWf := by
  unfold State.performAmo
  split
  · exact h
  · dsimp only [Perf.memWf_done]
    split
    · exact State.writeAt_wf h _ _ _
    · exact h

theorem State.performLanes_wf {s : State} (h : memWf s.mem) (c : BitVec 1) (t : ElemType) (ls : List (Nat × Word)) :
    (s.performLanes c t ls).MemWf := by
  unfold State.performLanes
  split
  · exact h
  · exact State.foldl_wf (fun s l hs => State.writeAt_wf hs _ _ _) h ls

theorem State.perform_wf {s : State} (h : memWf s.mem) (hd : Header) (tag : Nat) (held : Bool) (op : MemOp) :
    (s.perform hd tag held op).MemWf := by
  cases op with
  | read ps => simp only [State.perform]; split <;> exact h
  | fe o a w => exact State.performFe_wf h o a w
  | vldW a =>
    simp only [State.perform]
    split
    · split <;> exact h
    · trivial
  | write ps full cnt => exact State.performWrite_wf h hd ps full cnt tag
  | amo o size a b c => exact State.performAmo_wf h _ o size a b c
  | addLanes t ls => exact State.performLanes_wf h _ t ls
  | ring o a x y => exact State.performRing_wf h o a x y held

theorem State.perform_done {s s' : State} (h : memWf s.mem) {hd : Header} {tag : Nat} {held : Bool} {op : MemOp} {v : Option RepVal}
    {w : Bool} (he : s.perform hd tag held op = .done s' v w) : memWf s'.mem := by
  have hp := State.perform_wf h hd tag held op
  rwa [he] at hp

/-! ### Waiters and replies (R112, R205) -/

theorem State.nextWaiter_wf {s : State} (h : memWf s.mem) (ws before : List Waiter) {w : Waiter} {p : Perf}
    (he : s.nextWaiter before ws = some (w, p)) : p.MemWf := by
  induction ws generalizing before with
  | nil => simp [State.nextWaiter] at he
  | cons x ws ih =>
    unfold State.nextWaiter at he
    split at he
    · exact ih _ he
    · cases he
      exact State.perform_wf h _ _ _ _

@[simp] theorem State.serveWaiters_wf {s : State} (h : memWf s.mem) (t n : Nat) : memWf (s.serveWaiters t n).mem := by
  induction n generalizing s with
  | zero => exact h
  | succ n ih =>
    unfold State.serveWaiters
    split
    · next w s1 v _ he =>
      have h1 : memWf s1.mem := State.nextWaiter_wf h _ _ he
      dsimp only
      refine ih ?_
      split <;> simpa using h1
    · exact h

@[simp] theorem State.wake_wf {s : State} (h : memWf s.mem) (t : Nat) : memWf (s.wake t).mem := State.serveWaiters_wf h t _

theorem State.serveAtTile_wf {s s' : State} (h : memWf s.mem) {t : Nat} {f : Flit} {tag : Nat} {op : MemOp}
    (he : s.serveAtTile t f tag op = some s') : memWf s'.mem := by
  unfold State.serveAtTile at he
  split at he
  · cases he; simpa using h
  · dsimp only at he
    split at he
    · next s1 v wake hp =>
      have h1 := State.perform_done h hp
      cases he
      split <;> split <;> simp [h1]
    · split at he
      · cases he; simpa using h
      · split at he
        · cases he; exact h
        · split at he
          · cases he; exact h
          · cases he

@[simp] theorem State.landGet_wf {s : State} (h : memWf s.mem) (t : Nat) (o : Outst) (ge : GetEnd) (ps : List (Nat × List Byte)) :
    memWf (s.landGet t o ge ps).mem := by
  have h1 := State.foldl_wf (f := fun s p => (s.write (ge.dst + p.1) p.2).setFulls (granules (ge.dst + p.1) p.2.length))
    (fun s p hs => by simpa using memWf_memWrite hs _ _) h ps
  unfold State.landGet
  split
  · exact State.wake_wf h1 t
  · dsimp only
    split <;> simp [h1]

@[simp] theorem State.finishReply_wf {s : State} (h : memWf s.mem) (t tag : Nat) (v : RepVal) : memWf (s.finishReply t tag v).mem := by
  unfold State.finishReply
  dsimp only
  repeat' split
  all_goals simp [h]

/-! ### The Landing (R74, R75) -/

@[simp] theorem State.writeRecord_wf {s : State} (h : memWf s.mem) (t : Nat) (e : Entry) : memWf (s.writeRecord t e).mem := by
  unfold State.writeRecord
  split
  · split
    · exact h
    · exact s.write_wf _ _ h
  · exact h

@[simp] theorem State.syncRecord_wf {s : State} (h : memWf s.mem) (t key : Nat) : memWf (s.syncRecord t key).mem := by
  unfold State.syncRecord
  split <;> simp [h]

theorem State.place_wf {s s' : State} (h : memWf s.mem) {t : Nat} {e : Entry} (he : s.place t e = some s') : memWf s'.mem := by
  unfold State.place at he
  split at he
  · cases he
  · cases he; simp [h]

theorem State.tryArrival_wf {s s' : State} (h : memWf s.mem) {t : Nat} {a : Arrival} (he : s.tryArrival t a = some s') : memWf s'.mem := by
  unfold State.tryArrival at he
  split at he
  · cases he
  · have h1 := State.place_wf h ‹_›
    cases he
    split <;> simpa using h1

@[simp] theorem State.arrive_wf {s : State} (h : memWf s.mem) (t : Nat) (a : Arrival) : memWf (s.arrive t a).mem := by
  unfold State.arrive
  split
  · exact h
  · split
    · exact State.tryArrival_wf h ‹_›
    · exact h

@[simp] theorem State.retryArrivals_wf {s : State} (h : memWf s.mem) (t : Nat) : memWf (s.retryArrivals t).mem := by
  unfold State.retryArrivals
  refine State.foldl_wf (fun _ a hs => State.arrive_wf hs t a) ?_ _
  exact h

@[simp] theorem State.launchLocal_wf {s : State} (h : memWf s.mem) (t : Nat) (cls : BitVec 8) (prio : BitVec 2) (ftag : BitVec 12)
    (ws : List Word) : memWf (s.launchLocal t cls prio ftag ws).mem := by
  simp [State.launchLocal, h]

theorem State.acceptFlit_wf {s : State} (h : memWf s.mem) {t : Nat} {f : Flit} {r : State × Bool} (he : s.acceptFlit t f = some r) :
    memWf r.1.mem := by
  unfold State.acceptFlit at he
  split at he
  · cases he; simp [h]
  · obtain ⟨s1, h1, rfl⟩ := Option.map_eq_some_iff.mp he
    exact State.place_wf h h1

theorem State.landFlit_wf {s : State} (h : memWf s.mem) {t : Nat} {f : Flit} {r : State × Bool} (he : s.landFlit t f = some r) :
    memWf r.1.mem := by
  unfold State.landFlit at he
  obtain ⟨q, hq, rfl⟩ := Option.map_eq_some_iff.mp he
  rw [State.countAccepted_mem]
  split at hq
  · obtain ⟨x, hx, rfl⟩ := Option.map_eq_some_iff.mp hq
    exact State.acceptFlit_wf (r := x) (by exact h) hx
  · exact State.acceptFlit_wf h hq

end Sys2Proof.Machine
end

section
/-! PROOF. Memory in canonical form is kept by the accesses of an instruction. -/

namespace Sys2Proof.Machine

/-! ### Accesses (R189 to R193) -/

@[simp] theorem State.accessOwn_wf {s : State} (h : memWf s.mem) (len : Nat) (p : Piece) (op : MemOp) (ea : Addr) (fin : Fin) :
    memWf (s.accessOwn len p op ea fin).mem := by
  unfold State.accessOwn
  dsimp only
  split
  · next s1 v wake hp =>
    have h1 := State.perform_done h hp
    rw [State.completeOwn_mem]
    split <;> simp [h1]
  · exact h

@[simp] theorem State.access_wf {s : State} (h : memWf s.mem) (len : Nat) (p : Piece) (op : MemOp) (ea : Addr) (fin : Fin) (wait rel : Bool) :
    memWf (s.access len p op ea fin wait rel).mem := by
  unfold State.access
  repeat' split
  all_goals simp [h]

@[simp] theorem State.accessAt_wf {s : State} (h : memWf s.mem) (len : Nat) (ea : Addr) (n align : Nat) (need : Need) (op : Nat → MemOp)
    (fin : Fin) (wait rel : Bool) : memWf (s.accessAt len ea n align need op fin wait rel).mem :=
  State.orLease_wf h fun p => State.access_wf (by simpa using h) len p _ ea fin wait rel

/-! ### Several accesses of one instruction (R200, R221) -/

@[simp] theorem State.sendGets_wf {s : State} (h : memWf s.mem) (dst n : Nat) (cnt : Option Nat) (ps : List (Piece × Nat)) :
    memWf (s.sendGets dst n cnt ps).mem := by
  unfold State.sendGets
  dsimp only
  rw [State.retire_mem, State.foldl_mem (by intros; rfl)]
  simp [h]

@[simp] theorem State.getAt_wf {s : State} (h : memWf s.mem) (src loc len cnt : Word) (counted : Bool) :
    memWf (s.getAt src loc len cnt counted).mem := by
  unfold State.getAt
  split
  · simpa using h
  · refine State.orLease_wf h fun ps => State.orTrap_wf h fun dst => ?_
    dsimp only
    repeat' split
    all_goals simp [h]

@[simp] theorem State.putAt_wf {s : State} (h : memWf s.mem) (dst loc len cnt : Word) (full counted : Bool) :
    memWf (s.putAt dst loc len cnt full counted).mem := by
  unfold State.putAt
  split
  · simpa using h
  · refine State.orLease_wf h fun ps => State.orTrap_wf h fun src => State.orTrap_wf h fun _ => State.orTrap_wf h fun _ => ?_
    dsimp only
    repeat' split
    all_goals simp [h]

@[simp] theorem State.writeMany_wf {s : State} (h : memWf s.mem) (ps : List (Piece × List Byte)) (done : Ctx → Ctx) :
    memWf (s.writeMany ps done).mem := by
  unfold State.writeMany
  dsimp only
  split
  · exact h
  · split
    · simpa using h
    · rw [State.retire_mem, State.foldl_mem (by intros; rfl)]
      exact State.foldl_wf (fun s _ hs => s.write_wf _ _ hs) h _

@[simp] theorem State.addMany_wf {s : State} (h : memWf s.mem) (t : ElemType) (ps : List (Piece × Word)) : memWf (s.addMany t ps).mem := by
  unfold State.addMany
  dsimp only
  split
  · exact h
  · split
    · simpa using h
    · rw [State.retire_mem, State.foldl_mem (by intros; rfl)]
      exact State.foldl_wf (fun s _ hs => s.write_wf _ _ hs) h _

@[simp] theorem State.vldt_wf {s : State} (h : memWf s.mem) (t : ElemType) (z : Bool) (d : Reg) (p sc : Word) (k : KReg) :
    memWf (s.vldt t z d p sc k).mem := by
  unfold State.vldt
  dsimp only
  split
  · simpa using h
  · split
    · simpa using h
    · split
      · simpa using h
      · exact State.orLease_wf h fun dp => State.orLease_wf h fun sps => by simpa using h

@[simp] theorem State.storeTyped_wf {s : State} (h : memWf s.mem) (a sc : Addr) (align : Nat) (data scales : List Byte) (fl : Flags)
    (g : Word) : memWf (s.storeTyped a sc align data scales fl g).mem :=
  State.orLease_wf h fun dps => State.orLease_wf h fun sps => State.writeMany_wf (by simpa using h) _ _

@[simp] theorem State.vstq_wf {s : State} (h : memWf s.mem) (t : ElemType) (sr : Bool) (d : Reg) (p sc : Word) :
    memWf (s.vstq t sr d p sc).mem := by
  unfold State.vstq
  dsimp only
  repeat' split
  all_goals simp [h]

/-! ### Instructions with operands to check -/

@[simp] theorem State.sendCopy_wf {s : State} (h : memWf s.mem) (cls : BitVec 8) (dst : Nat × Nat) (len : Nat) (src : Word) :
    memWf (s.sendCopy cls dst len src).mem := by
  unfold State.sendCopy
  split
  · simpa using h
  · refine State.orTrap_wf h fun p => ?_
    repeat' split
    all_goals simp [h]

@[simp] theorem State.postRecord_wf {s : State} (h : memWf s.mem) (matrix : Bool) (d : Reg) (w : Word) :
    memWf (s.postRecord matrix d w).mem := by
  unfold State.postRecord
  split
  · simpa using h
  · refine State.orTrap_wf h fun p => ?_
    split
    · exact h
    · split
      · simpa using h
      · dsimp only
        split
        · simpa using h
        · exact State.orTrap_wf h fun _ => by simpa using h

@[simp] theorem State.carm_wf {s : State} (h : memWf s.mem) (id target action : Word) : memWf (s.carm id target action).mem := by
  refine State.orTrap_wf h fun cid => ?_
  split
  · simpa using h
  · refine State.orTrap_wf h fun _ => ?_
    simp [h]

@[simp] theorem State.cadd_wf {s : State} (h : memWf s.mem) (d : Reg) (id amount : Word) : memWf (s.cadd d id amount).mem :=
  State.orTrap_wf h fun cid => by simp [h]

@[simp] theorem State.cinc_wf {s : State} (h : memWf s.mem) (dst id amount : Word) : memWf (s.cinc dst id amount).mem := by
  unfold State.cinc
  split
  · simpa using h
  · exact State.orTrap_wf h fun _ => State.orTrap_wf h fun d => h

@[simp] theorem State.migrateTo_wf {s : State} (h : memWf s.mem) (cls : BitVec 8) (w : Word) : memWf (s.migrateTo cls w).mem := by
  unfold State.migrateTo
  dsimp only
  split
  · simpa using h
  · split
    · simpa using h
    · exact State.orTrap_wf h fun dst => by simp [h]

@[simp] theorem State.lease_wf {s : State} (h : memWf s.mem) (d : Reg) (a : Addr) (mode : Word) : memWf (s.lease d a mode).mem := by
  unfold State.lease
  split
  · simpa using h
  · refine State.orLease_wf h fun p => ?_
    split <;> simp [h]

@[simp] theorem State.leaser_wf {s : State} (h : memWf s.mem) (d : Reg) (a : Addr) : memWf (s.leaser d a).mem := by
  refine State.orLease_wf h fun p => ?_
  split <;> simp [h]

@[simp] theorem State.lkqry_wf {s : State} (h : memWf s.mem) (d : Reg) (a sel : Word) : memWf (s.lkqry d a sel).mem := by
  unfold State.lkqry
  split
  · exact h
  · exact h
  · split
    · simpa using h
    · split <;> simp [h]
  · exact h
  · exact State.orLease_wf h fun p => h
  · simpa using h

/-! ### Forms of one access -/


@[simp] theorem State.amoAt_wf {s : State} (h : memWf s.mem) (op : AmoOp) (o : Order) (sz : AmoSize) (d : Reg) (a b c : Word) :
    memWf (s.amoAt op o sz d a b c).mem := State.accessAt_wf h ..

@[simp] theorem State.feAt_wf {s : State} (h : memWf s.mem) (ea : Addr) (op : FeOp) (w : Word) (fin : Fin) (needs wait rel : Bool) :
    memWf (s.feAt ea op w fin needs wait rel).mem := State.accessAt_wf h ..

@[simp] theorem State.loadG_wf {s : State} (h : memWf s.mem) (len : Nat) (ea : Addr) (n : Nat) (signed : Bool) (d : Reg) :
    memWf (s.loadG len ea n signed d).mem := State.accessAt_wf h ..

@[simp] theorem State.storeG_wf {s : State} (h : memWf s.mem) (len : Nat) (ea : Addr) (n : Nat) (w : Word) :
    memWf (s.storeG len ea n w).mem := State.accessAt_wf h ..

@[simp] theorem State.ringAt_wf {s : State} (h : memWf s.mem) (op : RingOp) (a x y : Word) (fin : Fin) (rel : Bool) :
    memWf (s.ringAt op a x y fin rel).mem := State.accessAt_wf h ..

@[simp] theorem State.vloadAt_wf {s : State} (h : memWf s.mem) (ea : Addr) (d : Reg) : memWf (s.vloadAt ea d).mem :=
  State.accessAt_wf h ..

@[simp] theorem State.vstoreAt_wf {s : State} (h : memWf s.mem) (ea : Addr) (v : VReg) (full : Bool) : memWf (s.vstoreAt ea v full).mem :=
  State.accessAt_wf h ..

end Sys2Proof.Machine
end

section
/-! PROOF. Memory in canonical form is kept by a flit served at its node and by the router cycle. -/

namespace Sys2Proof.Machine

/-! ### Snapshots and their logs (R300 to R309) -/

@[simp] theorem State.putLog_wf {s : State} (h : memWf s.mem) (gid : Nat) (r : LogRec) : memWf (s.putLog gid r).mem := by
  unfold State.putLog
  split <;> simp [h, memWf_memWrite]

@[simp] theorem State.logFlits_wf {s : State} (h : memWf s.mem) (gid n : Nat) (fs : List Flit) : memWf (s.logFlits gid n fs).mem := by
  unfold State.logFlits
  repeat' split
  all_goals simp [h]

@[simp] theorem State.onAccept_wf {s : State} (h : memWf s.mem) (gid n : Nat) (f : Flit) (first : Bool) :
    memWf (s.onAccept gid n f first).mem := by
  unfold State.onAccept
  dsimp only
  repeat' split
  all_goals simp [h]

@[simp] theorem State.replyColour_wf {s : State} (h : memWf s.mem) (d : Nat) (f : Flit) (tag : Nat) (op : MemOp) :
    memWf (s.replyColour d f tag op).1.mem := by
  unfold State.replyColour
  repeat' split
  all_goals simp [h]

/-! ### The other nodes: HBM, Newel, Vestibule (R113, R263, R300) -/

@[simp] theorem State.serveAtMemory_wf {s : State} (h : memWf s.mem) (d : Nat) (f : Flit) (tag : Nat) (op : MemOp) :
    memWf (s.serveAtMemory d f tag op).mem := by
  unfold State.serveAtMemory
  dsimp only
  split
  · exact h
  · split
    · next hp =>
      have h1 := State.replyColour_wf (State.perform_done h hp) d f tag op
      split
      · simpa using h1
      · exact h1
    · exact h

@[simp] theorem State.retryLease_wf {s : State} (h : memWf s.mem) (d : Nat) (q : LeaseWait) : memWf (s.retryLease d q).mem := by
  unfold State.retryLease
  split <;> simp [h]

@[simp] theorem State.homeLeaser_wf {s : State} (h : memWf s.mem) (d : Nat) (hd : Header) (r : LockReq) :
    memWf (s.homeLeaser d hd r).mem := by
  unfold State.homeLeaser
  refine State.foldl_wf (fun s q hs => State.retryLease_wf hs d q) ?_ _
  exact h

@[simp] theorem State.homeLock_wf {s : State} (h : memWf s.mem) (d : Nat) (f : Flit) (r : LockReq) : memWf (s.homeLock d f r).mem := by
  unfold State.homeLock
  split <;> simp [h]

/-- A flit of a message acts, if at all, in a state of the same memory. -/
theorem State.whole_wf {s : State} (h : memWf s.mem) {n : Nat} {f : Flit} {act : State → Option State}
    (hact : ∀ s s', memWf s.mem → act s = some s' → memWf s'.mem) {r : State × Bool} (he : s.whole n f act = some r) : memWf r.1.mem := by
  have h1 : ∀ ps, memWf (s.setParts n ps).mem := fun ps => by simpa using h
  unfold State.whole at he
  dsimp only at he
  split at he
  · obtain ⟨x, hx, rfl⟩ := Option.map_eq_some_iff.mp he
    exact hact _ _ (h1 _) hx
  · cases he
    exact h1 _

@[simp] theorem State.serveNode_wf {s : State} (h : memWf s.mem) (n : Nat) (f : Flit) : memWf (s.serveNode n f).1.mem := by
  unfold State.serveNode
  split
  · split <;> simp [h]
  · split <;> simp [h]
  · split
    · next d _ _ _ _ tag op _ =>
      cases he : s.whole n f fun s => some (s.serveAtMemory d f tag op) with
      | none => exact h
      | some r =>
        refine State.whole_wf h (fun s s' hs hd => ?_) he
        cases hd
        exact State.serveAtMemory_wf hs d f tag op
    · exact h
  · split <;> simp [h]

/-! ### The units of a tile -/

theorem State.freezeLog_wf {s : State} (h : memWf s.mem) {t : Nat} {f : Flit} {r : State × Bool} (he : s.freezeLog t f = some r) :
    memWf r.1.mem := by
  unfold State.freezeLog at he
  split at he
  · cases he
  · split at he
    · cases he
    · cases he
      dsimp only
      split <;> simp [h, memWf_memWrite]

theorem State.incrFlit_mem {s s' : State} {t : Nat} {f : Flit} {cid amount : Word} (he : s.incrFlit t f cid amount = some s') :
    s'.mem = s.mem := by
  unfold State.incrFlit at he
  dsimp only at he
  split at he
  · cases he; rfl
  · split at he
    · cases he; rfl
    · cases he

theorem State.serveTile_wf {s : State} (h : memWf s.mem) {t : Nat} {f : Flit} {r : State × Bool} (he : s.serveTile t f = some r) :
    memWf r.1.mem := by
  unfold State.serveTile at he
  split at he
  case h_1 =>
    split at he
    · cases he
      dsimp only
      split <;> simp [h]
    · exact State.landFlit_wf h he
  case h_2 tag v _ =>
    refine State.whole_wf h (fun s s' hs hd => ?_) he
    cases hd
    exact State.finishReply_wf hs t tag v
  case h_3 =>
    split at he
    · exact State.freezeLog_wf h he
    · exact State.whole_wf h (fun s s' hs hd => State.serveAtTile_wf hs hd) he
  case h_4 =>
    split at he
    · exact State.freezeLog_wf h he
    · obtain ⟨x, hx, rfl⟩ := Option.map_eq_some_iff.mp he
      rwa [State.incrFlit_mem hx]
  case h_5 =>
    split at he
    · exact State.freezeLog_wf h he
    · cases he; simpa using h
  all_goals cases he; exact h

/-! ### Serving a flit (R289, R300) -/

theorem State.serveUnit_wf {s : State} (h : memWf s.mem) {n : Nat} {f : Flit} {r : State × Bool}
    (he : (if n < Config.tiles then s.serveTile n f else if f.body == .trig && !s.hasToken then none else some (s.serveNode n f)) = some r) :
    memWf r.1.mem := by
  split at he
  · exact State.serveTile_wf h he
  · split at he
    · cases he
    · cases he
      exact State.serveNode_wf h n f

theorem State.serveOpen_wf {s s' : State} (h : memWf s.mem) {n : Nat} {f : Flit} (he : State.serveFlit.serveOpen s n f = some s') :
    memWf s'.mem := by
  unfold State.serveFlit.serveOpen at he
  dsimp only at he
  split at he
  · cases he
  · next s2 first hx =>
    have h2 : memWf s2.mem := by
      refine State.serveUnit_wf (r := (s2, first)) ?_ hx
      split
      · split <;> simp [h]
      · exact h
    cases he
    split
    · split <;> simp [h2]
    · exact h2

theorem State.serveFlit_wf {s s' : State} (h : memWf s.mem) {n : Nat} {f : Flit} (he : s.serveFlit n f = some s') : memWf s'.mem := by
  unfold State.serveFlit at he
  split at he
  · split at he
    · cases he
    · split at he
      · cases he
        simpa using h
      · exact State.serveOpen_wf h he
  · split at he
    · cases he
    · exact State.serveOpen_wf h he

theorem State.take_wf {s s' : State} (h : memWf s.mem) {n : Nat} {f : Flit} (he : s.take n f = some s') : memWf s'.mem := by
  unfold State.take at he
  obtain ⟨x, hx, rfl⟩ := Option.map_eq_some_iff.mp he
  have h1 := State.serveFlit_wf h hx
  split <;> exact h1

@[simp] theorem State.serveEvent_wf {s : State} (h : memWf s.mem) (n : Nat) (p : Flit → Bool) : memWf (s.serveEvent n p).mem := by
  unfold State.serveEvent
  split
  · exact h
  · split
    · next he =>
      refine State.take_wf ?_ he
      exact h
    · exact h

/-! ### Kept flits, logged flits, live migration (R100, R316) -/

@[simp] theorem State.serveLogged_wf {s : State} (h : memWf s.mem) (t : Nat) (f : Flit) : memWf (s.serveLogged t f).mem := by
  unfold State.serveLogged
  split
  · next he => exact State.serveTile_wf h he
  · exact h

@[simp] theorem State.retryLogged_wf {s : State} (h : memWf s.mem) (t : Nat) : memWf (s.retryLogged t).mem := by
  unfold State.retryLogged
  refine State.foldl_wf (fun s f hs => State.serveLogged_wf hs t f) ?_ _
  exact h

@[simp] theorem State.redeliver_wf {s : State} (h : memWf s.mem) (t : Nat) (f : Flit) : memWf (s.redeliver t f).mem := by
  unfold State.redeliver
  split
  · exact h
  · split
    · next he => exact State.landFlit_wf h he
    · exact h

@[simp] theorem State.redeliverAt_wf {s : State} (h : memWf s.mem) (n : Nat) (f : Flit) : memWf (s.redeliverAt n f).mem := by
  unfold State.redeliverAt
  split
  · split <;> simp [h]
  · simp [h]

@[simp] theorem State.applyLogged_wf {s : State} (h : memWf s.mem) (t : Nat) (f : Flit) : memWf (s.applyLogged t f).mem := by
  unfold State.applyLogged
  split
  · next he => exact State.serveTile_wf h he
  all_goals exact h

@[simp] theorem State.replayLogged_wf {s : State} (h : memWf s.mem) (t i : Nat) (f : Flit) : memWf (s.replayLogged t i f).mem := by
  unfold State.replayLogged
  split <;> simp [h]

@[simp] theorem State.resumeTile_wf {s : State} (h : memWf s.mem) (m : Migration) : memWf (s.resumeTile m).mem := by
  unfold State.resumeTile
  dsimp only
  have replayed := State.foldl_wf (fun s e hs => State.replayLogged_wf hs m.tile e.1 e.2)
    (s := (s.modVest fun v => { v with migs := v.migs.erase m }).modTile m.tile fun x =>
      { x with frozen := false, land := x.land.refillAll x.regs s.cycle }) h (m.log.mapIdx fun i f => (i, f))
  split
  · split
    · exact replayed
    · simpa using replayed
  · exact replayed

/-! ### The router cycle (R341, R342) -/

theorem State.toPort_mem {s s' : State} {p : Nat} {f : Flit} (he : s.toPort p f = some s') : s'.mem = s.mem := by
  unfold State.toPort at he
  dsimp only at he
  split at he
  · cases he; simp
  · split at he
    · cases he; rfl
    · cases he

theorem RouterState.eject_wf {q q' : RouterState} (h : memWf q.s.mem) {r : Nat} {f : Flit} (he : q.eject r f = some q') :
    memWf q'.s.mem := by
  unfold RouterState.eject at he
  split at he
  · split at he
    · obtain ⟨x, hx, rfl⟩ := Option.map_eq_some_iff.mp he
      exact State.take_wf h hx
    · cases he
  · split at he
    · cases he; exact h
    · cases he
  · split at he
    · obtain ⟨x, hx, rfl⟩ := Option.map_eq_some_iff.mp he
      dsimp only
      rwa [State.toPort_mem hx]
    · cases he

theorem RouterState.arriving_wf {q : RouterState} (h : memWf q.s.mem) (pl r : Nat) (f : Flit) : memWf (q.arriving pl r f).s.mem := by
  unfold RouterState.arriving
  split
  · simpa using h
  · split
    · exact RouterState.eject_wf h ‹_›
    · split <;> exact h

theorem RouterState.injectHere_wf {q : RouterState} (h : memWf q.s.mem) (pl r : Nat) (src : Source) (o : Flit ⊕ Msg) :
    memWf (q.injectHere pl r src o).s.mem := by
  have h1 : memWf (q.s.injectFlit pl src o).1.mem := by simpa using h
  unfold RouterState.injectHere
  split
  · next hi =>
    rw [hi] at h1
    split
    · simpa using h1
    · split
      · next he =>
        refine RouterState.eject_wf ?_ he
        exact h1
      · simpa [RouterState.out] using h1
      · exact h
  · next hi => rwa [hi] at h1

theorem RouterState.inject_wf {q : RouterState} (h : memWf q.s.mem) (pl r : Nat) (src : Source) : memWf (q.inject pl r src).s.mem := by
  unfold RouterState.inject
  split
  · exact h
  · next o _ =>
    have h1 : memWf (q.s.injectFlit pl src o).1.mem := by simpa using h
    split
    · exact h
    · split
      · exact h1
      · split
        · exact RouterState.injectHere_wf h pl r src o
        · split
          · exact h
          · split
            · next hi => rwa [hi] at h1
            · next hi => rwa [hi] at h1

theorem RouterState.foldl_wf {α : Type} {g : RouterState → α → RouterState} (hg : ∀ q a, memWf q.s.mem → memWf (g q a).s.mem)
    {q : RouterState} (h : memWf q.s.mem) (l : List α) : memWf (l.foldl g q).s.mem :=
  List.foldlRecOn (motive := fun q => memWf (RouterState.s q).mem) l g h fun q hq a _ => hg q a hq

@[simp] theorem State.routerStep_wf {s : State} (h : memWf s.mem) (pl r : Nat) (fs : List Flit) : memWf (s.routerStep pl r fs).mem := by
  unfold State.routerStep
  refine RouterState.foldl_wf (fun q src hq => RouterState.inject_wf hq pl r src) ?_ _
  refine RouterState.foldl_wf (fun q f hq => RouterState.arriving_wf hq pl r f) ?_ _
  exact h

@[simp] theorem State.planeCycle_wf {s : State} (h : memWf s.mem) (pl : Nat) : memWf (s.planeCycle pl).mem := by
  unfold State.planeCycle
  refine State.foldl_wf (fun s r hs => State.routerStep_wf hs pl r _) ?_ _
  exact h

@[simp] theorem State.selfArrivals_wf {s : State} (h : memWf s.mem) (t n : Nat) : memWf (s.selfArrivals t n).mem := by
  induction n generalizing s with
  | zero => exact h
  | succ n ih =>
    unfold State.selfArrivals
    split
    · split
      · exact ih (State.arrive_wf (by exact h) _ _)
      · exact h
    · exact h

@[simp] theorem State.tilesAfter_wf {s : State} (h : memWf s.mem) : memWf s.tilesAfter.mem := by
  unfold State.tilesAfter
  refine State.foldl_wf (fun s e hs => ?_) h _
  split <;> simp [hs]

end Sys2Proof.Machine
end

section
/-! PROOF. Memory in canonical form is kept by the engines, the counter actions, the page tables and the loading of an image. -/

namespace Sys2Proof.Machine

/-! ### The engines (R239 to R249) -/

@[simp] theorem State.engineWrite_wf {s : State} (h : memWf s.mem) (t : Nat) (matrix : Bool) (seq : Nat) (ftag : BitVec 12) (full : Bool)
    (p : Piece) (bs : List Byte) : memWf (s.engineWrite t matrix seq ftag full p bs).mem := by
  unfold State.engineWrite
  repeat' split
  all_goals simp [h, memWf_memWrite]

@[simp] theorem State.writePieces_wf {s : State} (h : memWf s.mem) (t : Nat) (matrix : Bool) (seq : Nat) (ftag : BitVec 12) (full : Bool)
    (ps : List Piece) (bs : List Byte) : memWf (s.writePieces t matrix seq ftag full ps bs).mem := by
  induction ps generalizing s bs with
  | nil => exact h
  | cons p ps ih => exact ih (State.engineWrite_wf h t matrix seq ftag full p _) _

@[simp] theorem State.engineWrites_wf {s : State} (h : memWf s.mem) (t : Nat) (matrix : Bool) (seq : Nat) (ftag : BitVec 12) (full : Bool)
    (ps : List Piece) (bs : List Byte) : memWf (s.engineWrites t matrix seq ftag full ps bs).mem :=
  State.writePieces_wf h t matrix seq ftag full _ bs

@[simp] theorem State.completeCmd_wf {s : State} (h : memWf s.mem) (t : Nat) (matrix : Bool) (k : Cmd) :
    memWf (s.completeCmd t matrix k).mem := by
  unfold State.completeCmd
  split
  · exact h
  · next r _ =>
    have written := State.foldl_wf (fun s (c : Nat × List Byte) hs => s.write_wf c.1 c.2 hs) h r.cells
    simpa using written

/-- An engine's work is done, or put off by a wait for leases. -/
theorem State.engineLease_wf {s f : State} (h : memWf s.mem) (hf : memWf f.mem) (t : Nat) (as : List (Addr × Nat)) :
    memWf (s.engineLease t as f).mem := by
  unfold State.engineLease
  split
  · exact hf
  · simpa using h

@[simp] theorem State.runStore_wf {s : State} (h : memWf s.mem) (t : Nat) (k : Cmd) : memWf (s.runStore t k).mem := by
  unfold State.runStore
  dsimp only
  rw [State.modTile_mem]
  refine State.foldl_wf (fun s e hs => ?_) h _
  split
  · split <;> simp [hs]
  · exact hs

@[simp] theorem State.runMatrix_wf {s : State} (h : memWf s.mem) (t : Nat) (k : Cmd) : memWf (s.runMatrix t k).mem := by
  unfold State.runMatrix
  split
  · simpa using h
  · split
    · exact State.runStore_wf h t k
    · exact h

@[simp] theorem State.matrixStep_wf {s : State} (h : memWf s.mem) (t op : Nat) : memWf (s.matrixStep t op).mem := by
  unfold State.matrixStep
  split
  · exact h
  · refine State.engineLease_wf h ?_ t _
    split
    · exact h
    · simpa using h
    · exact h
    · split <;> simp [h]

@[simp] theorem State.writeRows_wf {s : State} (h : memWf s.mem) (t : Nat) (k : Cmd) (rs : List Rm) (i : Nat) (rows : List CopyRow) :
    memWf (s.writeRows t k rs i rows).1.mem := by
  induction rows generalizing s i with
  | nil => exact h
  | cons row rows ih =>
    unfold State.writeRows
    split
    · exact h
    · exact ih (State.engineWrites_wf h t false k.seq k.ftag _ row.dst _) (i + 1)

@[simp] theorem State.finishCopy_wf {s : State} (h : memWf s.mem) (t : Nat) (k : Cmd) : memWf (s.finishCopy t k).mem := by
  simp [State.finishCopy, h]

@[simp] theorem State.copyStep_wf {s : State} (h : memWf s.mem) (t n op : Nat) : memWf (s.copyStep t n op).mem := by
  unfold State.copyStep
  split
  · exact h
  · split
    · exact State.finishCopy_wf h t _
    · split
      · exact h
      · simpa using h
      · exact h
      · split
        · exact h
        · exact State.engineLease_wf h (by simpa using h) t _

/-! ### Counter actions (R86) -/

@[simp] theorem State.actionSend_wf {s : State} (h : memWf s.mem) (t : Nat) (a : Action) : memWf (s.actionSend t a).mem := by
  unfold State.actionSend
  dsimp only
  split <;> simp [h]

/-- An action is carried out in a state of the same memory, or not at all. -/
theorem State.carryOut_wf {s : State} (h : memWf s.mem) (t kind : Nat) {f : Action → State → State}
    (hf : ∀ a s, memWf s.mem → memWf (f a s).mem) : memWf (s.carryOut t kind f).mem := by
  unfold State.carryOut
  split
  · exact hf _ _ h
  · exact h

/-! ### Pages and tables (R26, R121) -/

theorem State.newPage_wf {s : State} (h : memWf s.mem) {pid : Nat} {va : Option Nat} {r : Nat × State} (he : s.newPage pid va = some r) :
    memWf r.2.mem := by
  unfold State.newPage at he
  obtain ⟨n, -, rfl⟩ := Option.map_eq_some_iff.mp he
  exact memWf_memZero h _ _

theorem State.newRun_wf {s : State} (h : memWf s.mem) {pid n : Nat} {r : Nat × State} (he : s.newRun pid n = some r) : memWf r.2.mem := by
  unfold State.newRun at he
  dsimp only at he
  split at he
  · cases he
  · cases he
    exact memWf_memZero h _ _

@[simp] theorem State.mapFrom_wf {s : State} (h : memWf s.mem) (pid va : Nat) (leaf : Word) (table : Nat) (levels : List (Nat × Nat)) :
    memWf (s.mapFrom pid va leaf table levels).mem := by
  induction levels generalizing s table with
  | nil => exact h
  | cons l levels ih =>
    cases levels with
    | nil => exact s.write_wf _ _ h
    | cons l' levels =>
      unfold State.mapFrom
      dsimp only
      split
      · exact ih h _
      · split
        · exact h
        · next he => exact ih (State.write_wf _ _ _ (State.newPage_wf h he)) _

@[simp] theorem State.mapPage_wf {s : State} (h : memWf s.mem) (pid va : Nat) (leaf : Word) : memWf (s.mapPage pid va leaf).mem := by
  unfold State.mapPage
  split <;> simp [h]

@[simp] theorem State.unmapFrom_wf {s : State} (h : memWf s.mem) (va table : Nat) (levels : List (Nat × Nat)) :
    memWf (s.unmapFrom va table levels).mem := by
  induction levels generalizing table with
  | nil => exact h
  | cons l levels ih =>
    unfold State.unmapFrom
    dsimp only
    split
    · exact h
    · split
      · exact s.write_wf _ _ h
      · exact ih _

@[simp] theorem State.unmapPage_wf {s : State} (h : memWf s.mem) (pid va : Nat) : memWf (s.unmapPage pid va).mem := by
  unfold State.unmapPage
  split <;> simp [h]

theorem State.backPage_wf {s s' : State} (h : memWf s.mem) {pid va : Nat} {x : Bool} (he : s.backPage pid va x = some s') :
    memWf s'.mem := by
  unfold State.backPage at he
  split at he
  · cases he
  · cases he
    exact State.mapPage_wf h _ _ _
  · split at he
    · cases he
    · split at he
      · cases he
      · next hp =>
        cases he
        exact State.mapPage_wf (by simpa using State.newPage_wf h hp) _ _ _

theorem State.backPages_wf {s s' : State} (h : memWf s.mem) {pid : Nat} {l : List (Nat × Bool)} (he : s.backPages pid l = some s') :
    memWf s'.mem := by
  induction l generalizing s with
  | nil => cases he; exact h
  | cons e l ih =>
    unfold State.backPages at he
    split at he
    · next hb => exact ih (State.backPage_wf h hb) he
    · cases he

theorem State.backFault_wf {s s' : State} (h : memWf s.mem) {t va : Nat} (he : s.backFault t va = some s') : memWf s'.mem := by
  unfold State.backFault at he
  split at he
  · cases he
  · split at he
    · cases he
    · split at he
      · cases he; exact h
      · split at he
        · exact State.backPage_wf h he
        · cases he

/-! ### Windows and groups (R34, R35) -/

@[simp] theorem State.mapWindowPage_wf {s : State} (h : memWf s.mem) (w : WindowPair) (i : Nat) : memWf (s.mapWindowPage w i).mem := by
  unfold State.mapWindowPage
  dsimp only
  split
  · exact h
  · split
    · exact h
    · split
      · simp [h]
      · split
        · exact h
        · next hb =>
          have h1 := State.backPage_wf h hb
          split <;> simp [h1]

@[simp] theorem State.mapWindows_wf {s : State} (h : memWf s.mem) (pid : Nat) : memWf (s.mapWindows pid).mem := by
  unfold State.mapWindows
  exact State.foldl_wf (fun s w hs => State.foldl_wf (fun s i hs => State.mapWindowPage_wf hs w i) hs _) h _

@[simp] theorem State.unmapWindows_wf {s : State} (h : memWf s.mem) (pid : Nat) : memWf (s.unmapWindows pid).mem := by
  unfold State.unmapWindows
  refine State.foldl_wf (fun s w hs => State.foldl_wf (fun s i hs => ?_) hs _) h _
  exact State.unmapPage_wf (State.unmapPage_wf hs _ _) _ _

/-! ### Loading an image (R31, R316) -/

@[simp] theorem State.writeVirtual_wf {s : State} (h : memWf s.mem) (pid va : Nat) (bs : List Byte) (n : Nat) :
    memWf (s.writeVirtual pid va bs n).mem := by
  induction n generalizing s va bs with
  | zero => exact h
  | succ n ih =>
    unfold State.writeVirtual
    dsimp only
    split <;> split
    all_goals simp [h, ih, memWf_memWrite]

@[simp] theorem State.fillPages_wf {s : State} (h : memWf s.mem) (pid : Nat) (b : List Byte) : memWf (s.fillPages pid b).mem := by
  unfold State.fillPages
  refine State.foldl_wf (fun s x hs => ?_) h _
  split <;> simp [hs]

@[simp] theorem State.zeroPool_wf {s : State} (h : memWf s.mem) (t : Nat) : memWf (s.zeroPool t).mem := memWf_memZero h _ _

@[simp] theorem State.loadTile_wf {s : State} (h : memWf s.mem) (b : List Byte) (t n : Nat) : memWf (s.loadTile b t n).mem := by
  unfold State.loadTile
  refine State.foldl_wf (fun s x hs => ?_) ?_ _
  case refine_2 => exact State.zeroPool_wf h t
  split
  · split
    · exact s.write_wf _ _ hs
    · split
      · rwa [State.foldl_mem (by intros; rfl)]
      · exact hs
  · exact hs

theorem State.loadImage_wf {s s' : State} (h : memWf s.mem) {pid : Nat} {b : List Byte} {areaAt area drain : Nat}
    (he : s.loadImage pid b areaAt area drain = some s') : memWf s'.mem := by
  unfold State.loadImage at he
  dsimp only at he
  split at he
  · cases he
  · split at he
    · cases he
    · next hrun =>
      split at he
      · cases he
      · next hback =>
        have filled := State.fillPages_wf (State.backPages_wf (State.newRun_wf h hrun) hback) pid b
        cases he
        rw [State.regroup_mem, State.joinDies_mem]
        refine State.mapWindows_wf ?_ pid
        rw [State.modVest_mem, State.modPart_mem]
        exact State.foldl_wf (fun s t hs => State.loadTile_wf hs b t _) filled _

theorem State.reserveArea_wf {s : State} (h : memWf s.mem) {pid area : Nat} {r : Nat × State} (he : s.reserveArea pid area = some r) :
    memWf r.2.mem := by
  unfold State.reserveArea at he
  split at he
  · cases he; exact h
  · obtain ⟨q, hq, rfl⟩ := Option.map_eq_some_iff.mp he
    exact State.newRun_wf (r := q) h hq

@[simp] theorem State.loadjob_wf {s : State} (h : memWf s.mem) (k : Pkt) : memWf (s.loadjob k).1.mem := by
  unfold State.loadjob
  dsimp only
  split
  · exact h
  · split
    · exact h
    · split
      · exact h
      · split
        · exact h
        · split
          · exact h
          · split
            · exact h
            · next hr =>
              split
              · next hl => exact State.loadImage_wf (State.reserveArea_wf h hr) hl
              · exact h

end Sys2Proof.Machine
end

section
/-! PROOF. Memory in canonical form is kept by the queue commands, rollbacks, the host and reset. -/

namespace Sys2Proof.Machine

/-! ### Queues and their commands (R320 to R326) -/

@[simp] theorem State.vestWrite_wf {s : State} (h : memWf s.mem) (owner k : Nat) (bs : List Byte) : memWf (s.vestWrite owner k bs).mem :=
  State.writeAt_wf h _ k bs

@[simp] theorem State.syncQueue_wf {s : State} (h : memWf s.mem) (n : Nat) : memWf (s.syncQueue n).mem := by
  unfold State.syncQueue
  split <;> simp [h]

@[simp] theorem State.complete_wf {s : State} (h : memWf s.mem) (n idx status value : Nat) : memWf (s.complete n idx status value).mem := by
  unfold State.complete
  split
  · exact h
  · dsimp only
    refine State.syncQueue_wf ?_ n
    rw [State.modQueue_mem]
    split <;> simp [h]

/-- A packet runs its command in a state of the same memory, and completes. -/
theorem State.runPacket_wf {s : State} (h : memWf s.mem) (p : Pkt) {run : State → Pkt → State × Answer}
    (hrun : ∀ s k, memWf s.mem → memWf (run s k).1.mem) : memWf (s.runPacket p run).mem := by
  have h1 : memWf (s.push p.n p.bytes).mem := by simpa using h
  unfold State.runPacket
  dsimp only
  split
  · exact State.complete_wf h1 _ _ _ _
  · split
    · exact State.complete_wf h1 _ _ _ _
    · have h2 := hrun _ p h1
      split
      · next he => rw [he] at h2; exact State.complete_wf h2 _ _ _ _
      · next he => rwa [he] at h2

/-- A command event ends a packet, runs the next one, or does nothing. -/
theorem State.command_wf {s : State} (h : memWf s.mem) (n : Nat) (c : VCmd) (ready : State → Pkt → Bool) {run : State → Pkt → State × Answer}
    (hrun : ∀ s k, memWf s.mem → memWf (run s k).1.mem) (fin : State → Pkt → Packet → Option (Nat × Nat)) {after : State → Pkt → State}
    (hafter : ∀ s k, memWf s.mem → memWf (after s k).mem) : memWf (s.command n c ready run fin after).mem := by
  unfold State.command
  split
  · exact State.complete_wf (hafter _ _ h) _ _ _ _
  · split
    · exact State.runPacket_wf h _ hrun
    · exact h

theorem noAfter_wf (s : State) (k : Pkt) (h : memWf s.mem) : memWf (noAfter s k).mem := h

/-- A timer's work is done in a state of the same memory, or not yet. -/
theorem State.onTimer_wf {s : State} (h : memWf s.mem) (timer : Bool × Nat) {work : State → State} (hw : memWf (work s).mem) :
    memWf (s.onTimer timer work).mem := by
  unfold State.onTimer
  split
  · exact hw
  · split <;> exact h

@[simp] theorem State.headFault_wf {s : State} (h : memWf s.mem) (n : Nat) : memWf (s.headFault n).mem := by
  unfold State.headFault
  repeat' split
  all_goals simp [h]

@[simp] theorem State.reconcile_wf {s : State} (h : memWf s.mem) (n : Nat) : memWf (s.reconcile n).mem := by
  unfold State.reconcile
  split <;> simp [h]

@[simp] theorem State.createq_wf {s : State} (h : memWf s.mem) (p : Pkt) : memWf (s.createq p).1.mem := by
  unfold State.createq
  dsimp only
  split
  · exact h
  · split
    · exact State.syncQueue_wf (by exact h) _
    · split <;> simp [h]

@[simp] theorem State.discard_wf {s : State} (h : memWf s.mem) (n fuel : Nat) : memWf (s.discard n fuel).mem := by
  induction fuel generalizing s with
  | zero => exact h
  | succ fuel ih =>
    unfold State.discard
    split
    · exact h
    · split
      · exact h
      · exact ih (State.complete_wf (by simpa using h) _ _ _ _)

@[simp] theorem State.destroyq_wf {s : State} (h : memWf s.mem) (p : Pkt) : memWf (s.destroyq p).1.mem := by
  unfold State.destroyq
  dsimp only
  split
  · exact h
  · split <;> simp [h]

/-! ### Partitions and jobs (R27, R31, R35) -/

@[simp] theorem State.putSystemText_wf {s : State} (h : memWf s.mem) : memWf s.putSystemText.mem := by
  unfold State.putSystemText
  rw [State.write_mem]
  exact memWf_memWrite h _ _

@[simp] theorem State.freshTable_wf {s : State} (h : memWf s.mem) (pid : Nat) : memWf (s.freshTable pid).mem := by
  unfold State.freshTable
  split
  · exact h
  · exact State.mapPage_wf (memWf_memZero h _ _) _ _ _

@[simp] theorem State.partCreate_wf {s : State} (h : memWf s.mem) (k : Pkt) : memWf (s.partCreate k).1.mem := by
  unfold State.partCreate
  dsimp only
  split
  · exact h
  · split
    · exact h
    · split
      · exact h
      · split
        · exact h
        · split
          · exact h
          · split
            · exact h
            · next hp =>
              dsimp only
              refine State.freshTable_wf (State.putSystemText_wf ?_) _
              rw [State.foldl_mem (by intros; rfl)]
              exact State.newPage_wf h hp

@[simp] theorem State.beginUnload_wf {s : State} (h : memWf s.mem) (pid : Nat) : memWf (s.beginUnload pid).mem := by
  unfold State.beginUnload
  extract_lets s0 s1 s2 s3
  have h0 : memWf s0.mem := by
    unfold s0
    split <;> simp [h]
  have h2 : memWf s2.mem := by simp [s2, s1, h0]
  rw [State.modVest_mem]
  unfold s3
  split
  · split
    · rwa [State.foldl_mem (by intros; rfl)]
    · exact h2
  · exact h2

@[simp] theorem State.unloadjob_wf {s : State} (h : memWf s.mem) (k : Pkt) : memWf (s.unloadjob k).1.mem := by
  unfold State.unloadjob
  repeat' split
  all_goals simp [h]

@[simp] theorem State.unloadKeep_wf {s : State} (h : memWf s.mem) (k : Pkt) : memWf (s.unloadKeep k).1.mem := by
  unfold State.unloadKeep
  split
  · exact h
  · split
    · exact h
    · rw [State.regroup_mem]
      refine State.foldl_wf (fun s e hs => ?_) h _
      split <;> simp [hs]

@[simp] theorem State.killWaits_wf {s : State} (h : memWf s.mem) (pid : Nat) : memWf (s.killWaits pid).mem := by
  unfold State.killWaits
  exact State.foldl_wf (fun s e hs => State.foldl_wf (fun s k hs => State.complete_wf hs e.1 k.idx stKilled 0) hs _) h _

@[simp] theorem State.endUnload_wf {s : State} (h : memWf s.mem) (pid : Nat) : memWf (s.endUnload pid).mem := by
  unfold State.endUnload
  split
  · exact h
  · dsimp only
    rw [State.regroup_mem]
    refine State.freshTable_wf ?_ pid
    simp only [State.modPart_mem, State.modVest_mem]
    rw [State.foldl_mem (by intros; rfl), State.dropForeignWaits_mem, State.foldl_mem (by simp)]
    exact State.killWaits_wf h pid

@[simp] theorem State.park_wf {s : State} (h : memWf s.mem) (k : Pkt) : memWf (s.park k).mem := by
  unfold State.park
  split
  · exact h
  · split
    · exact h
    · exact State.foldl_wf (fun s e hs => State.endUnload_wf hs e.1) (by simpa using h) _

/-! ### Rollbacks (R314 to R318) -/

theorem State.loadParked_wf {s s' : State} (h : memWf s.mem) {pid : Nat} {j : Job} (he : s.loadParked pid j = .ok s') : memWf s'.mem := by
  unfold State.loadParked at he
  dsimp only at he
  split at he
  · cases he
  · split at he
    · cases he
    · split at he
      · cases he
      · next hr =>
        split at he
        · next hl =>
          cases he
          refine State.loadImage_wf (State.reserveArea_wf (r := (_, _)) ?_ hr) hl
          simpa using h
        · cases he

theorem State.loadAllParked_wf {s s' : State} (h : memWf s.mem) {l : List (Nat × Job)} (he : s.loadAllParked l = .ok s') :
    memWf s'.mem := by
  induction l generalizing s with
  | nil => cases he; exact h
  | cons e l ih =>
    unfold State.loadAllParked at he
    split at he
    · next hl => exact ih (State.loadParked_wf h hl) he
    · cases he

theorem State.backParked_wf {s s' : State} (h : memWf s.mem) {pids : List (Nat × Nat)} {l : List Page}
    (he : s.backParked pids l = some s') : memWf s'.mem := by
  induction l generalizing s with
  | nil => cases he; exact h
  | cons g l ih =>
    unfold State.backParked at he
    dsimp only at he
    split at he
    · exact ih h he
    · split at he
      · exact ih h he
      · split at he
        · next hb => exact ih (State.backPage_wf h hb) he
        · cases he

@[simp] theorem State.rollParked_wf {s : State} (h : memWf s.mem) (k : Pkt) : memWf (s.rollParked k).1.mem := by
  unfold State.rollParked
  dsimp only
  split
  · exact h
  · split
    · exact h
    · split
      · exact h
      · split
        · exact h
        · split
          · exact h
          · split
            · exact h
            · next hl =>
              split
              · exact h
              · next hb =>
                split
                · exact h
                · simpa using State.backParked_wf (State.loadAllParked_wf h hl) hb

@[simp] theorem State.restorePage_wf {s : State} (h : memWf s.mem) (gid sid num : Nat) (cells : List Host.Cell) :
    memWf (s.restorePage gid sid num cells).mem :=
  memWf_memReplace (by simpa [State.foldl_mem] using h) _ _ cells

@[simp] theorem State.restoreHbm_wf {s : State} (h : memWf s.mem) (gid : Nat) (q : Snapshot) (remote : Bool) :
    memWf (s.restoreHbm gid q remote).mem := by
  unfold State.restoreHbm
  split
  · exact State.foldl_wf (fun s n hs => State.restorePage_wf hs gid q.sid n q.full) h _
  · exact State.foldl_wf (fun s p hs => State.restorePage_wf hs gid q.sid p.granule p.bytes) h _

@[simp] theorem State.restoreTile_wf {s : State} (h : memWf s.mem) (i : TileImage) : memWf (s.restoreTile i).mem := by
  unfold State.restoreTile
  exact State.foldl_wf (fun s e hs => State.writeRecord_wf hs i.tile e) (by exact memWf_memReplace h _ _ i.bytes) _

@[simp] theorem State.restoreGroup_wf {s : State} (h : memWf s.mem) (gid : Nat) (q : Snapshot) (remote : Bool) :
    memWf (s.restoreGroup gid q remote).mem := by
  unfold State.restoreGroup
  dsimp only
  rw [State.restoreVest_mem]
  refine State.restoreHbm_wf ?_ gid q remote
  rw [State.foldl_mem (by intros; rfl)]
  exact State.foldl_wf (fun s i hs => State.restoreTile_wf hs i) (by exact h) _

@[simp] theorem State.resumeAt_wf {s : State} (h : memWf s.mem) (sid rcount t : Nat) : memWf (s.resumeAt sid rcount t).mem := by
  simp [State.resumeAt, h]

@[simp] theorem State.rollStep_wf {s : State} (h : memWf s.mem) (r : Rollback) (q : Snapshot) : memWf (s.rollStep r q).mem := by
  unfold State.rollStep
  dsimp only
  split
  · simpa [State.foldl_mem] using h
  · exact State.restoreGroup_wf h _ q r.remote
  · exact State.foldl_wf (fun s l hs => State.foldl_wf (fun s f hs => State.redeliverAt_wf hs l.1 f) hs _) h _
  · exact State.foldl_wf (fun s t hs => State.resumeAt_wf hs r.sid _ t) (by exact h) _
  · simpa [State.foldl_mem] using h

/-! ### The host, power and reset (R351 to R357) -/

@[simp] theorem State.hostPut_wf {s : State} (h : memWf s.mem) (pa : Nat) (bs : List Byte) : memWf (s.hostPut pa bs).mem := by
  unfold State.hostPut
  repeat' split
  all_goals simp [h]

@[simp] theorem State.hostPuts_wf {s : State} (h : memWf s.mem) (pa : Nat) (bs : List Byte) (n : Nat) : memWf (s.hostPuts pa bs n).mem := by
  induction n generalizing s pa bs with
  | zero => exact h
  | succ n ih =>
    unfold State.hostPuts
    dsimp only
    split
    · exact State.hostPut_wf h pa bs
    · exact ih (State.hostPut_wf h pa _) _ _

@[simp] theorem State.attest_wf {s : State} (h : memWf s.mem) (k : Pkt) : memWf (s.attest k).1.mem := State.hostPuts_wf h _ _ _

/-- Memory at reset, and after one, is in canonical form whatever it was before. -/
@[simp] theorem State.restarted_wf (s : State) : memWf s.restarted.mem := by
  show memWf resetMem
  decide

end Sys2Proof.Machine
end

section
/-! PROOF. Every instruction, event and step keeps memory in canonical form (obligation O42). -/

namespace Sys2Proof.Machine

/-! ### Instructions and events -/

/-- An execution that leaves a state leaves its memory in canonical form. -/
def CanonicalAfter : Result → Prop
  | .next t => memWf t.mem
  | .fault _ | .refused _ => True

@[simp] theorem canonicalAfter_next (t : State) : CanonicalAfter (.next t) ↔ memWf t.mem := Iff.rfl

theorem CanonicalAfter.of_mem {s t : State} (h : memWf s.mem) (he : t.mem = s.mem) : CanonicalAfter (.next t) := by
  simpa [he] using h

/-! #### Sends, counters and error injection (R179, R202, R289) -/

theorem execSend_canonical {s : State} (h : memWf s.mem) (cls : BitVec 8) (a p : Reg) (n : BitVec 4) :
    CanonicalAfter (execSend cls a p n s) := State.orTrap_wf h fun _ => by simpa using h

theorem execSendx_canonical {s : State} (h : memWf s.mem) (cls : BitVec 8) (a b c : Reg) :
    CanonicalAfter (execSendx cls a b c s) := State.orTrap_wf h fun _ => by simp [h]

theorem execSendg_canonical {s : State} (h : memWf s.mem) (cls : BitVec 8) (a p : Reg) (n : BitVec 4) :
    CanonicalAfter (execSendg cls a p n s) := by
  unfold execSendg
  split
  · simpa using h
  · refine State.orTrap_wf h fun q => ?_
    split
    · simpa using h
    · split
      · simpa using h
      · exact State.orTrap_wf h fun ds => by simpa using h

theorem execCrd_canonical {s : State} (h : memWf s.mem) (d a : Reg) : CanonicalAfter (execCrd d a s) :=
  State.orTrap_wf h fun cid => by simp [h]

theorem execCdis_canonical {s : State} (h : memWf s.mem) (a : Reg) : CanonicalAfter (execCdis a s) :=
  State.orTrap_wf h fun cid => by simp [h]

theorem execInject_canonical {s : State} (h : memWf s.mem) (a b : Reg) : CanonicalAfter (execInject a b s) := by
  have marked (p : Piece) : memWf (s.markPiece p).injected.mem := by simpa using h
  unfold execInject
  dsimp only
  split
  · simpa using h
  · split
    · simpa using h
    · split
      · split
        · simpa using h
        · exact State.orTrap_wf h marked
      · split
        · exact State.orLease_wf h marked
        · exact h

/-! #### Gathers and scatters (R221) -/

theorem execVgath_canonical {s : State} (h : memWf s.mem) (t : ElemType) (z : Bool) (d a b : Reg) (k : KReg) :
    CanonicalAfter (execVgath t z d a b k s) := State.orLease_wf h fun ps => by simpa using h

theorem execVscat_canonical {s : State} (h : memWf s.mem) (t : ElemType) (d a b : Reg) (k : KReg) :
    CanonicalAfter (execVscat t d a b k s) := State.orLease_wf h fun ps => State.writeMany_wf (by simpa using h) _ _

theorem execVscata_canonical {s : State} (h : memWf s.mem) (t : ElemType) (d a b : Reg) (k : KReg) :
    CanonicalAfter (execVscata t d a b k s) := State.orLease_wf h fun ps => State.addMany_wf (by simpa using h) _ _

/-! #### Events of a tile -/

theorem execGalleryRecordRead_canonical {s : State} (h : memWf s.mem) (t : Nat) : CanonicalAfter (execGalleryRecordRead t s) := by
  unfold execGalleryRecordRead
  split
  · exact h
  · split
    · simpa using h
    · exact h

theorem execXlateResolution_canonical {s : State} (h : memWf s.mem) : CanonicalAfter (execXlateResolution s) := by
  unfold execXlateResolution
  split
  · exact h
  · next x _ =>
    extract_lets s0 backed s1
    have h0 : memWf s0.mem := h
    have h1 : memWf s1.mem := by
      unfold s1
      rw [State.joinDiesOf_mem]
      cases he : backed with
      | none => exact h0
      | some t => exact State.backFault_wf h0 he
    split
    · exact h1
    · split
      · exact h1
      · simpa using h1
    · exact h1

theorem execCounterActionLaunch_canonical {s : State} (h : memWf s.mem) (t : Nat) : CanonicalAfter (execCounterActionLaunch t s) :=
  State.carryOut_wf h t 1 fun _ _ hs => State.launchLocal_wf hs ..

theorem execCounterActionMpost_canonical {s : State} (h : memWf s.mem) (t : Nat) : CanonicalAfter (execCounterActionMpost t s) :=
  State.carryOut_wf h t 2 fun _ _ hs => by simpa using hs

theorem execCounterActionCpost_canonical {s : State} (h : memWf s.mem) (t : Nat) : CanonicalAfter (execCounterActionCpost t s) :=
  State.carryOut_wf h t 3 fun _ _ hs => by simpa using hs

theorem execCounterActionSend_canonical {s : State} (h : memWf s.mem) (t : Nat) : CanonicalAfter (execCounterActionSend t s) :=
  State.carryOut_wf h t 4 fun a _ hs => State.actionSend_wf hs t a

theorem execCounterActionSetfull_canonical {s : State} (h : memWf s.mem) (t : Nat) : CanonicalAfter (execCounterActionSetfull t s) := by
  rw [execCounterActionSetfull, canonicalAfter_next, State.carryOut]
  split
  · exact State.wake_wf (by simpa using h) t
  · exact h

theorem execRouterCycle_canonical {s : State} (h : memWf s.mem) : CanonicalAfter (execRouterCycle s) := by
  unfold execRouterCycle
  split
  · exact h
  · exact State.tilesAfter_wf (State.planeCycle_wf (State.planeCycle_wf h 0) 1)

/-! #### Events of the package -/

theorem execSealComplete_canonical {s : State} (h : memWf s.mem) (pid : Nat) : CanonicalAfter (execSealComplete pid s) := by
  unfold execSealComplete
  extract_lets mine n s0 s1 gid
  have h0 : memWf s0.mem := by
    unfold s0
    split
    · split
      · rwa [State.foldl_mem (by intros; rfl)]
      · exact h
    · exact h
  have h1 : memWf s1.mem := h0
  split
  · exact h
  · cases gid with
    | none => exact h1
    | some g =>
      refine CanonicalAfter.of_mem h1 ?_
      split <;> simp

theorem execPackageLoss_canonical {s : State} (h : memWf s.mem) (p : Nat) : CanonicalAfter (execPackageLoss p s) := by
  unfold execPackageLoss
  split
  · exact h
  · exact State.foldl_wf (fun s e hs => by simpa using hs) (by exact h) _

theorem execFrameAck_canonical {s : State} (h : memWf s.mem) (port : Nat) (a : Ack) : CanonicalAfter (execFrameAck port a s) := by
  unfold execFrameAck
  dsimp only
  split
  · exact CanonicalAfter.of_mem h (State.foldl_mem State.toHost_mem ..)
  · exact h

theorem execPortDownSequenceReply_canonical {s : State} (h : memWf s.mem) (port seq : Nat) :
    CanonicalAfter (execPortDownSequenceReply port seq s) :=
  CanonicalAfter.of_mem h (State.foldl_mem State.toHost_mem ..)

theorem execRouteTableUpdate_canonical {s : State} (h : memWf s.mem) (entries : List (Nat × Nat)) :
    CanonicalAfter (execRouteTableUpdate entries s) :=
  CanonicalAfter.of_mem h (State.foldl_mem (fun s (e : Nat × Nat) => State.setRoute_mem s e.1 e.2) ..)

/-! #### Commands of the Vestibule's queues (R322) -/

/-- A command event whose command and completion write no memory. -/
theorem command_canonical {s : State} (h : memWf s.mem) (n : Nat) (c : VCmd) (ready : State → Pkt → Bool)
    {run : State → Pkt → State × Answer} (hrun : ∀ s k, (run s k).1.mem = s.mem) (fin : State → Pkt → Packet → Option (Nat × Nat)) :
    CanonicalAfter (.next (s.command n c ready run fin noAfter)) :=
  State.command_wf h n c ready (fun s k hs => by rwa [hrun]) fin noAfter_wf

theorem execUnloadjob_canonical {s : State} (h : memWf s.mem) (q : Nat) : CanonicalAfter (execUnloadjob q s) :=
  State.command_wf h q .unloadjob _ (fun _ k hs => State.unloadjob_wf hs k) _ fun _ k hs => State.endUnload_wf hs k.part

theorem execUnloadjobKeep_canonical {s : State} (h : memWf s.mem) (q : Nat) : CanonicalAfter (execUnloadjobKeep q s) :=
  State.command_wf h q .unloadKeep _ (fun _ k hs => State.unloadKeep_wf hs k) _ fun _ k hs => State.park_wf hs k

theorem execInjecterr_canonical {s : State} (h : memWf s.mem) (q : Nat) : CanonicalAfter (execInjecterr q s) :=
  State.command_wf h q .injecterr _ (fun _ k hs => by simpa using hs) _ fun _ k hs => by simpa using hs

/-! #### Every instruction and event -/

/-- An instruction or event executed on memory in canonical form leaves it so: it writes no memory, or through the operations above. -/
theorem exec_canonical {s : State} (h : memWf s.mem) (i : Instr) : CanonicalAfter (exec i s) := by
  cases i with
  | cMov | cAdd | cSub | cAnd | cOr | cAddi | cMovi | cYield | cNop | add | sub | mul | mulh | mulhn | div | divn | rem | remn | and
  | or | xor | andn | orn | shl | shr | sar | rol | min | max | minn | maxn | seq | sne | slt | sle | sltn | slen | sel | clz | ctz
  | popc | brev | muladd | padd | psub | pfmt | addw | subw | mulw | shlw | shrw | sarw | addi | andi | ori | xori | slti | sltni
  | shli | shri | sari | roli | shliW | shriW | sariW | roliW | movw | movk | movn | paddi | adr | fmoviF64H | fmoviF32H | fmoviF64Bf
  | fmoviF32Bf | b | bl | yield | nop | msgld | msghd | msgid | msglen | fadd | fsub | fmul | fdiv | fsqrt | fmin | fmax | fabs
  | fneg | fcpys | ffma | ffms | fnfma | fnfms | feq | flt | fle | fclass | ftos | fton | stof | ntof | frint | vadd | vsub
  | vmul | vmin | vmax | vabs | vneg | vadds | vsubs | vmulh | vdiv | vsqrt | vavg | vfma | vfms | vnfma | vmac | vdot2 | vdot4
  | vdot4i | vand | vor | vxor | vandn | vshl | vshr | vsar | vrol | vnot | vcmpEq | vcmpNe | vcmpLt | vcmpLe | vcmpGt | vcmpGe
  | vcmpUn | vbcast | vperm | vsel | vext | vins | vzipl | vziph | vuzpe | vuzpo | viota | vcmprs | vsldn | vcvt | vrand | vror
  | vrxor | kand | kor | kxor | kandn | knot | kfromg | ktog | kpopc | kfirst | mseq | cseq | resumeq | time | cycle
  | governorPowerCheck | forwardingEntryRetire | linkFrameReceive | frameRetryTimeout | laneRetire | telemetrySample | thermalLimit
  | egressRingConsumed | thermalLimitCleared => exact h
  | waitf | vldW => exact State.accessAt_wf h ..
  | amoAdd | amoAnd | amoOr | amoXor | amoMin | amoMax | amoMinn | amoMaxn | amoSwap | amoCas | amoFadd => exact State.amoAt_wf h ..
  | lddW | lddWc | lddT | lddTc | fetest | stdF | stdWf | feset | feclr => exact State.feAt_wf h ..
  | cLdd | ldbs | ldbz | ldhs | ldhz | ldws | ldwz | ldd => exact State.loadG_wf h ..
  | cStd | stb | sth | stw | std => exact State.storeG_wf h ..
  | rresv | rpubl | rhead | rcons => exact State.ringAt_wf h ..
  | vld | vldb => exact State.vloadAt_wf h ..
  | vst | vstF => exact State.vstoreAt_wf h ..
  | get | getN => exact State.getAt_wf h ..
  | put | putF | putN | putFn => exact State.putAt_wf h ..
  | mpost | cpost => exact State.postRecord_wf h ..
  | mmaBf16 | mmaF16 | mmaE4m3 | mmaE5m2 | mmaE4e5 | mmaMxf4 | mmaQ4o | mmaF32 | mmaF64 | mmaSpBf16 | mmaSpE4m3 | aclr | aload
  | astore | aadd | mark => exact State.matrixStep_wf h ..
  | copy1d | copy2d | fill | gatherrows | scatterrows => exact State.copyStep_wf h ..
  | handlerMessageArrival | getRequest | putRequest | atomicRequest | ringRequest | counterIncrement | replyData | replyStatus
  | forwardedFlit | lockAcquireRequest | lockConvertRequest | lockReleaseRequest | lockCancelRequest | lockGrantArrival
  | woundArrival | leaseRequest | leaseRecall | leaseReleaseAtHome | snapshotMarker | trigArrival => exact State.serveEvent_wf h ..
  | migrate => exact State.migrateTo_wf h ..
  | carm => exact State.carm_wf h ..
  | cadd => exact State.cadd_wf h ..
  | cinc => exact State.cinc_wf h ..
  | lease => exact State.lease_wf h ..
  | leaser => exact State.leaser_wf h ..
  | lkqry => exact State.lkqry_wf h ..
  | vldt => exact State.vldt_wf h ..
  | vstq => exact State.vstq_wf h ..
  | cBz | cBnz | bcEq | bcNe | bcLt | bcGe | bcLtn | bcGen | bcAny | bcNone => exact .of_mem h (State.branchIf_mem ..)
  | fbcEq | fbcNe | fbcLt | fbcLe | fbcUn | fbcOrd => exact .of_mem h (State.fbranch_mem ..)
  | cDone | cCommit | done | commit => exact .of_mem h (State.commitSends_mem ..)
  | cRet | jr | jlr => exact .of_mem h (State.jumpReg_mem ..)
  | loop0 | loop1 => exact .of_mem h (State.enterLoop_mem ..)
  | fence | fenceAcq | fenceRel => exact .of_mem h (State.fenceAt_mem ..)
  | abort => exact .of_mem h (State.endConsumed_mem ..)
  | requeue => exact .of_mem h (State.requeue_mem ..)
  | mts => exact .of_mem h (State.writeStateReg_mem ..)
  | vrmin | vrmax => exact .of_mem h (State.vrminmax_mem ..)
  | mwait | cwait => exact .of_mem h (State.engineWait_mem ..)
  | mstat | cstat => exact .of_mem h (State.engineStat_mem ..)
  | txbeg => exact .of_mem h (State.txbeg_mem ..)
  | txcommit => exact .of_mem h (State.txcommit_mem ..)
  | txend => exact .of_mem h (State.txend_mem ..)
  | lkacq | lktry => exact .of_mem h (State.lockAcquire_mem ..)
  | lkcvt => exact .of_mem h (State.lockConvert_mem ..)
  | lkrel => exact .of_mem h (State.lockRelease_mem ..)
  | lkmat => exact .of_mem h (State.lkmat_mem ..)
  | dispatch => exact .of_mem h (State.dispatch_mem ..)
  | txendConfirm | lkmatComplete => exact .of_mem h (State.lockEnd_mem ..)
  | illegalInstruction | fetchFault => exact .of_mem h (State.takeTrap_mem ..)
  | send => exact execSend_canonical h ..
  | sendx => exact execSendx_canonical h ..
  | sendg => exact execSendg_canonical h ..
  | crd => exact execCrd_canonical h ..
  | cdis => exact execCdis_canonical h ..
  | inject => exact execInject_canonical h ..
  | vgath => exact execVgath_canonical h ..
  | vscat => exact execVscat_canonical h ..
  | vscata => exact execVscata_canonical h ..
  | galleryRecordRead => exact execGalleryRecordRead_canonical h ..
  | xlateResolution => exact execXlateResolution_canonical h ..
  | counterActionLaunch => exact execCounterActionLaunch_canonical h ..
  | counterActionMpost => exact execCounterActionMpost_canonical h ..
  | counterActionCpost => exact execCounterActionCpost_canonical h ..
  | counterActionSend => exact execCounterActionSend_canonical h ..
  | counterActionSetfull => exact execCounterActionSetfull_canonical h ..
  | routerCycle => exact execRouterCycle_canonical h ..
  | sealComplete => exact execSealComplete_canonical h ..
  | packageLoss => exact execPackageLoss_canonical h ..
  | frameAck => exact execFrameAck_canonical h ..
  | portDownSequenceReply => exact execPortDownSequenceReply_canonical h ..
  | routeTableUpdate => exact execRouteTableUpdate_canonical h ..
  | unloadjob => exact execUnloadjob_canonical h ..
  | unloadjobKeep => exact execUnloadjobKeep_canonical h ..
  | injecterr => exact execInjecterr_canonical h ..
  | migratetile => exact command_canonical h _ _ _ State.migrateTile_mem _
  | launch => exact command_canonical h _ _ _ State.launch_mem _
  | waittag => exact command_canonical h _ _ _ State.waittag_mem _
  | signal => exact command_canonical h _ _ _ State.signal_mem _
  | snapshot => exact command_canonical h _ _ _ State.snapshotCmd_mem _
  | rollbackLocal => exact command_canonical h _ _ _ (State.rollback_mem false) _
  | rollbackRemote => exact command_canonical h _ _ _ (State.rollback_mem true) _
  | rollbackDiscard => exact command_canonical h _ _ _ State.rollDiscard_mem _
  | partitionDestroy => exact command_canonical h _ _ _ State.partDestroy_mem _
  | loadjob => exact State.command_wf h _ _ _ (fun _ k hs => State.loadjob_wf hs k) _ noAfter_wf
  | rollbackParked => exact State.command_wf h _ _ _ (fun _ k hs => State.rollParked_wf hs k) _ noAfter_wf
  | partitionCreate => exact State.command_wf h _ _ _ (fun _ k hs => State.partCreate_wf hs k) _ noAfter_wf
  | createq => exact State.command_wf h _ _ _ (fun _ k hs => State.createq_wf hs k) _ noAfter_wf
  | destroyq => exact State.command_wf h _ _ _ (fun _ k hs => State.destroyq_wf hs k) _ noAfter_wf
  | attest => exact State.command_wf h _ _ _ (fun _ k hs => State.attest_wf hs k) _ noAfter_wf
  | reconcilePass => exact State.onTimer_wf h _ (State.reconcile_wf h _)
  | launchSweep => exact State.onTimer_wf h _ (by simpa using h)
  | powerRemoval => rfl
  | ptag | bfx | bfxs | bfi | trap | tret | mfs | fenceEng | fcvtp | vrsum | vrsumt =>
    simp only [exec_ptag, execPtag, exec_bfx, execBfx, exec_bfxs, execBfxs, exec_bfi, execBfi, exec_trap, execTrap, exec_tret, execTret,
      exec_mfs, execMfs, exec_fenceEng, execFenceEng, exec_fcvtp, execFcvtp, exec_vrsum, execVrsum, exec_vrsumt, execVrsumt]
    split <;> simp [h]
  | lkacqm | snapq | trig =>
    simp only [exec_lkacqm, execLkacqm, exec_snapq, execSnapq, exec_trig, execTrig]
    split <;> simp [h]
  | snap | xinv =>
    simp only [exec_snap, execSnap, exec_xinv, execXinv]
    (repeat' split) <;> simp [h]
  | xinvComplete | localArrivalRetry | hlimitExpiry | ageReport | commitRoomWaitEnd | heldUpdateApply =>
    simp only [exec_xinvComplete, execXinvComplete, exec_localArrivalRetry, execLocalArrivalRetry, exec_hlimitExpiry, execHlimitExpiry,
      exec_ageReport, execAgeReport, exec_commitRoomWaitEnd, execCommitRoomWaitEnd, exec_heldUpdateApply, execHeldUpdateApply]
    split <;> simp [h]
  | matrixCommandComplete | copyCommandComplete | leaveGrant | woundgraceExpiry =>
    simp only [exec_matrixCommandComplete, execMatrixCommandComplete, exec_copyCommandComplete, execCopyCommandComplete,
      exec_leaveGrant, execLeaveGrant, exec_woundgraceExpiry, execWoundgraceExpiry]
    split <;> simp [h]
  | migrationStream | migrationRemap | migrationResume | backgroundBlockCopy | snapqAnswer | doorbell =>
    simp only [exec_migrationStream, execMigrationStream, exec_migrationRemap, execMigrationRemap, exec_migrationResume,
      execMigrationResume, exec_backgroundBlockCopy, execBackgroundBlockCopy, exec_snapqAnswer, execSnapqAnswer, exec_doorbell,
      execDoorbell]
    split <;> simp [h]
  | snapshotCountReport | snapshotDrain | rollbackStep | hostinRecord | egressDelivery | softError =>
    simp only [exec_snapshotCountReport, execSnapshotCountReport, exec_snapshotDrain, execSnapshotDrain, exec_rollbackStep,
      execRollbackStep, exec_hostinRecord, execHostinRecord, exec_egressDelivery, execEgressDelivery, exec_softError, execSoftError]
    (repeat' split) <;> simp [h]
  | laneTurnaround | laneRecalibration | portTrained | hbmPatrolScrub | sramScrub | deviceReset | hostWrite =>
    simp only [exec_laneTurnaround, execLaneTurnaround, exec_laneRecalibration, execLaneRecalibration, exec_portTrained,
      execPortTrained, exec_hbmPatrolScrub, execHbmPatrolScrub, exec_sramScrub, execSramScrub, exec_deviceReset, execDeviceReset,
      exec_hostWrite, execHostWrite]
    split <;> simp [h]
  -- what is left is the floating compare FUN, whose name is a keyword of Lean
  | _ => exact h

/-! ### The issue of an instruction, and a step -/

/-- The memory an issue leaves before its instruction, or its MCHECK, is the memory it found. -/
def Issue.mem : Issue → List Host.Cell
  | .run _ s | .check s => s.mem

theorem State.issue_mem (s : State) : s.issue.mem = s.mem := by
  unfold State.issue
  split
  · exact State.lateMcheck_mem ..
  · split
    · simp [Issue.mem]
    · split
      · rfl
      · exact State.mcheck_mem ..
      · split <;> simp [Issue.mem]

theorem State.cycleStep_canonical {s : State} (h : memWf s.mem) : CanonicalAfter s.cycleStep := by
  unfold State.cycleStep
  split
  · next t c _ =>
    have hm : memWf (s.turn t c).issue.mem := by simpa [State.issue_mem] using h
    split
    · next i s1 he =>
      rw [he] at hm
      exact exec_canonical hm i
    · next s1 he => rwa [he] at hm
  · split
    · exact exec_canonical (by exact h) _
    · exact h

theorem step_canonical {s : State} (h : memWf s.mem) : CanonicalAfter (step s) := by
  unfold step
  split
  · split
    · exact exec_canonical (by exact h) _
    · trivial
    · exact exec_canonical (by exact h) _
  · split
    · exact State.cycleStep_canonical h
    · trivial

end Sys2Proof.Machine

namespace Sys2Proof.Claims
open Sys2Proof.Machine

/-- Settles O42: every instruction and event writes memory through operations that keep the canonical form. -/
theorem stepKeepsMemoryCanonical : Obligations.StepKeepsMemoryCanonical := by
  unfold Obligations.StepKeepsMemoryCanonical
  intro s t h he
  have ht : CanonicalAfter (step s) := step_canonical h
  rwa [he] at ht

end Sys2Proof.Claims
end
